-- ==== Sys2Proof/Word.lean ====
section
/-! DEFINITION. The word types of the machine and the one sparse table that State is built from. -/

namespace Sys2Proof

/-- A 64-bit register, port or instruction word (02 R27, R38). -/
abbrev Word := BitVec 64

/-- A byte of memory. -/
abbrev Byte := BitVec 8

/-- A 64-byte structure: a command block, a tensor map, a queue packet, a trap record. Byte k is bits 8k+7:8k (00 R1). -/
abbrev Block := BitVec 512

/-- A sparse table: pairs of index and entry. An unlisted index has the default that the reader names. -/
abbrev Table (α : Type) := List (Nat × α)

namespace Table

/-- The entry of index k, or d where none is listed. -/
def get {α : Type} (d : α) : Table α → Nat → α
  | [], _ => d
  | (k', v) :: r, k => if k = k' then v else get d r k

/-- Whether index k is listed. -/
def has {α : Type} : Table α → Nat → Bool
  | [], _ => false
  | (k', _) :: r, k => if k = k' then true else has r k

/-- Sets index k; indices stay in rising order. -/
def set {α : Type} : Table α → Nat → α → Table α
  | [], k, v => [(k, v)]
  | (k', v') :: r, k, v =>
    if k < k' then (k, v) :: (k', v') :: r
    else if k = k' then (k, v) :: r
    else (k', v') :: set r k v

/-- Removes index k. -/
def erase {α : Type} : Table α → Nat → Table α
  | [], _ => []
  | (k', v') :: r, k => if k = k' then erase r k else (k', v') :: erase r k

end Table

/-- The two's-complement reading of the low n bits of v (00 R8, SignExtend). -/
def signExt (n : Nat) (v : Nat) : Int :=
  let m := v % 2 ^ n
  if 2 * m < 2 ^ n then (m : Int) else (m : Int) - (2 ^ n : Nat)

/-- Bits lo+w-1:lo of v as a number (00 R7). -/
def bitsOf (v lo w : Nat) : Nat := (v / 2 ^ lo) % 2 ^ w

/-- The first k naturals that follow n. -/
def upFrom (n k : Nat) : List Nat := (List.range k).map (n + ·)

end Sys2Proof
end

