-- ==== Sys2Proof/Machine/Flags.lean ====
section
/-! DEFINITION. Number formats, rounding, the stochastic stream, the arithmetic flags and the decode tables (09). -/

namespace Sys2Proof.Machine

/-- The flags NX, UF, OF, DZ, NV at bits 0 to 4 (09 R223). -/
abbrev FFlags := BitVec 5

def NX : FFlags := 1
def UF : FFlags := 2
def OF : FFlags := 4
def DZ : FFlags := 8
def NV : FFlags := 16

/-- The value of a code: a NaN, an infinity, or (−1)^neg × m × 2^e. -/
inductive FVal where
  | nan (signalling : Bool)
  | inf (neg : Bool)
  | fin (neg : Bool) (m : Nat) (e : Int)
  deriving DecidableEq, Repr

/-- The parameters of a floating format (09 R213): exponent bits, fraction bits, bias, and whether it has infinities. -/
structure Fmt where
  ebits : Nat
  w : Nat
  bias : Nat
  hasInf : Bool
  deriving DecidableEq, Repr

def Fmt.f32 : Fmt := ⟨8, 23, 127, true⟩
def Fmt.f64 : Fmt := ⟨11, 52, 1023, true⟩
def Fmt.f19 : Fmt := ⟨8, 10, 127, true⟩
def Fmt.bf16 : Fmt := ⟨8, 7, 127, true⟩
def Fmt.f16 : Fmt := ⟨5, 10, 15, true⟩
def Fmt.e4m3 : Fmt := ⟨4, 3, 7, false⟩
def Fmt.e5m2 : Fmt := ⟨5, 2, 15, true⟩

/-- The floating format of a format code (09 R213). -/
def fmtOf : Nat → Option Fmt
  | 0x0 => some .f32
  | 0x1 => some .f64
  | 0x2 => some .f19
  | 0x3 => some .bf16
  | 0x4 => some .f16
  | 0x5 => some .e4m3
  | 0x6 => some .e5m2
  | _ => none

/-- Width and signedness of an integer format code (09 R213). -/
def intOf : Nat → Option (Nat × Bool)
  | 0x9 => some (8, true)
  | 0xA => some (8, false)
  | 0xB => some (16, true)
  | 0xC => some (32, true)
  | 0xD => some (64, true)
  | _ => none

/-- Bits of one element of a format code (09 R213). -/
def fmtBits : Nat → Nat
  | 0x0 => 32
  | 0x1 => 64
  | 0x2 => 19
  | 0x3 => 16
  | 0x4 => 16
  | 0x7 => 8
  | 0x8 => 4
  | 0xB => 16
  | 0xC => 32
  | 0xD => 64
  | _ => 8

/-- The code of the largest finite magnitude (09 R215). -/
def Fmt.maxCode (f : Fmt) : Nat :=
  if f.hasInf then (2 ^ f.ebits - 1) * 2 ^ f.w - 1 else 2 ^ (f.ebits + f.w) - 2

/-- The code of +infinity in a format that has it. -/
def Fmt.infCode (f : Fmt) : Nat := (2 ^ f.ebits - 1) * 2 ^ f.w

/-- The canonical NaN (09 R215). -/
def Fmt.nanCode (f : Fmt) : Nat :=
  if f.hasInf then f.infCode + 2 ^ (f.w - 1) else 2 ^ (f.ebits + f.w) - 1

/-- The sign bit of a code. -/
def Fmt.sign (f : Fmt) (neg : Bool) : Nat := if neg then 2 ^ (f.ebits + f.w) else 0

/-- The value of a code of a floating format (09 R214). -/
def Fmt.value (f : Fmt) (c : Nat) : FVal :=
  let neg := (c / 2 ^ (f.ebits + f.w)) % 2 == 1
  let e := (c / 2 ^ f.w) % 2 ^ f.ebits
  let fr := c % 2 ^ f.w
  let top := 2 ^ f.ebits - 1
  if e = 0 then .fin neg fr (1 - (f.bias : Int) - f.w)
  else if f.hasInf then
    if e = top then (if fr = 0 then .inf neg else .nan (fr < 2 ^ (f.w - 1)))
    else .fin neg (2 ^ f.w + fr) ((e : Int) - f.bias - f.w)
  else if e = top && fr = 2 ^ f.w - 1 then .nan false
  else .fin neg (2 ^ f.w + fr) ((e : Int) - f.bias - f.w)

/-- An integer as a value. -/
def intVal (v : Int) : FVal := .fin (v < 0) v.natAbs 0

/-- The value of an E8M0 code (09 R215). -/
def e8m0Value (c : Nat) : FVal := if c % 256 = 255 then .nan false else .fin false 1 ((c % 256 : Int) - 127)

/-- The value of an E4M3S code as a magnitude; bit 7 set is invalid: a quiet NaN with NV (09 R227). -/
def e4m3sValue (c : Nat) : FVal × FFlags :=
  if c % 256 ≥ 128 then (.nan false, NV) else (Fmt.e4m3.value (c % 128), 0)

/-- A result with the flags it raises. -/
structure FRes where
  code : Nat
  flags : FFlags
  deriving DecidableEq, Repr

/-- Whether the magnitude is rounded away from zero (09 R218, R219, R221): rem of 2^sh with a remainder below it when sticky;
odd is the lowest bit of the smaller neighbour, q the draw of RSR. -/
def roundsUp (mode : Nat) (neg odd : Bool) (rem sh : Nat) (sticky : Bool) (q : Nat) : Bool :=
  if mode = 0 then
    if 2 * rem < 2 ^ sh then false
    else if 2 * rem = 2 ^ sh && !sticky then odd
    else true
  else if mode = 1 then false
  else if mode = 2 then neg
  else if mode = 3 then !neg
  else decide (q < rem * 2 ^ 32 / 2 ^ sh)

/-- What an overflow gives (09 R219). -/
def overflowCode (f : Fmt) (mode : Nat) (sat neg : Bool) : Nat :=
  let toInf := mode == 0 || mode == 4 || (mode == 2 && neg) || (mode == 3 && !neg)
  if sat || !toInf then f.sign neg + f.maxCode
  else if f.hasInf then f.sign neg + f.infCode
  else f.nanCode

/-- Round of the finite real (−1)^neg × (m + δ) × 2^e, with 0 < δ < 1 when sticky and δ = 0 otherwise (09 R219). -/
def roundFin (f : Fmt) (mode : Nat) (sat : Bool) (q : Nat) (neg : Bool) (m : Nat) (e : Int) (sticky : Bool) : FRes :=
  if m = 0 && !sticky then ⟨f.sign neg, 0⟩
  else
    let emin : Int := 1 - f.bias
    let lead : Int := e + Nat.log2 m
    let ulp : Int := max emin lead - f.w
    let sh := (ulp - e).toNat
    let a := if ulp ≤ e then m * 2 ^ (e - ulp).toNat else m / 2 ^ sh
    let rem := if ulp ≤ e then 0 else m % 2 ^ sh
    let exact := rem == 0 && !sticky
    let a' := if exact then a else if roundsUp mode neg (a % 2 == 1) rem sh sticky q then a + 1 else a
    let code := (ulp - (emin - f.w)).toNat * 2 ^ f.w + a'
    if code > f.maxCode then ⟨overflowCode f mode sat neg, OF ||| NX⟩
    else if exact then ⟨f.sign neg + code, 0⟩
    else ⟨f.sign neg + code, if lead < emin then NX ||| UF else NX⟩

/-- Round of a value to a floating format (09 R217, R219). A signalling NaN raises NV. -/
def roundTo (f : Fmt) (mode : Nat) (sat : Bool) (q : Nat) : FVal → FRes
  | .nan s => ⟨f.nanCode, if s then NV else 0⟩
  | .inf neg =>
    if sat then ⟨f.sign neg + f.maxCode, NX⟩
    else if f.hasInf then ⟨f.sign neg + f.infCode, 0⟩
    else ⟨f.nanCode, NV⟩
  | .fin neg m e => roundFin f mode sat q neg m e false

/-- Round of the finite real (−1)^neg × (m + δ) × 2^e, δ as in roundFin, to an integer format of w bits (09 R220). -/
def roundIntFin (w : Nat) (signed : Bool) (mode : Nat) (q : Nat) (neg : Bool) (m : Nat) (e : Int) (sticky : Bool) : FRes :=
  let sh := (-e).toNat
  let a := if 0 ≤ e then m * 2 ^ e.toNat else m / 2 ^ sh
  let rem := if 0 ≤ e then 0 else m % 2 ^ sh
  let exact := rem == 0 && !sticky
  let a' := if exact then a else if roundsUp mode neg (a % 2 == 1) rem sh sticky q then a + 1 else a
  let v : Int := if neg then -(a' : Int) else a'
  let lo : Int := if signed then -(2 ^ (w - 1) : Nat) else 0
  let hi : Int := if signed then (2 ^ (w - 1) : Nat) - 1 else (2 ^ w : Nat) - 1
  if v < lo then ⟨(lo % (2 ^ w : Nat)).toNat, NV⟩
  else if v > hi then ⟨hi.toNat, NV⟩
  else ⟨(v % (2 ^ w : Nat)).toNat, if exact then 0 else NX⟩

/-- Round of a value to an integer format of w bits (09 R220). -/
def roundInt (w : Nat) (signed : Bool) (mode : Nat) (q : Nat) : FVal → FRes
  | .nan _ => ⟨0, NV⟩
  | .inf neg => ⟨if neg then (if signed then 2 ^ (w - 1) else 0) else if signed then 2 ^ (w - 1) - 1 else 2 ^ w - 1, NV⟩
  | .fin neg m e => roundIntFin w signed mode q neg m e false

/-- One step of the stochastic stream; the draw is the new state (09 R221). -/
def lfsrStep (s : BitVec 32) : BitVec 32 :=
  let s := if s = 0 then 1 else s
  let r := s >>> 1
  if s.getLsbD 0 then r ^^^ 0x80200003 else r

/-- The stream after one rounding under a mode: RSR steps it (09 R221). -/
def seedAfter (mode : Nat) (s : BitVec 32) : BitVec 32 := if mode = 4 then lfsrStep s else s

/-- Exact comparison: the value scaled by 2^s as an integer, for a value whose exponent is at least −s. -/
def scaled (s : Nat) (neg : Bool) (m : Nat) (e : Int) : Int :=
  let v : Int := m * 2 ^ (e + s).toNat
  if neg then -v else v

/-- x < y for numbers; zeros compare equal. -/
def FVal.lt : FVal → FVal → Bool
  | .inf n, .inf n' => n && !n'
  | .inf n, .fin .. => n
  | .fin .., .inf n => !n
  | .fin n m e, .fin n' m' e' =>
    let s := (max (-e) (-e')).toNat
    decide (scaled s n m e < scaled s n' m' e')
  | _, _ => false

/-- x = y for numbers; zeros compare equal. -/
def FVal.eqv : FVal → FVal → Bool
  | .inf n, .inf n' => n == n'
  | .fin n m e, .fin n' m' e' =>
    let s := (max (-e) (-e')).toNat
    decide (scaled s n m e = scaled s n' m' e')
  | _, _ => false

def FVal.isNaN : FVal → Bool
  | .nan _ => true
  | _ => false

def FVal.isSNaN : FVal → Bool
  | .nan s => s
  | _ => false

def FVal.isNeg : FVal → Bool
  | .nan _ => false
  | .inf n => n
  | .fin n _ _ => n

def FVal.isZero : FVal → Bool
  | .fin _ m _ => m == 0
  | _ => false

/-- The opposite value; a NaN stays. -/
def FVal.negate : FVal → FVal
  | .nan s => .nan s
  | .inf n => .inf (!n)
  | .fin n m e => .fin (!n) m e

/-- NV for a signalling input. -/
def snan (x : FVal) : FFlags := if x.isSNaN then NV else 0

/-- The exact sum of two finite values; an exact zero takes the sign of 09 R236. -/
def addFin (mode : Nat) (n : Bool) (m : Nat) (e : Int) (n' : Bool) (m' : Nat) (e' : Int) : FVal :=
  let lo := min e e'
  let a : Int := (if n then -1 else 1) * (m * 2 ^ (e - lo).toNat : Nat)
  let b : Int := (if n' then -1 else 1) * (m' * 2 ^ (e' - lo).toNat : Nat)
  let s := a + b
  if s = 0 then .fin (if n = n' then n else mode == 2) 0 0 else .fin (decide (s < 0)) s.natAbs lo

/-- Round(x + y) with the special cases of 09 R236. -/
def fAdd (f : Fmt) (mode : Nat) (sat : Bool) (q : Nat) (x y : FVal) : FRes :=
  match x, y with
  | .nan s, y => ⟨f.nanCode, (if s then NV else 0) ||| snan y⟩
  | x, .nan s => ⟨f.nanCode, (if s then NV else 0) ||| snan x⟩
  | .inf n, .inf n' => if n = n' then roundTo f mode sat q (.inf n) else ⟨f.nanCode, NV⟩
  | .inf n, .fin .. => roundTo f mode sat q (.inf n)
  | .fin .., .inf n => roundTo f mode sat q (.inf n)
  | .fin n m e, .fin n' m' e' => roundTo f mode sat q (addFin mode n m e n' m' e')

/-- The exact product, with NV for 0 × ∞ and for a signalling NaN (09 R228, R236). -/
def mulVal (x y : FVal) : FVal × FFlags :=
  match x, y with
  | .nan s, y => (.nan false, (if s then NV else 0) ||| snan y)
  | x, .nan s => (.nan false, (if s then NV else 0) ||| snan x)
  | .inf n, .inf n' => (.inf (n != n'), 0)
  | .inf n, .fin n' m _ => if m = 0 then (.nan false, NV) else (.inf (n != n'), 0)
  | .fin n m _, .inf n' => if m = 0 then (.nan false, NV) else (.inf (n != n'), 0)
  | .fin n m e, .fin n' m' e' => (.fin (n != n') (m * m') (e + e'), 0)

/-- Round(x × y) (09 R235, R236). -/
def fMul (f : Fmt) (mode : Nat) (sat : Bool) (q : Nat) (x y : FVal) : FRes :=
  let p := mulVal x y
  let r := roundTo f mode sat q p.1
  ⟨r.code, r.flags ||| p.2⟩

/-- Round(x × y + z), rounded once (09 R235, R236). -/
def fFma (f : Fmt) (mode : Nat) (sat : Bool) (q : Nat) (x y z : FVal) : FRes :=
  let p := mulVal x y
  let r := fAdd f mode sat q p.1 z
  ⟨r.code, r.flags ||| p.2⟩

/-- Extra quotient bits that make the rounding of a division exact. -/
def divBits : Nat := 1280

/-- Round(x / y) (09 R235, R236). -/
def fDiv (f : Fmt) (mode : Nat) (sat : Bool) (q : Nat) (x y : FVal) : FRes :=
  match x, y with
  | .nan s, y => ⟨f.nanCode, (if s then NV else 0) ||| snan y⟩
  | x, .nan s => ⟨f.nanCode, (if s then NV else 0) ||| snan x⟩
  | .inf _, .inf _ => ⟨f.nanCode, NV⟩
  | .inf n, .fin n' _ _ => roundTo f mode sat q (.inf (n != n'))
  | .fin n _ _, .inf n' => ⟨f.sign (n != n'), 0⟩
  | .fin n m e, .fin n' m' e' =>
    if m' = 0 then
      if m = 0 then ⟨f.nanCode, NV⟩
      else
        let r := roundTo f mode sat q (.inf (n != n'))
        ⟨r.code, r.flags ||| DZ⟩
    else
      let num := m * 2 ^ divBits
      roundFin f mode sat q (n != n') (num / m') (e - e' - divBits) (num % m' != 0)

/-- The integer square root, one bit for each unit of fuel. -/
def isqrt (n : Nat) : Nat → Nat → Nat
  | 0, r => r
  | k + 1, r => let r' := r + 2 ^ k; isqrt n k (if r' * r' ≤ n then r' else r)

/-- The root of the positive real m × 2^e as r × 2^e' with a sticky remainder; r has at least 200 bits. -/
def rootOf (m : Nat) (e : Int) : Nat × Int × Bool :=
  let m' := if e % 2 = 0 then m else 2 * m
  let e' := if e % 2 = 0 then e else e - 1
  let n := m' * 2 ^ 512
  let r := isqrt n (Nat.log2 n / 2 + 1) 0
  (r, e' / 2 - 256, r * r != n)

/-- Round(√x) (09 R235, R236). -/
def fSqrt (f : Fmt) (mode : Nat) (sat : Bool) (q : Nat) (x : FVal) : FRes :=
  match x with
  | .nan s => ⟨f.nanCode, if s then NV else 0⟩
  | .inf n => if n then ⟨f.nanCode, NV⟩ else roundTo f mode sat q (.inf false)
  | .fin n m e =>
    if m = 0 then ⟨f.sign n, 0⟩
    else if n then ⟨f.nanCode, NV⟩
    else
      let r := rootOf m e
      roundFin f mode sat q false r.1 r.2.1 r.2.2

/-- x ranks below y for minimum and maximum: as numbers, with −0 below +0 (08 R207). -/
def FVal.below (x y : FVal) : Bool :=
  x.lt y || (x.isZero && y.isZero && x.isNeg && !y.isNeg)

/-- IEEE minimumNumber (big false) or maximumNumber (big true) of two values (09 R236, 08 R207). -/
def pickVal (big : Bool) (x y : FVal) : FVal × FFlags :=
  (if x.isNaN then y else if y.isNaN then x else if (if big then x.below y else y.below x) then y else x, snan x ||| snan y)

/-- pickVal as a code of a format. -/
def fPick (f : Fmt) (big : Bool) (x y : FVal) : FRes :=
  let r := pickVal big x y
  ⟨(roundTo f 0 false 0 r.1).code, r.2⟩

/-- The exact sum with the special cases of 09 R236. -/
def sumVal (mode : Nat) (x y : FVal) : FVal × FFlags :=
  match x, y with
  | .nan s, y => (.nan false, (if s then NV else 0) ||| snan y)
  | x, .nan s => (.nan false, (if s then NV else 0) ||| snan x)
  | .inf n, .inf n' => if n = n' then (.inf n, 0) else (.nan false, NV)
  | .inf n, .fin .. => (.inf n, 0)
  | .fin .., .inf n => (.inf n, 0)
  | .fin n m e, .fin n' m' e' => (addFin mode n m e n' m' e', 0)

/-- The class mask of a value (09 R235). -/
def fClass (f : Fmt) (x : FVal) : Nat :=
  match x with
  | .nan s => if s then 2 ^ 8 else 2 ^ 9
  | .inf n => if n then 2 ^ 0 else 2 ^ 7
  | .fin n m e =>
    if m = 0 then (if n then 2 ^ 3 else 2 ^ 4)
    else if e + Nat.log2 m < 1 - f.bias then (if n then 2 ^ 2 else 2 ^ 5)
    else if n then 2 ^ 1 else 2 ^ 6

/-- The bits of an operand that a format code reads from a 64-bit value (09 R216, R237). -/
def sourceBits (c : Nat) (v : Word) : Nat :=
  if c = 2 then bitsOf v.toNat 13 19 else v.toNat % 2 ^ fmtBits c

/-- The value that a code of a format code stands for, with NV for an invalid E4M3S code (09 R227, R237). -/
def codeValue (c bits : Nat) : FVal × FFlags :=
  match fmtOf c with
  | some f => (f.value bits, 0)
  | none =>
    match intOf c with
    | some (w, true) => (intVal (signExt w bits), 0)
    | some (w, false) => (intVal ((bits % 2 ^ w : Nat) : Int), 0)
    | none => if c = 0xE then (e8m0Value bits, 0) else e4m3sValue bits

/-- Conversion to E8M0 (09 R237): the power of two at or below x. -/
def toE8m0 : FVal → FRes
  | .nan _ => ⟨0xFF, NV⟩
  | .inf n => if n then ⟨0xFF, NV⟩ else ⟨0xFE, OF⟩
  | .fin n m e =>
    if m = 0 || n then ⟨0xFF, NV⟩
    else
      let l : Int := e + Nat.log2 m
      if l < -127 then ⟨0, NX ||| UF⟩
      else if l > 127 then ⟨0xFE, OF ||| NX⟩
      else ⟨(l + 127).toNat, if m = 2 ^ Nat.log2 m then 0 else NX⟩

/-- Conversion to E4M3S (09 R237). -/
def toE4m3s (mode : Nat) (sat : Bool) (q : Nat) (x : FVal) : FRes :=
  match x with
  | .nan s => ⟨0x7F, if s then NV else 0⟩
  | x =>
    if x.isZero then ⟨0, 0⟩
    else if x.isNeg then ⟨0x7F, NV⟩
    else roundTo Fmt.e4m3 mode sat q x

/-- Round of a value to a format code other than T8 and T4 (09 R219, R220, R237). -/
def roundCode (c mode : Nat) (sat : Bool) (q : Nat) (x : FVal) : FRes :=
  match fmtOf c with
  | some f => roundTo f mode sat q x
  | none =>
    match intOf c with
    | some (w, s) => roundInt w s mode q x
    | none => if c = 0xE then toE8m0 x else toE4m3s mode sat q x

/-- A code of format c as a 64-bit result (09 R216, R237): F19 as its F32 pattern, signed integers sign-extended. -/
def resultWord (c code : Nat) : Word :=
  if c = 2 then BitVec.ofNat 64 (code * 2 ^ 13)
  else
    match intOf c with
    | some (w, true) => BitVec.ofInt 64 (signExt w code)
    | _ => BitVec.ofNat 64 code

/-- flt.cvt of a value between equal formats: unchanged, NaNs canonical (09 R237). -/
def cvtSame (c bits : Nat) : FRes :=
  match fmtOf c with
  | some f =>
    match f.value bits with
    | .nan s => ⟨f.nanCode, if s then NV else 0⟩
    | _ => ⟨bits, 0⟩
  | none => if c = 0xF && bits ≥ 128 then ⟨0x7F, NV⟩ else ⟨bits, 0⟩

/-- flt.cvt from format code c to d (09 R237). -/
def convert (c d mode : Nat) (sat : Bool) (q : Nat) (v : Word) : FRes :=
  let bits := sourceBits c v
  if c = d then cvtSame c bits
  else
    let x := codeValue c bits
    let r := roundCode d mode sat q x.1
    ⟨r.code, r.flags ||| x.2⟩

/-- The s of the unit 2^-s of which x and every finite F19 value are whole multiples. -/
def unitOf : FVal → Nat
  | .fin _ _ e => max 149 (-e).toNat
  | _ => 149

/-- A finite value as a whole multiple of 2^-s, exact where its exponent is at least -s. -/
def grid (s : Nat) : FVal → Option Int
  | .fin n m e => some (scaled s n m e)
  | _ => none

/-- The finite entries of a view of a decode table, in code order: code and value in units of 2^-s (09 R230). -/
def finiteEntries (s : Nat) (v : List Nat) : List (Nat × Int) :=
  (List.range v.length).filterMap (fun c => (grid s (Fmt.f19.value (v.getD c 0))).map (fun g => (c, g)))

/-- The lowest code of a view whose value satisfies p. -/
def lowestCode (v : List Nat) (p : FVal → Bool) : Option Nat :=
  (List.range v.length).find? (fun c => p (Fmt.f19.value (v.getD c 0)))

/-- The lowest code that holds a finite value. -/
def codeHolding (fs : List (Nat × Int)) (g : Int) : Nat :=
  match fs.find? (fun p => p.2 == g) with
  | some p => p.1
  | none => 0

/-- The larger or the smaller of a list of values, starting from d. -/
def extreme (big : Bool) (d : Int) (l : List Int) : Int := l.foldl (fun a b => if big then max a b else min a b) d

/-- Encode of a number within a non-empty view, in units of 2^-s (09 R233). -/
def encodeNumber (s : Nat) (v : List Nat) (fs : List (Nat × Int)) (f0 : Int) (mode : Nat) (sat : Bool) (q : Nat) (x : FVal) : FRes :=
  let value := (grid s x).getD 0
  let vals := fs.map (·.2)
  let hi := extreme true f0 vals
  let lo := extreme false f0 vals
  let above := match x with | .inf n => !n | _ => decide (value > hi)
  let under := match x with | .inf n => n | _ => decide (value < lo)
  if above || under then
    let e := if above then hi else lo
    let away := if above then !x.isNeg && !x.isZero else x.isNeg && !x.isZero
    let finite := (grid s x).isSome
    if away then
      match (if sat then none else lowestCode v (fun y => y == .inf x.isNeg)) with
      | some c => ⟨c, if finite then OF ||| NX else 0⟩
      | none => ⟨codeHolding fs e, if finite then OF ||| NX else NX⟩
    else ⟨codeHolding fs e, NX⟩
  else
    let g := value
    let a := extreme true lo (vals.filter (fun y => y ≤ g))
    let b := extreme false hi (vals.filter (fun y => y ≥ g))
    if a = b then ⟨codeHolding fs a, 0⟩
    else
      let n := if a.natAbs ≤ b.natAbs then a else b
      let o := if a.natAbs ≤ b.natAbs then b else a
      let r :=
        if mode = 0 then
          if g - a < b - g then a
          else if b - g < g - a then b
          else if codeHolding fs a < codeHolding fs b then a else b
        else if mode = 1 then n
        else if mode = 2 then a
        else if mode = 3 then b
        else if q < (g - n).natAbs * 2 ^ 32 / (o - n).natAbs then o else n
      ⟨codeHolding fs r, NX⟩

/-- Encode(t, x, m) of 09 R233 on the entries of a view, compared exactly in the finer of the two units; q is the draw. -/
def encodeTable (v : List Nat) (mode : Nat) (sat : Bool) (q : Nat) (x : FVal) : FRes :=
  let s := unitOf x
  let fs := finiteEntries s v
  let nanCode := lowestCode v FVal.isNaN
  let number (m : Nat) (y : FVal) : FRes :=
    match fs with
    | [] => ⟨nanCode.getD 0, NV⟩
    | p :: _ => encodeNumber s v fs p.2 m sat q y
  match x with
  | .nan s =>
    match nanCode with
    | some c => ⟨c, if s then NV else 0⟩
    | none =>
      let r := number 0 (.fin false 0 0)
      ⟨r.code, r.flags ||| NV⟩
  | y => number mode y

end Sys2Proof.Machine
end

