-- ==== Sys2Proof/Syntax.lean ====
section
/-! DEFINITION. The instructions and events of the machine: one constructor of Instr for each row of spec/opcode_table.json. -/

namespace Sys2Proof

/-- One 31-bit move of a pair word (02 R28). -/
structure Move where
  guard : BitVec 4
  dst : BitVec 14
  imm : Bool
  src : BitVec 12
  deriving DecidableEq, Repr

/-- The guard and source of a lone move: a pair word whose move A is this move and whose move B is all zero (03 R64). -/
structure Lone where
  guard : BitVec 4
  imm : Bool
  src : BitVec 12
  deriving DecidableEq, Repr

/-- A controller with a retry list (07 R157) or a target of reservations (13 R328). -/
inductive Ctrl where
  | core (core : Nat)
  | stack (stack : Nat)
  | ring (core ring : Nat)
  | intake (core : Nat)
  deriving DecidableEq, Repr

/-- The reply that a held access, message or request receives (07 R157, 13 R322, R323). lost answers a read that met uncorrectable
data: bit h of halves says that the 8-byte half h is lost. -/
inductive Reply where
  | value (v : BitVec 128) (flags : BitVec 5)
  | lost (v : BitVec 128) (halves : Nat)
  | fault (code : Nat)
  | nack (ticket : Nat)
  | page
  | wake
  deriving DecidableEq, Repr

/-- What an access does at its location (07 R178, R181); amo k is operation k of the amo list. -/
inductive AccessOp where
  | load
  | store
  | amo (k : Nat)
  deriving DecidableEq, Repr

/-- One single-copy-atomic access (07 R165): location, bytes, full/empty mode, store data or amo operand, compare value. -/
structure Access where
  op : AccessOp
  addr : Nat
  n : Nat
  fe : Nat
  data : BitVec 128
  cmp : Word
  deriving DecidableEq, Repr

/-- A remote access as its target receives it (13 R321, R322, R335). space is 3 panorama or 5 domain; for 5, member is the peer partition that
the source's list names and acc.addr holds the device above bit 41. Space 0 asks to attach to a member (acc.fe 1 where the source holds it already), 2 asks for its state, and 1 asks for
the source's waiting access back, from device member. Space 6 arms the panorama's detector instance at member 0's device, and 7 brings the instance's numbers to a
member's device: acc.data holds the generation and the last declared one, and acc.fe is 1 once one has been declared (06 R145 to R147). -/
structure RemoteReq where
  srcDev : Nat
  srcCore : Nat
  srcSlot : Nat
  srcPart : Nat
  panid : Nat
  srcMember : Nat
  space : Nat
  member : Nat
  core : Nat
  acc : Access
  ticket : Option Nat
  post : Option (Nat × Nat)
  deriving DecidableEq, Repr

/-- A message or remote spawn on its way (13 R326, R330). ring none is a spawn; panid is the panorama or, for pan false, the peer partition
that the source's list names; core is the package core at the target, and object the cell whose credit it uses (13 R328). -/
structure Msg where
  srcDev : Nat
  srcCore : Nat
  srcSeq : Nat
  srcPart : Nat
  srcGsi : Word
  panid : Nat
  pan : Bool
  dest : Nat
  core : Nat
  ring : Option Nat
  object : Nat × Nat × Nat
  payload : Block
  deriving DecidableEq, Repr

/-- A RESERVE, its answer, or a credit going back (13 R328): the unit, the message it is for, and the object; ring none is the spawn
intake. To a unit, credits with no ticket are granted or come back, and a ticket with no credits is a NACK; to a target, credits with a
ticket are released. object names the cell whose ring or intake it is, by launch, gang and rank there, so that a credit finds the cell where it has been moved
(13 R332). -/
structure ReserveReq where
  srcDev : Nat
  srcCore : Nat
  srcSeq : Nat
  srcPart : Nat
  panid : Nat
  pan : Bool
  dest : Nat
  dstDev : Nat
  core : Nat
  ring : Option Nat
  object : Nat × Nat × Nat
  credits : Nat
  ticket : Option Nat
  deriving DecidableEq, Repr

/-- One flit of 80 bytes: the fields of its header, and its payload (13 R312). -/
structure Flit where
  dest : BitVec 9
  src : BitVec 9
  age : BitVec 8
  cls : BitVec 3
  opc : BitVec 8
  tag : BitVec 12
  dcore : BitVec 10
  score : BitVec 10
  len : BitVec 7
  part : BitVec 4
  addr : BitVec 48
  payload : Block
  deriving DecidableEq, Repr

/-- A command of another position's collective engine that waits for its match (13 R340). -/
structure ColAsk where
  device : Nat
  seq : Nat
  part : Nat
  tag : Nat
  dim : Nat
  op : Nat
  fmt : Nat
  root : Nat
  count : Nat
  bucket : Nat
  deriving DecidableEq, Repr

/-- What another position of a ring contributes to a bucket: its position and its SRC element codes; lost lists uncorrectable elements (13 R341, R344). -/
structure Peer where
  pos : Nat
  elems : List Nat
  lost : List Nat
  deriving DecidableEq, Repr

/-- What the coordinator of a panorama asks a member's device in the prepare phase (16 R415): the panorama's key there, the number of the attempt, the coordinator's
device and partition, DOMCH and DOMEXP, and for each member its device, its LDESC and its partition. -/
structure PanAsk where
  key : Nat
  attempt : Nat
  srcDev : Nat
  srcPart : Nat
  domch : Nat
  domexp : Nat
  members : List (Nat × Nat × Nat)
  deriving DecidableEq, Repr

/-- Where a member's gang is placed: member, cluster, and origin + 128 × width + 2048 × height. -/
abbrev PanPlace := Nat × Nat × Nat

/-- The messages of the prepare phase (16 R415): a question, or a device's answer with its members' places and the domain channels in use
there. -/
inductive PanPrepare where
  | ask (a : PanAsk)
  | answer (key device attempt : Nat) (ready : Bool) (places : List PanPlace) (busy : List Nat)
  deriving DecidableEq, Repr

/-- The phases of a whole-panorama pre-emption, and what the other devices report: a member has stopped or cannot, asks for the drain of the members here, and their
members are drained, saved, or restored (14 R376). A prepare begins here, or is of a round that member 0's device has begun. -/
inductive PanPhase where
  | prepare (launch : Nat) (round : Option Nat)
  | reported (launch member round : Nat) (stopped : Bool)
  | drainAsked (launch device mask : Nat)
  | commit (launch : Nat)
  | abort (launch : Nat)
  | drained (launch : Nat)
  | saved (launch : Nat)
  | restored (launch : Nat)
  deriving DecidableEq, Repr

/-- What comes on the host link beside RDMA WRITE and READ (18 R439, R440): a SEND; a request of the UD, UC or XRC transport; an atomic, a SEND with invalidate, one
with immediate data or a memory-window request; a frame that is neither RoCEv2 nor address resolution. -/
inductive FrameKind where
  | send
  | otherTransport
  | unsupported
  | foreign
  deriving DecidableEq, Repr

/-- A SEND, or what comes in its place: the queue pair it came on, its header and its packets (16 R397), its length in bytes, and the priority of its frames
(18 R440, R442). -/
structure DoorbellSend where
  qp : Nat
  header : Block
  packets : List Block
  length : Nat
  priority : Nat
  kind : FrameKind
  deriving DecidableEq, Repr

/-- What a debug SEND asks firmware to do (18 R444). A read or write names its item as sys.o does (14 R361). -/
inductive DebugReq where
  | attach
  | detach
  | claim (codes : BitVec 18)
  | setBreak (index : Nat) (entry : BitVec 256)
  | setWatch (index : Nat) (entry : BitVec 256)
  | stop (core slot : Nat)
  | resume (core slot : Nat)
  | read (core : Nat) (item : Word)
  | write (core : Nat) (item value : Word)
  | trace (cluster reg : Nat) (value : Word)
  | traceRead (cluster : Nat)
  deriving DecidableEq, Repr

/-- A request of the baseboard controller over PLDM: the types that the endpoint answers, the record of a sensor, or a record of the filmstrip's file (18 R445 to
R447). -/
inductive PldmAsk where
  | types (request : Nat)
  | sensorRecord (sensor : Nat)
  | fileRecord (index : Nat)
  deriving DecidableEq, Repr

/-- A firmware write of a cluster's trace registers (17 R434). -/
inductive TraceWrite where
  | enable (en : Bool) (kinden : BitVec 4)
  | base (b : BitVec 40)
  | size (log2w : Nat)
  | read (rd : Word)
  deriving DecidableEq, Repr

/-- What management assigns through the security monitor (18 R441, R451, 17 R437). -/
inductive Assignment where
  | queue (queue part : Nat) (block : Block)
  | queuePair (qp part : Nat) (debug : Bool)
  | region (part index base len rkey : Nat) (rd wr : Bool)
  | root (part : Nat)
  | page (part va : Nat) (rights : BitVec 3)
  | device (number : BitVec 9)
  | contactSheet (cluster base interval : Nat)
  | pfcPriority (priority : Nat)
  deriving DecidableEq, Repr

/-- Where an error was corrected: a granule of a stack, or a core's store, B plane or accumulators (15 R379). -/
inductive EccSite where
  | stack (n granule : Nat)
  | core (c : Nat)
  deriving DecidableEq, Repr

/-- What a patrol read finds (15 R380). -/
inductive EccFound where
  | sound
  | corrected
  | uncorrectable
  deriving DecidableEq, Repr

/-- The events, each with its operands: one constructor for each row of the opcode table that is no instruction word.
Each docstring is the rule of spec/ that governs the step. -/
inductive Event where
  /-- R123 -/
  | shutterSelect (core : Nat)
  /-- R106 -/
  | fetchArrival (core slot : Nat)
  /-- R108 -/
  | clusterIcacheReply (cluster part line : Nat)
  /-- R90 -/
  | divResult (core slot : Nat)
  /-- R239 -/
  | fltLongResult (core slot : Nat)
  /-- R54 -/
  | remoteAccessReply (core slot : Nat) (reply : Reply)
  /-- R157 -/
  | feRetryResend (core slot : Nat)
  /-- R157 -/
  | ticketHoldExpiry (ctrl : Ctrl)
  /-- R157 -/
  | feWithdraw (core slot : Nat)
  /-- R171 -/
  | pageWake (part va : Nat)
  /-- R173 -/
  | logMerge (core : Nat)
  /-- R132 -/
  | sleepTimeout (core slot : Nat)
  /-- R137 -/
  | poolReply (core slot : Nat)
  /-- R137 -/
  | detectorReply (core slot : Nat)
  /-- R146 -/
  | quiescenceSample (pan : Bool) (id : Nat)
  /-- R140 -/
  | messageArrival (m : Msg)
  /-- R141 -/
  | spawnIntakeArrival (m : Msg)
  /-- R141 -/
  | intakeDelivery (core : Nat)
  /-- R202 -/
  | remotePostArrival (core sem n : Nat)
  /-- R209 -/
  | domainBarrierArrival (panid chan member cell kind : Nat) (value : Word)
  /-- R390 -/
  | mntReply (core slot : Nat)
  /-- R55 -/
  | engineSlotGrant (core unit : Nat)
  /-- R241 -/
  | cpyActivate (core : Nat)
  /-- R241 -/
  | cpyPiece (core : Nat)
  /-- R259 -/
  | cpyCompletion (core seq : Nat)
  /-- R278 -/
  | mxPartAccept (core seq target : Nat)
  /-- R265 -/
  | mxPassStart (core : Nat)
  /-- R265 -/
  | mxTransferStart (core : Nat)
  /-- R285 -/
  | mxCompletion (core seq : Nat)
  /-- R290 -/
  | vxCommandStart (core : Nat)
  /-- R306 -/
  | vxChunk (core : Nat)
  /-- R306 -/
  | vxCompletion (core seq : Nat)
  /-- R322 -/
  | remoteRequest (r : RemoteReq)
  /-- R328 -/
  | reserveRequest (r : ReserveReq)
  /-- R328 -/
  | reserveResend (core seq : Nat)
  /-- R328 -/
  | creditReturn (r : ReserveReq)
  /-- R328 -/
  | creditIdleRelease (core entry : Nat)
  /-- R329 -/
  | messageAcknowledge (core seq fault : Nat)
  /-- R332 -/
  | refusedArrivalRetry (core seq : Nat)
  /-- R335 -/
  | detachRemoval (panid member holder : Nat)
  /-- R337 -/
  | memberDeparture (panid member : Nat)
  /-- R340 -/
  | colMatch (die : Nat) (ask : ColAsk)
  /-- R342 -/
  | colBucket (die seq : Nat) (peers : List Peer)
  /-- R344 -/
  | colAbort (die seq fault : Nat)
  /-- R343 -/
  | colCompletion (die seq : Nat)
  /-- R313 -/
  | routerLinkSlot (arrived : List (Nat × Flit)) (asks : List Nat)
  /-- R316 -/
  | linkReplay (port : Nat)
  /-- R316 -/
  | linkDown (port : Nat)
  /-- R316 -/
  | fabricUnreachable (device : Nat)
  /-- R352 -/
  | mailboxRecordWrite (core slot : Nat)
  /-- R354 -/
  | trapDisposal (cluster core slot : Nat)
  /-- R355 -/
  | handlerStart (core : Nat)
  /-- R369 -/
  | preemptRequest (launch gang : Nat)
  /-- R369 -/
  | saveHandlerStart (launch gang : Nat)
  /-- R371 -/
  | saveComplete (launch gang : Nat)
  /-- R372 -/
  | preemptLimitExpiry (launch gang : Nat)
  /-- R374 -/
  | restorePlacement (launch gang cluster : Nat)
  /-- R376 -/
  | panoramaPreempt (phase : PanPhase)
  /-- R377 -/
  | phaseTrackStep (stack group : Nat) (up : Bool)
  /-- R378 -/
  | groupRetrain (stack group : Nat)
  /-- R379 -/
  | eccWriteback (site : EccSite)
  /-- R380 -/
  | patrolRead (stack granule : Nat) (found : EccFound)
  /-- R381 -/
  | rowRepair (stack chan bank row : Nat)
  /-- R381 -/
  | bankMigration (stack chan bank : Nat)
  /-- R381 -/
  | laneSteer (stack group : Nat)
  /-- R382 -/
  | repairAttemptTimeout (stack : Nat)
  /-- R386 -/
  | pageRetirement (stack frame : Nat)
  /-- R397 -/
  | doorbell (d : DoorbellSend)
  /-- R399 -/
  | packetFetch (queue : Nat)
  /-- R400 -/
  | nop (queue : Nat) (packet : Block)
  /-- R405 -/
  | launch (queue : Nat) (packet : Block)
  /-- R414 -/
  | panlaunch (queue : Nat) (packet : Block)
  /-- R403 -/
  | wait (queue : Nat) (packet : Block)
  /-- R403 -/
  | signalPoll (queue : Nat)
  /-- R403 -/
  | signal (queue : Nat) (packet : Block)
  /-- R400 -/
  | barrier (queue : Nat) (packet : Block)
  /-- R404 -/
  | copy (queue : Nat) (packet : Block)
  /-- R400 -/
  | event (queue : Nat) (packet : Block)
  /-- R418 -/
  | configQset (queue : Nat) (packet : Block)
  /-- R418 -/
  | configQread (queue : Nat) (packet : Block)
  /-- R418 -/
  | configQresume (queue : Nat) (packet : Block)
  /-- R174 -/
  | configLog (queue : Nat) (packet : Block)
  /-- R418 -/
  | configBind (queue : Nat) (packet : Block)
  /-- R418 -/
  | configEvch (queue : Nat) (packet : Block)
  /-- R418 -/
  | configLimits (queue : Nat) (packet : Block)
  /-- R418 -/
  | configTrace (queue : Nat) (packet : Block)
  /-- R417 -/
  | tableMap (queue : Nat) (packet : Block)
  /-- R417 -/
  | tableUnmap (queue : Nat) (packet : Block)
  /-- R417 -/
  | tableProtect (queue : Nat) (packet : Block)
  /-- R417 -/
  | tableReserve (queue : Nat) (packet : Block)
  /-- R416 -/
  | discard (queue : Nat) (packet : Block)
  /-- R400 -/
  | mark (queue : Nat) (packet : Block)
  /-- R411 -/
  | dispatchDecision
  /-- R21 -/
  | gangLoad (launch gang : Nat)
  /-- R409 -/
  | launchCompletion (launch : Nat)
  /-- R410 -/
  | launchEnd (launch detail : Nat) (info0 info1 : Word)
  /-- R415 -/
  | panAdmissionPrepare (p : PanPrepare)
  /-- R415 -/
  | panAdmissionCommit (key attempt : Nat) (commit : Bool) (panid : Nat) (channels : List Nat) (places : List PanPlace)
  /-- R421 -/
  | eventCoalesceTimeout (part chan : Nat)
  /-- R421 -/
  | eventRingSpace (part chan : Nat)
  /-- R440 -/
  | eventRetransmit (part chan : Nat)
  /-- R422 -/
  | liveUpdateTakeover
  /-- R441 -/
  | rdmaWrite (qp rkey va : Nat) (data : List Byte)
  /-- R441 -/
  | rdmaRead (qp rkey va len : Nat)
  /-- R439 -/
  | arpRequest (frame : List Byte)
  /-- R439 -/
  | neighborDiscovery (frame : List Byte)
  /-- R439 -/
  | lldpSend
  /-- R444 -/
  | debugRequest (qp : Nat) (r : DebugReq)
  /-- R443 -/
  | frontEndGate
  /-- R443 -/
  | frontEndWake
  /-- R446 -/
  | getSensorReading (sensor : Nat)
  /-- R445 -/
  | pldmDiscovery (ask : PldmAsk)
  /-- R447 -/
  | platformEventMessage (sensor : Nat)
  /-- R449 -/
  | applyComplete (component bank version hash : Nat) (rsaOk slhOk : Bool)
  /-- R448 -/
  | firmwareActivation (component : Nat)
  /-- R449 -/
  | securityMinimumRaise (component version : Nat)
  /-- R434 -/
  | traceControlWrite (cluster : Nat) (w : TraceWrite)
  /-- R450 -/
  | getVersion
  /-- R450 -/
  | getCapabilities
  /-- R450 -/
  | negotiateAlgorithms
  /-- R450 -/
  | getDigests
  /-- R450 -/
  | getCertificate (slot offset length : Nat)
  /-- R450 -/
  | challenge (slot : Nat) (nonce : Block)
  /-- R450 -/
  | getMeasurements (index : Nat) (nonce : Block)
  /-- R452 -/
  | powerCapWindow (watts : Nat)
  /-- R452 -/
  | powerCapSet (watts : Nat)
  /-- R452 -/
  | dieThermalTrip (die celsius : Nat)
  /-- R452 -/
  | stackThermalTrip (stack celsius : Nat)
  /-- R453 -/
  | coreClockGate (core : Nat)
  /-- R453 -/
  | coreWake (core : Nat)
  /-- R452 -/
  | clusterPowerGate (cluster : Nat)
  /-- R452 -/
  | clusterWake (cluster : Nat)
  /-- R454 -/
  | cellReset (core : Nat)
  /-- R454 -/
  | engineReset (core unit : Nat)
  /-- R454 -/
  | gangReset (launch gang : Nat)
  /-- R454 -/
  | clusterReset (cluster : Nat)
  /-- R454 -/
  | dieWarmReset (die : Nat)
  /-- R454 -/
  | packageWarmReset
  /-- R455 -/
  | coldReset
  /-- R456 -/
  | fullService
  /-- R437 -/
  | contactSheetFrame (cluster : Nat)
  /-- R438 -/
  | filmstripRecord (source code unit : Nat) (data : Word)
  /-- R382 -/
  | repairAttemptComplete (stack : Nat)
  /-- R399 -/
  | packetComplete (queue index : Nat)
  /-- R452 -/
  | dieTemperatureCap (die celsius : Nat)
  /-- R446 -/
  | hostLinkChange (state : Nat)
  /-- R456 -/
  | degradedService
  /-- R441 -/
  | partitionAssignment (a : Assignment)
  /-- R175 -/
  | pageMadeNonResident (part va : Nat)
  deriving DecidableEq, Repr

/-- One constructor for each row of the opcode table: the word forms, the operations as lone words, and the events, whose
operands stand in State.event (notes/assumptions/7.md). Each docstring is the rule of spec/ that governs the step. -/
inductive Instr where
  /-- R50 -/
  | movePair (a b : Move)
  /-- R27 -/
  | moveLong (guard : BitVec 4) (dst : BitVec 14) (imm : BitVec 44)
  /-- R29 -/
  | moveLiteralPair (guard : BitVec 4) (dst : BitVec 14) (literal : Word)
  /-- R46 -/
  | segklWrite (k : BitVec 3) (m : Lone)
  /-- R46 -/
  | segkhWrite (k : BitVec 3) (m : Lone)
  /-- R224 -/
  | fmodeWrite (m : Lone)
  /-- R45 -/
  | specialRegisterWrite (n : BitVec 6) (m : Lone)
  /-- R85 alu.add -/
  | aluAdd (m : Lone)
  /-- R85 alu.sub -/
  | aluSub (m : Lone)
  /-- R85 alu.rsub -/
  | aluRsub (m : Lone)
  /-- R85 alu.and -/
  | aluAnd (m : Lone)
  /-- R85 alu.or -/
  | aluOr (m : Lone)
  /-- R85 alu.xor -/
  | aluXor (m : Lone)
  /-- R85 alu.andn -/
  | aluAndn (m : Lone)
  /-- R85 alu.min -/
  | aluMin (m : Lone)
  /-- R85 alu.max -/
  | aluMax (m : Lone)
  /-- R85 alu.minz -/
  | aluMinz (m : Lone)
  /-- R85 alu.maxz -/
  | aluMaxz (m : Lone)
  /-- R85 alu.addw -/
  | aluAddw (m : Lone)
  /-- R85 alu.subw -/
  | aluSubw (m : Lone)
  /-- R85 alu.adds -/
  | aluAdds (m : Lone)
  /-- R85 alu.addz -/
  | aluAddz (m : Lone)
  /-- R87 sh.sll -/
  | shSll (m : Lone)
  /-- R87 sh.srl -/
  | shSrl (m : Lone)
  /-- R87 sh.sra -/
  | shSra (m : Lone)
  /-- R87 sh.rotl -/
  | shRotl (m : Lone)
  /-- R87 sh.rotr -/
  | shRotr (m : Lone)
  /-- R87 sh.ext -/
  | shExt (m : Lone)
  /-- R87 sh.extz -/
  | shExtz (m : Lone)
  /-- R87 sh.ins -/
  | shIns (m : Lone)
  /-- R87 sh.clz -/
  | shClz (m : Lone)
  /-- R87 sh.ctz -/
  | shCtz (m : Lone)
  /-- R87 sh.popc -/
  | shPopc (m : Lone)
  /-- R87 sh.brev -/
  | shBrev (m : Lone)
  /-- R87 sh.bswap -/
  | shBswap (m : Lone)
  /-- R87 sh.sllw -/
  | shSllw (m : Lone)
  /-- R87 sh.srlw -/
  | shSrlw (m : Lone)
  /-- R87 sh.sraw -/
  | shSraw (m : Lone)
  /-- R88 mul.lo -/
  | mulLo (m : Lone)
  /-- R88 mul.hi -/
  | mulHi (m : Lone)
  /-- R88 mul.hiz -/
  | mulHiz (m : Lone)
  /-- R88 mul.hisz -/
  | mulHisz (m : Lone)
  /-- R88 mul.w -/
  | mulW (m : Lone)
  /-- R89 div.div -/
  | divDiv (m : Lone)
  /-- R89 div.divz -/
  | divDivz (m : Lone)
  /-- R89 div.rem -/
  | divRem (m : Lone)
  /-- R89 div.remz -/
  | divRemz (m : Lone)
  /-- R89 div.divw -/
  | divDivw (m : Lone)
  /-- R89 div.remw -/
  | divRemw (m : Lone)
  /-- R91 cmp.eq -/
  | cmpEq (m : Lone)
  /-- R91 cmp.ne -/
  | cmpNe (m : Lone)
  /-- R91 cmp.lt -/
  | cmpLt (m : Lone)
  /-- R91 cmp.ltz -/
  | cmpLtz (m : Lone)
  /-- R91 cmp.le -/
  | cmpLe (m : Lone)
  /-- R91 cmp.lez -/
  | cmpLez (m : Lone)
  /-- R91 cmp.bset -/
  | cmpBset (m : Lone)
  /-- R91 cmp.bclr -/
  | cmpBclr (m : Lone)
  /-- R93 adr.mk -/
  | adrMk (m : Lone)
  /-- R93 adr.seg -/
  | adrSeg (m : Lone)
  /-- R93 adr.off -/
  | adrOff (m : Lone)
  /-- R94 adr.inseg -/
  | adrInseg (m : Lone)
  /-- R96 adr.tocw -/
  | adrTocw (m : Lone)
  /-- R96 adr.topan -/
  | adrTopan (m : Lone)
  /-- R95 adr.space -/
  | adrSpace (m : Lone)
  /-- R99 br.jmp -/
  | brJmp (m : Lone)
  /-- R99 br.jmprel -/
  | brJmprel (m : Lone)
  /-- R99 br.call -/
  | brCall (m : Lone)
  /-- R99 br.callrel -/
  | brCallrel (m : Lone)
  /-- R99 br.loop -/
  | brLoop (m : Lone)
  /-- R178 lsu.ld8 -/
  | lsuLd8 (m : Lone)
  /-- R178 lsu.ld8z -/
  | lsuLd8z (m : Lone)
  /-- R178 lsu.ld16 -/
  | lsuLd16 (m : Lone)
  /-- R178 lsu.ld16z -/
  | lsuLd16z (m : Lone)
  /-- R178 lsu.ld32 -/
  | lsuLd32 (m : Lone)
  /-- R178 lsu.ld32z -/
  | lsuLd32z (m : Lone)
  /-- R178 lsu.ld64 -/
  | lsuLd64 (m : Lone)
  /-- R178 lsu.ld128 -/
  | lsuLd128 (m : Lone)
  /-- R178 lsu.st8 -/
  | lsuSt8 (m : Lone)
  /-- R178 lsu.st16 -/
  | lsuSt16 (m : Lone)
  /-- R178 lsu.st32 -/
  | lsuSt32 (m : Lone)
  /-- R178 lsu.st64 -/
  | lsuSt64 (m : Lone)
  /-- R178 lsu.st128 -/
  | lsuSt128 (m : Lone)
  /-- R181 amo.add -/
  | amoAdd (m : Lone)
  /-- R181 amo.and -/
  | amoAnd (m : Lone)
  /-- R181 amo.or -/
  | amoOr (m : Lone)
  /-- R181 amo.xor -/
  | amoXor (m : Lone)
  /-- R181 amo.min -/
  | amoMin (m : Lone)
  /-- R181 amo.max -/
  | amoMax (m : Lone)
  /-- R181 amo.minz -/
  | amoMinz (m : Lone)
  /-- R181 amo.maxz -/
  | amoMaxz (m : Lone)
  /-- R181 amo.swap -/
  | amoSwap (m : Lone)
  /-- R181 amo.cas -/
  | amoCas (m : Lone)
  /-- R181 amo.fadd -/
  | amoFadd (m : Lone)
  /-- R235 flt.add -/
  | fltAdd (m : Lone)
  /-- R235 flt.sub -/
  | fltSub (m : Lone)
  /-- R235 flt.mul -/
  | fltMul (m : Lone)
  /-- R235 flt.div -/
  | fltDiv (m : Lone)
  /-- R235 flt.sqrt -/
  | fltSqrt (m : Lone)
  /-- R235 flt.fma -/
  | fltFma (m : Lone)
  /-- R235 flt.min -/
  | fltMin (m : Lone)
  /-- R235 flt.max -/
  | fltMax (m : Lone)
  /-- R235 flt.eq -/
  | fltEq (m : Lone)
  /-- R235 flt.lt -/
  | fltLt (m : Lone)
  /-- R235 flt.le -/
  | fltLe (m : Lone)
  /-- R235 flt.class -/
  | fltClass (m : Lone)
  /-- R237 flt.cvt -/
  | fltCvt (m : Lone)
  /-- R238 flt.tdec -/
  | fltTdec (m : Lone)
  /-- R238 flt.tenc -/
  | fltTenc (m : Lone)
  /-- R127 strand.spawn -/
  | strandSpawn (m : Lone)
  /-- R130 strand.join -/
  | strandJoin (m : Lone)
  /-- R129 strand.exit -/
  | strandExit (m : Lone)
  /-- R131 strand.yield -/
  | strandYield (m : Lone)
  /-- R132 strand.sleep -/
  | strandSleep (m : Lone)
  /-- R133 strand.wake -/
  | strandWake (m : Lone)
  /-- R134 strand.prio -/
  | strandPrio (m : Lone)
  /-- R135 strand.kill -/
  | strandKill (m : Lone)
  /-- R139 msg.wait -/
  | msgWait (m : Lone)
  /-- R139 msg.take -/
  | msgTake (m : Lone)
  /-- R143 pool.put -/
  | poolPut (m : Lone)
  /-- R143 pool.take -/
  | poolTake (m : Lone)
  /-- R143 pool.close -/
  | poolClose (m : Lone)
  /-- R146 q.arm -/
  | qArm (m : Lone)
  /-- R147 q.wait -/
  | qWait (m : Lone)
  /-- R199 sem.post -/
  | semPost (m : Lone)
  /-- R198 sem.add -/
  | semAdd (m : Lone)
  /-- R200 sem.wait -/
  | semWait (m : Lone)
  /-- R200 sem.try -/
  | semTry (m : Lone)
  /-- R201 sem.arm -/
  | semArm (m : Lone)
  /-- R198 sem.read -/
  | semRead (m : Lone)
  /-- R201 sem.reset -/
  | semReset (m : Lone)
  /-- R205 bar.arrive -/
  | barArrive (m : Lone)
  /-- R206 bar.wait -/
  | barWait (m : Lone)
  /-- R206 bar.sync -/
  | barSync (m : Lone)
  /-- R206 bar.max -/
  | barMax (m : Lone)
  /-- R207 bar.maxf -/
  | barMaxf (m : Lone)
  /-- R206 bar.sum -/
  | barSum (m : Lone)
  /-- R206 bar.and -/
  | barAnd (m : Lone)
  /-- R206 bar.or -/
  | barOr (m : Lone)
  /-- R193 ord.fence -/
  | ordFence (m : Lone)
  /-- R194 ord.acq -/
  | ordAcq (m : Lone)
  /-- R194 ord.rel -/
  | ordRel (m : Lone)
  /-- R110 ord.icsync -/
  | ordIcsync (m : Lone)
  /-- R195 ord.cinv -/
  | ordCinv (m : Lone)
  /-- R195 ord.cwb -/
  | ordCwb (m : Lone)
  /-- R359 sys.trap -/
  | sysTrap (m : Lone)
  /-- R360 sys.stop -/
  | sysStop (m : Lone)
  /-- R361 sys.rd -/
  | sysRd (m : Lone)
  /-- R361 sys.wr -/
  | sysWr (m : Lone)
  /-- R365 sys.go -/
  | sysGo (m : Lone)
  /-- R366 sys.drain -/
  | sysDrain (m : Lone)
  /-- R430 dbg.brk -/
  | dbgBrk (m : Lone)
  /-- R431 dbg.mark -/
  | dbgMark (m : Lone)
  /-- R432 dbg.step -/
  | dbgStep (m : Lone)
  /-- R390 mnt.spare -/
  | mntSpare (m : Lone)
  /-- R390 mnt.notice -/
  | mntNotice (m : Lone)
  /-- R391 mnt.state -/
  | mntState (m : Lone)
  /-- R392 mnt.discard -/
  | mntDiscard (m : Lone)
  /-- R252 cpy.copy -/
  | cpyCopy (m : Lone)
  /-- R253 cpy.fill -/
  | cpyFill (m : Lone)
  /-- R254 cpy.gather -/
  | cpyGather (m : Lone)
  /-- R254 cpy.scatter -/
  | cpyScatter (m : Lone)
  /-- R252 cpy.plane -/
  | cpyPlane (m : Lone)
  /-- R255 cpy.mcast -/
  | cpyMcast (m : Lone)
  /-- R256 cpy.mapinval -/
  | cpyMapinval (m : Lone)
  /-- R277 mx.mma -/
  | mxMma (m : Lone)
  /-- R278 mx.gmma -/
  | mxGmma (m : Lone)
  /-- R280 mx.zero -/
  | mxZero (m : Lone)
  /-- R280 mx.load -/
  | mxLoad (m : Lone)
  /-- R280 mx.store -/
  | mxStore (m : Lone)
  /-- R298 vx.add -/
  | vxAdd (m : Lone)
  /-- R298 vx.sub -/
  | vxSub (m : Lone)
  /-- R298 vx.mul -/
  | vxMul (m : Lone)
  /-- R298 vx.fma -/
  | vxFma (m : Lone)
  /-- R298 vx.min -/
  | vxMin (m : Lone)
  /-- R298 vx.max -/
  | vxMax (m : Lone)
  /-- R298 vx.abs -/
  | vxAbs (m : Lone)
  /-- R298 vx.scale -/
  | vxScale (m : Lone)
  /-- R299 vx.exp2 -/
  | vxExp2 (m : Lone)
  /-- R299 vx.log2 -/
  | vxLog2 (m : Lone)
  /-- R299 vx.rcp -/
  | vxRcp (m : Lone)
  /-- R299 vx.rsqrt -/
  | vxRsqrt (m : Lone)
  /-- R300 vx.cmp -/
  | vxCmp (m : Lone)
  /-- R300 vx.sel -/
  | vxSel (m : Lone)
  /-- R301 vx.rowsum -/
  | vxRowsum (m : Lone)
  /-- R301 vx.rowmax -/
  | vxRowmax (m : Lone)
  /-- R301 vx.colsum -/
  | vxColsum (m : Lone)
  /-- R302 vx.blkmax -/
  | vxBlkmax (m : Lone)
  /-- R303 vx.quant -/
  | vxQuant (m : Lone)
  /-- R303 vx.dequant -/
  | vxDequant (m : Lone)
  /-- R303 vx.cvt -/
  | vxCvt (m : Lone)
  /-- R303 vx.tblset -/
  | vxTblset (m : Lone)
  /-- R303 vx.tblenc -/
  | vxTblenc (m : Lone)
  /-- R303 vx.tbldec -/
  | vxTbldec (m : Lone)
  /-- R322 fab.ld -/
  | fabLd (m : Lone)
  /-- R322 fab.st -/
  | fabSt (m : Lone)
  /-- R322 fab.amo -/
  | fabAmo (m : Lone)
  /-- R326 fab.send -/
  | fabSend (m : Lone)
  /-- R326 fab.spawn -/
  | fabSpawn (m : Lone)
  /-- R335 pan.attach -/
  | panAttach (m : Lone)
  /-- R335 pan.detach -/
  | panDetach (m : Lone)
  /-- R335 pan.exit -/
  | panExit (m : Lone)
  /-- R336 pan.state -/
  | panState (m : Lone)
  /-- R341 col.rscat -/
  | colRscat (m : Lone)
  /-- R341 col.agath -/
  | colAgath (m : Lone)
  /-- R341 col.aredc -/
  | colAredc (m : Lone)
  /-- R341 col.bcast -/
  | colBcast (m : Lone)
  /-- R345 col.weights -/
  | colWeights (m : Lone)
  /-- R123 -/
  | shutterSelect
  /-- R106 -/
  | fetchArrival
  /-- R108 -/
  | clusterIcacheReply
  /-- R90 -/
  | divResult
  /-- R239 -/
  | fltLongResult
  /-- R54 -/
  | remoteAccessReply
  /-- R157 -/
  | feRetryResend
  /-- R157 -/
  | ticketHoldExpiry
  /-- R157 -/
  | feWithdraw
  /-- R171 -/
  | pageWake
  /-- R173 -/
  | logMerge
  /-- R132 -/
  | sleepTimeout
  /-- R137 -/
  | poolReply
  /-- R137 -/
  | detectorReply
  /-- R146 -/
  | quiescenceSample
  /-- R140 -/
  | messageArrival
  /-- R141 -/
  | spawnIntakeArrival
  /-- R141 -/
  | intakeDelivery
  /-- R202 -/
  | remotePostArrival
  /-- R209 -/
  | domainBarrierArrival
  /-- R390 -/
  | mntReply
  /-- R55 -/
  | engineSlotGrant
  /-- R241 -/
  | cpyActivate
  /-- R241 -/
  | cpyPiece
  /-- R259 -/
  | cpyCompletion
  /-- R278 -/
  | mxPartAccept
  /-- R265 -/
  | mxPassStart
  /-- R265 -/
  | mxTransferStart
  /-- R285 -/
  | mxCompletion
  /-- R290 -/
  | vxCommandStart
  /-- R306 -/
  | vxChunk
  /-- R306 -/
  | vxCompletion
  /-- R322 -/
  | remoteRequest
  /-- R328 -/
  | reserveRequest
  /-- R328 -/
  | reserveResend
  /-- R328 -/
  | creditReturn
  /-- R328 -/
  | creditIdleRelease
  /-- R329 -/
  | messageAcknowledge
  /-- R332 -/
  | refusedArrivalRetry
  /-- R335 -/
  | detachRemoval
  /-- R337 -/
  | memberDeparture
  /-- R340 -/
  | colMatch
  /-- R342 -/
  | colBucket
  /-- R344 -/
  | colAbort
  /-- R343 -/
  | colCompletion
  /-- R313 -/
  | routerLinkSlot
  /-- R316 -/
  | linkReplay
  /-- R316 -/
  | linkDown
  /-- R316 -/
  | fabricUnreachable
  /-- R352 -/
  | mailboxRecordWrite
  /-- R354 -/
  | trapDisposal
  /-- R355 -/
  | handlerStart
  /-- R369 -/
  | preemptRequest
  /-- R369 -/
  | saveHandlerStart
  /-- R371 -/
  | saveComplete
  /-- R372 -/
  | preemptLimitExpiry
  /-- R374 -/
  | restorePlacement
  /-- R376 -/
  | panoramaPreempt
  /-- R377 -/
  | phaseTrackStep
  /-- R378 -/
  | groupRetrain
  /-- R379 -/
  | eccWriteback
  /-- R380 -/
  | patrolRead
  /-- R381 -/
  | rowRepair
  /-- R381 -/
  | bankMigration
  /-- R381 -/
  | laneSteer
  /-- R382 -/
  | repairAttemptTimeout
  /-- R386 -/
  | pageRetirement
  /-- R397 -/
  | doorbell
  /-- R399 -/
  | packetFetch
  /-- R400 -/
  | nop
  /-- R405 -/
  | launch
  /-- R414 -/
  | panlaunch
  /-- R403 -/
  | wait
  /-- R403 -/
  | signalPoll
  /-- R403 -/
  | signal
  /-- R400 -/
  | barrier
  /-- R404 -/
  | copy
  /-- R400 -/
  | event
  /-- R418 -/
  | configQset
  /-- R418 -/
  | configQread
  /-- R418 -/
  | configQresume
  /-- R174 -/
  | configLog
  /-- R418 -/
  | configBind
  /-- R418 -/
  | configEvch
  /-- R418 -/
  | configLimits
  /-- R418 -/
  | configTrace
  /-- R417 -/
  | tableMap
  /-- R417 -/
  | tableUnmap
  /-- R417 -/
  | tableProtect
  /-- R417 -/
  | tableReserve
  /-- R416 -/
  | discard
  /-- R400 -/
  | mark
  /-- R411 -/
  | dispatchDecision
  /-- R21 -/
  | gangLoad
  /-- R409 -/
  | launchCompletion
  /-- R410 -/
  | launchEnd
  /-- R415 -/
  | panAdmissionPrepare
  /-- R415 -/
  | panAdmissionCommit
  /-- R421 -/
  | eventCoalesceTimeout
  /-- R421 -/
  | eventRingSpace
  /-- R440 -/
  | eventRetransmit
  /-- R422 -/
  | liveUpdateTakeover
  /-- R441 -/
  | rdmaWrite
  /-- R441 -/
  | rdmaRead
  /-- R439 -/
  | arpRequest
  /-- R439 -/
  | neighborDiscovery
  /-- R439 -/
  | lldpSend
  /-- R444 -/
  | debugRequest
  /-- R443 -/
  | frontEndGate
  /-- R443 -/
  | frontEndWake
  /-- R446 -/
  | getSensorReading
  /-- R445 -/
  | pldmDiscovery
  /-- R447 -/
  | platformEventMessage
  /-- R449 -/
  | applyComplete
  /-- R448 -/
  | firmwareActivation
  /-- R449 -/
  | securityMinimumRaise
  /-- R434 -/
  | traceControlWrite
  /-- R450 -/
  | getVersion
  /-- R450 -/
  | getCapabilities
  /-- R450 -/
  | negotiateAlgorithms
  /-- R450 -/
  | getDigests
  /-- R450 -/
  | getCertificate
  /-- R450 -/
  | challenge
  /-- R450 -/
  | getMeasurements
  /-- R452 -/
  | powerCapWindow
  /-- R452 -/
  | powerCapSet
  /-- R452 -/
  | dieThermalTrip
  /-- R452 -/
  | stackThermalTrip
  /-- R453 -/
  | coreClockGate
  /-- R453 -/
  | coreWake
  /-- R452 -/
  | clusterPowerGate
  /-- R452 -/
  | clusterWake
  /-- R454 -/
  | cellReset
  /-- R454 -/
  | engineReset
  /-- R454 -/
  | gangReset
  /-- R454 -/
  | clusterReset
  /-- R454 -/
  | dieWarmReset
  /-- R454 -/
  | packageWarmReset
  /-- R455 -/
  | coldReset
  /-- R456 -/
  | fullService
  /-- R437 -/
  | contactSheetFrame
  /-- R438 -/
  | filmstripRecord
  /-- R382 -/
  | repairAttemptComplete
  /-- R399 -/
  | packetComplete
  /-- R452 -/
  | dieTemperatureCap
  /-- R446 -/
  | hostLinkChange
  /-- R456 -/
  | degradedService
  /-- R441 -/
  | partitionAssignment
  /-- R175 -/
  | pageMadeNonResident
  deriving DecidableEq, Repr

/-- The row of an event. -/
def Event.row : Event → Instr
  | .shutterSelect .. => .shutterSelect
  | .fetchArrival .. => .fetchArrival
  | .clusterIcacheReply .. => .clusterIcacheReply
  | .divResult .. => .divResult
  | .fltLongResult .. => .fltLongResult
  | .remoteAccessReply .. => .remoteAccessReply
  | .feRetryResend .. => .feRetryResend
  | .ticketHoldExpiry .. => .ticketHoldExpiry
  | .feWithdraw .. => .feWithdraw
  | .pageWake .. => .pageWake
  | .logMerge .. => .logMerge
  | .sleepTimeout .. => .sleepTimeout
  | .poolReply .. => .poolReply
  | .detectorReply .. => .detectorReply
  | .quiescenceSample .. => .quiescenceSample
  | .messageArrival .. => .messageArrival
  | .spawnIntakeArrival .. => .spawnIntakeArrival
  | .intakeDelivery .. => .intakeDelivery
  | .remotePostArrival .. => .remotePostArrival
  | .domainBarrierArrival .. => .domainBarrierArrival
  | .mntReply .. => .mntReply
  | .engineSlotGrant .. => .engineSlotGrant
  | .cpyActivate .. => .cpyActivate
  | .cpyPiece .. => .cpyPiece
  | .cpyCompletion .. => .cpyCompletion
  | .mxPartAccept .. => .mxPartAccept
  | .mxPassStart .. => .mxPassStart
  | .mxTransferStart .. => .mxTransferStart
  | .mxCompletion .. => .mxCompletion
  | .vxCommandStart .. => .vxCommandStart
  | .vxChunk .. => .vxChunk
  | .vxCompletion .. => .vxCompletion
  | .remoteRequest .. => .remoteRequest
  | .reserveRequest .. => .reserveRequest
  | .reserveResend .. => .reserveResend
  | .creditReturn .. => .creditReturn
  | .creditIdleRelease .. => .creditIdleRelease
  | .messageAcknowledge .. => .messageAcknowledge
  | .refusedArrivalRetry .. => .refusedArrivalRetry
  | .detachRemoval .. => .detachRemoval
  | .memberDeparture .. => .memberDeparture
  | .colMatch .. => .colMatch
  | .colBucket .. => .colBucket
  | .colAbort .. => .colAbort
  | .colCompletion .. => .colCompletion
  | .routerLinkSlot .. => .routerLinkSlot
  | .linkReplay .. => .linkReplay
  | .linkDown .. => .linkDown
  | .fabricUnreachable .. => .fabricUnreachable
  | .mailboxRecordWrite .. => .mailboxRecordWrite
  | .trapDisposal .. => .trapDisposal
  | .handlerStart .. => .handlerStart
  | .preemptRequest .. => .preemptRequest
  | .saveHandlerStart .. => .saveHandlerStart
  | .saveComplete .. => .saveComplete
  | .preemptLimitExpiry .. => .preemptLimitExpiry
  | .restorePlacement .. => .restorePlacement
  | .panoramaPreempt .. => .panoramaPreempt
  | .phaseTrackStep .. => .phaseTrackStep
  | .groupRetrain .. => .groupRetrain
  | .eccWriteback .. => .eccWriteback
  | .patrolRead .. => .patrolRead
  | .rowRepair .. => .rowRepair
  | .bankMigration .. => .bankMigration
  | .laneSteer .. => .laneSteer
  | .repairAttemptTimeout .. => .repairAttemptTimeout
  | .pageRetirement .. => .pageRetirement
  | .doorbell .. => .doorbell
  | .packetFetch .. => .packetFetch
  | .nop .. => .nop
  | .launch .. => .launch
  | .panlaunch .. => .panlaunch
  | .wait .. => .wait
  | .signalPoll .. => .signalPoll
  | .signal .. => .signal
  | .barrier .. => .barrier
  | .copy .. => .copy
  | .event .. => .event
  | .configQset .. => .configQset
  | .configQread .. => .configQread
  | .configQresume .. => .configQresume
  | .configLog .. => .configLog
  | .configBind .. => .configBind
  | .configEvch .. => .configEvch
  | .configLimits .. => .configLimits
  | .configTrace .. => .configTrace
  | .tableMap .. => .tableMap
  | .tableUnmap .. => .tableUnmap
  | .tableProtect .. => .tableProtect
  | .tableReserve .. => .tableReserve
  | .discard .. => .discard
  | .mark .. => .mark
  | .dispatchDecision .. => .dispatchDecision
  | .gangLoad .. => .gangLoad
  | .launchCompletion .. => .launchCompletion
  | .launchEnd .. => .launchEnd
  | .panAdmissionPrepare .. => .panAdmissionPrepare
  | .panAdmissionCommit .. => .panAdmissionCommit
  | .eventCoalesceTimeout .. => .eventCoalesceTimeout
  | .eventRingSpace .. => .eventRingSpace
  | .eventRetransmit .. => .eventRetransmit
  | .liveUpdateTakeover .. => .liveUpdateTakeover
  | .rdmaWrite .. => .rdmaWrite
  | .rdmaRead .. => .rdmaRead
  | .arpRequest .. => .arpRequest
  | .neighborDiscovery .. => .neighborDiscovery
  | .lldpSend .. => .lldpSend
  | .debugRequest .. => .debugRequest
  | .frontEndGate .. => .frontEndGate
  | .frontEndWake .. => .frontEndWake
  | .getSensorReading .. => .getSensorReading
  | .pldmDiscovery .. => .pldmDiscovery
  | .platformEventMessage .. => .platformEventMessage
  | .applyComplete .. => .applyComplete
  | .firmwareActivation .. => .firmwareActivation
  | .securityMinimumRaise .. => .securityMinimumRaise
  | .traceControlWrite .. => .traceControlWrite
  | .getVersion .. => .getVersion
  | .getCapabilities .. => .getCapabilities
  | .negotiateAlgorithms .. => .negotiateAlgorithms
  | .getDigests .. => .getDigests
  | .getCertificate .. => .getCertificate
  | .challenge .. => .challenge
  | .getMeasurements .. => .getMeasurements
  | .powerCapWindow .. => .powerCapWindow
  | .powerCapSet .. => .powerCapSet
  | .dieThermalTrip .. => .dieThermalTrip
  | .stackThermalTrip .. => .stackThermalTrip
  | .coreClockGate .. => .coreClockGate
  | .coreWake .. => .coreWake
  | .clusterPowerGate .. => .clusterPowerGate
  | .clusterWake .. => .clusterWake
  | .cellReset .. => .cellReset
  | .engineReset .. => .engineReset
  | .gangReset .. => .gangReset
  | .clusterReset .. => .clusterReset
  | .dieWarmReset .. => .dieWarmReset
  | .packageWarmReset .. => .packageWarmReset
  | .coldReset .. => .coldReset
  | .fullService .. => .fullService
  | .contactSheetFrame .. => .contactSheetFrame
  | .filmstripRecord .. => .filmstripRecord
  | .repairAttemptComplete .. => .repairAttemptComplete
  | .packetComplete .. => .packetComplete
  | .dieTemperatureCap .. => .dieTemperatureCap
  | .hostLinkChange .. => .hostLinkChange
  | .degradedService .. => .degradedService
  | .partitionAssignment .. => .partitionAssignment
  | .pageMadeNonResident .. => .pageMadeNonResident

end Sys2Proof
end

