-- ==== Sys2Proof/WellFormed.lean ====
section
/-! DEFINITION. The assigned addresses of a move (02 R35 to R49), the trigger table (02 R43), and well-formed instructions. -/

namespace Sys2Proof

/-- The move of x0 to x0 under guard "always" (02 R34). -/
def Move.nop : Move := ⟨0, 0, false, 0⟩

/-- The move that a lone move encodes as, to destination d (03 R64). -/
def Lone.to (m : Lone) (d : BitVec 14) : Move := ⟨m.guard, d, m.imm, m.src⟩

/-- The lone form of a move. -/
def Move.lone (a : Move) : Lone := ⟨a.guard, a.imm, a.src⟩

/-- The operations of trigger block b (addresses 64 b to 64 b + 63), in the order of 02 R43. -/
def triggerBlock : Nat → List (Lone → Instr)
  | 4 =>
    [.aluAdd, .aluSub, .aluRsub, .aluAnd, .aluOr, .aluXor, .aluAndn, .aluMin, .aluMax, .aluMinz, .aluMaxz,
      .aluAddw, .aluSubw, .aluAdds, .aluAddz]
  | 5 =>
    [.shSll, .shSrl, .shSra, .shRotl, .shRotr, .shExt, .shExtz, .shIns, .shClz, .shCtz, .shPopc, .shBrev,
      .shBswap, .shSllw, .shSrlw, .shSraw]
  | 6 =>
    [.mulLo, .mulHi, .mulHiz, .mulHisz, .mulW]
  | 7 =>
    [.divDiv, .divDivz, .divRem, .divRemz, .divDivw, .divRemw]
  | 8 =>
    [.cmpEq, .cmpNe, .cmpLt, .cmpLtz, .cmpLe, .cmpLez, .cmpBset, .cmpBclr]
  | 9 =>
    [.adrMk, .adrSeg, .adrOff, .adrInseg, .adrTocw, .adrTopan, .adrSpace]
  | 10 =>
    [.brJmp, .brJmprel, .brCall, .brCallrel, .brLoop]
  | 11 =>
    [.lsuLd8, .lsuLd8z, .lsuLd16, .lsuLd16z, .lsuLd32, .lsuLd32z, .lsuLd64, .lsuLd128, .lsuSt8, .lsuSt16,
      .lsuSt32, .lsuSt64, .lsuSt128]
  | 12 =>
    [.amoAdd, .amoAnd, .amoOr, .amoXor, .amoMin, .amoMax, .amoMinz, .amoMaxz, .amoSwap, .amoCas, .amoFadd]
  | 13 =>
    [.fltAdd, .fltSub, .fltMul, .fltDiv, .fltSqrt, .fltFma, .fltMin, .fltMax, .fltEq, .fltLt, .fltLe,
      .fltClass, .fltCvt, .fltTdec, .fltTenc]
  | 14 =>
    [.strandSpawn, .strandJoin, .strandExit, .strandYield, .strandSleep, .strandWake, .strandPrio,
      .strandKill]
  | 15 =>
    [.msgWait, .msgTake, .poolPut, .poolTake, .poolClose, .qArm, .qWait]
  | 16 =>
    [.semPost, .semAdd, .semWait, .semTry, .semArm, .semRead, .semReset]
  | 17 =>
    [.barArrive, .barWait, .barSync, .barMax, .barMaxf, .barSum, .barAnd, .barOr]
  | 18 =>
    [.ordFence, .ordAcq, .ordRel, .ordIcsync, .ordCinv, .ordCwb]
  | 19 =>
    [.sysTrap, .sysStop, .sysRd, .sysWr, .sysGo, .sysDrain]
  | 20 =>
    [.dbgBrk, .dbgMark, .dbgStep, .mntSpare, .mntNotice, .mntState, .mntDiscard]
  | 24 =>
    [.cpyCopy, .cpyFill, .cpyGather, .cpyScatter, .cpyPlane, .cpyMcast, .cpyMapinval]
  | 25 =>
    [.mxMma, .mxGmma, .mxZero, .mxLoad, .mxStore]
  | 26 =>
    [.vxAdd, .vxSub, .vxMul, .vxFma, .vxMin, .vxMax, .vxAbs, .vxScale, .vxExp2, .vxLog2, .vxRcp, .vxRsqrt,
      .vxCmp, .vxSel, .vxRowsum, .vxRowmax, .vxColsum, .vxBlkmax, .vxQuant, .vxDequant, .vxCvt, .vxTblset,
      .vxTblenc, .vxTbldec]
  | 27 =>
    [.fabLd, .fabSt, .fabAmo, .fabSend, .fabSpawn, .panAttach, .panDetach, .panExit, .panState]
  | 28 =>
    [.colRscat, .colAgath, .colAredc, .colBcast, .colWeights]
  | _ => []

/-- The operation at a trigger address (02 R43); none where the address is unassigned. -/
def triggerOp (d : Nat) (m : Lone) : Option Instr :=
  ((triggerBlock (d / 64))[d % 64]?).map (fun f => f m)

/-- Assigned special register numbers (02 R45). -/
def specialAssigned (n : Nat) : Bool :=
  decide (n ≤ 7) || (decide (0x10 ≤ n) && decide (n ≤ 0x13)) || (decide (0x20 ≤ n) && decide (n ≤ 0x2F))

/-- Assigned destination addresses (02 R35). -/
def dstAssigned (d : Nat) : Bool :=
  if d < 0x28 then true
  else if d < 0x40 then false
  else if d ≤ 0x60 then true
  else if d < 0x100 then false
  else if d < 0x800 then decide (d % 64 < (triggerBlock (d / 64)).length)
  else if d < 0x1000 then specialAssigned (d - 0x800)
  else false

/-- Assigned source addresses (02 R36). -/
def srcAssigned (a : Nat) : Bool :=
  if a < 0x28 then true
  else if a < 0x40 then false
  else if a ≤ 0x55 then true
  else if a < 0x80 then false
  else if a ≤ 0x84 then true
  else if a < 0x100 then false
  else if a < 0x800 then specialAssigned (a - 0x100)
  else false

/-- Both addresses of a move are assigned (02 R37); an immediate has no source address. -/
def Move.assigned (a : Move) : Bool :=
  dstAssigned a.dst.toNat && (a.imm || srcAssigned a.src.toNat)

/-- The special-register form of a lone move to destination d (02 R45, R46). -/
def specialOp (d : Nat) (m : Lone) : Option Instr :=
  if d < 0x800 then none
  else
    let n := d - 0x800
    if !specialAssigned n then none
    else if n = 0x11 then some (.fmodeWrite m)
    else if n < 0x20 then some (.specialRegisterWrite (BitVec.ofNat 6 n) m)
    else if n % 2 = 0 then some (.segklWrite (BitVec.ofNat 3 ((n - 0x20) / 2)) m)
    else some (.segkhWrite (BitVec.ofNat 3 ((n - 0x20) / 2)) m)

/-- The constructor that a pair word with move B all zero has of its own: a lone trigger or a lone special-register write. -/
def loneForm (d : Nat) (m : Lone) : Option Instr :=
  match triggerOp d m with
  | some i => some i
  | none => specialOp d m

/-- The source of a lone move is assigned. -/
def Lone.assigned (m : Lone) : Bool := m.imm || srcAssigned m.src.toNat

/-- The destination and the lone move of an operation's word or a special-register write; none for the other constructors. -/
def Instr.loneParts : Instr → Option (Nat × Lone)
  | .segklWrite k m => some (0x820 + 2 * k.toNat, m)
  | .segkhWrite k m => some (0x821 + 2 * k.toNat, m)
  | .fmodeWrite m => some (0x811, m)
  | .specialRegisterWrite n m => some (0x800 + n.toNat, m)
  | .aluAdd m => some (0x0100, m)
  | .aluSub m => some (0x0101, m)
  | .aluRsub m => some (0x0102, m)
  | .aluAnd m => some (0x0103, m)
  | .aluOr m => some (0x0104, m)
  | .aluXor m => some (0x0105, m)
  | .aluAndn m => some (0x0106, m)
  | .aluMin m => some (0x0107, m)
  | .aluMax m => some (0x0108, m)
  | .aluMinz m => some (0x0109, m)
  | .aluMaxz m => some (0x010A, m)
  | .aluAddw m => some (0x010B, m)
  | .aluSubw m => some (0x010C, m)
  | .aluAdds m => some (0x010D, m)
  | .aluAddz m => some (0x010E, m)
  | .shSll m => some (0x0140, m)
  | .shSrl m => some (0x0141, m)
  | .shSra m => some (0x0142, m)
  | .shRotl m => some (0x0143, m)
  | .shRotr m => some (0x0144, m)
  | .shExt m => some (0x0145, m)
  | .shExtz m => some (0x0146, m)
  | .shIns m => some (0x0147, m)
  | .shClz m => some (0x0148, m)
  | .shCtz m => some (0x0149, m)
  | .shPopc m => some (0x014A, m)
  | .shBrev m => some (0x014B, m)
  | .shBswap m => some (0x014C, m)
  | .shSllw m => some (0x014D, m)
  | .shSrlw m => some (0x014E, m)
  | .shSraw m => some (0x014F, m)
  | .mulLo m => some (0x0180, m)
  | .mulHi m => some (0x0181, m)
  | .mulHiz m => some (0x0182, m)
  | .mulHisz m => some (0x0183, m)
  | .mulW m => some (0x0184, m)
  | .divDiv m => some (0x01C0, m)
  | .divDivz m => some (0x01C1, m)
  | .divRem m => some (0x01C2, m)
  | .divRemz m => some (0x01C3, m)
  | .divDivw m => some (0x01C4, m)
  | .divRemw m => some (0x01C5, m)
  | .cmpEq m => some (0x0200, m)
  | .cmpNe m => some (0x0201, m)
  | .cmpLt m => some (0x0202, m)
  | .cmpLtz m => some (0x0203, m)
  | .cmpLe m => some (0x0204, m)
  | .cmpLez m => some (0x0205, m)
  | .cmpBset m => some (0x0206, m)
  | .cmpBclr m => some (0x0207, m)
  | .adrMk m => some (0x0240, m)
  | .adrSeg m => some (0x0241, m)
  | .adrOff m => some (0x0242, m)
  | .adrInseg m => some (0x0243, m)
  | .adrTocw m => some (0x0244, m)
  | .adrTopan m => some (0x0245, m)
  | .adrSpace m => some (0x0246, m)
  | .brJmp m => some (0x0280, m)
  | .brJmprel m => some (0x0281, m)
  | .brCall m => some (0x0282, m)
  | .brCallrel m => some (0x0283, m)
  | .brLoop m => some (0x0284, m)
  | .lsuLd8 m => some (0x02C0, m)
  | .lsuLd8z m => some (0x02C1, m)
  | .lsuLd16 m => some (0x02C2, m)
  | .lsuLd16z m => some (0x02C3, m)
  | .lsuLd32 m => some (0x02C4, m)
  | .lsuLd32z m => some (0x02C5, m)
  | .lsuLd64 m => some (0x02C6, m)
  | .lsuLd128 m => some (0x02C7, m)
  | .lsuSt8 m => some (0x02C8, m)
  | .lsuSt16 m => some (0x02C9, m)
  | .lsuSt32 m => some (0x02CA, m)
  | .lsuSt64 m => some (0x02CB, m)
  | .lsuSt128 m => some (0x02CC, m)
  | .amoAdd m => some (0x0300, m)
  | .amoAnd m => some (0x0301, m)
  | .amoOr m => some (0x0302, m)
  | .amoXor m => some (0x0303, m)
  | .amoMin m => some (0x0304, m)
  | .amoMax m => some (0x0305, m)
  | .amoMinz m => some (0x0306, m)
  | .amoMaxz m => some (0x0307, m)
  | .amoSwap m => some (0x0308, m)
  | .amoCas m => some (0x0309, m)
  | .amoFadd m => some (0x030A, m)
  | .fltAdd m => some (0x0340, m)
  | .fltSub m => some (0x0341, m)
  | .fltMul m => some (0x0342, m)
  | .fltDiv m => some (0x0343, m)
  | .fltSqrt m => some (0x0344, m)
  | .fltFma m => some (0x0345, m)
  | .fltMin m => some (0x0346, m)
  | .fltMax m => some (0x0347, m)
  | .fltEq m => some (0x0348, m)
  | .fltLt m => some (0x0349, m)
  | .fltLe m => some (0x034A, m)
  | .fltClass m => some (0x034B, m)
  | .fltCvt m => some (0x034C, m)
  | .fltTdec m => some (0x034D, m)
  | .fltTenc m => some (0x034E, m)
  | .strandSpawn m => some (0x0380, m)
  | .strandJoin m => some (0x0381, m)
  | .strandExit m => some (0x0382, m)
  | .strandYield m => some (0x0383, m)
  | .strandSleep m => some (0x0384, m)
  | .strandWake m => some (0x0385, m)
  | .strandPrio m => some (0x0386, m)
  | .strandKill m => some (0x0387, m)
  | .msgWait m => some (0x03C0, m)
  | .msgTake m => some (0x03C1, m)
  | .poolPut m => some (0x03C2, m)
  | .poolTake m => some (0x03C3, m)
  | .poolClose m => some (0x03C4, m)
  | .qArm m => some (0x03C5, m)
  | .qWait m => some (0x03C6, m)
  | .semPost m => some (0x0400, m)
  | .semAdd m => some (0x0401, m)
  | .semWait m => some (0x0402, m)
  | .semTry m => some (0x0403, m)
  | .semArm m => some (0x0404, m)
  | .semRead m => some (0x0405, m)
  | .semReset m => some (0x0406, m)
  | .barArrive m => some (0x0440, m)
  | .barWait m => some (0x0441, m)
  | .barSync m => some (0x0442, m)
  | .barMax m => some (0x0443, m)
  | .barMaxf m => some (0x0444, m)
  | .barSum m => some (0x0445, m)
  | .barAnd m => some (0x0446, m)
  | .barOr m => some (0x0447, m)
  | .ordFence m => some (0x0480, m)
  | .ordAcq m => some (0x0481, m)
  | .ordRel m => some (0x0482, m)
  | .ordIcsync m => some (0x0483, m)
  | .ordCinv m => some (0x0484, m)
  | .ordCwb m => some (0x0485, m)
  | .sysTrap m => some (0x04C0, m)
  | .sysStop m => some (0x04C1, m)
  | .sysRd m => some (0x04C2, m)
  | .sysWr m => some (0x04C3, m)
  | .sysGo m => some (0x04C4, m)
  | .sysDrain m => some (0x04C5, m)
  | .dbgBrk m => some (0x0500, m)
  | .dbgMark m => some (0x0501, m)
  | .dbgStep m => some (0x0502, m)
  | .mntSpare m => some (0x0503, m)
  | .mntNotice m => some (0x0504, m)
  | .mntState m => some (0x0505, m)
  | .mntDiscard m => some (0x0506, m)
  | .cpyCopy m => some (0x0600, m)
  | .cpyFill m => some (0x0601, m)
  | .cpyGather m => some (0x0602, m)
  | .cpyScatter m => some (0x0603, m)
  | .cpyPlane m => some (0x0604, m)
  | .cpyMcast m => some (0x0605, m)
  | .cpyMapinval m => some (0x0606, m)
  | .mxMma m => some (0x0640, m)
  | .mxGmma m => some (0x0641, m)
  | .mxZero m => some (0x0642, m)
  | .mxLoad m => some (0x0643, m)
  | .mxStore m => some (0x0644, m)
  | .vxAdd m => some (0x0680, m)
  | .vxSub m => some (0x0681, m)
  | .vxMul m => some (0x0682, m)
  | .vxFma m => some (0x0683, m)
  | .vxMin m => some (0x0684, m)
  | .vxMax m => some (0x0685, m)
  | .vxAbs m => some (0x0686, m)
  | .vxScale m => some (0x0687, m)
  | .vxExp2 m => some (0x0688, m)
  | .vxLog2 m => some (0x0689, m)
  | .vxRcp m => some (0x068A, m)
  | .vxRsqrt m => some (0x068B, m)
  | .vxCmp m => some (0x068C, m)
  | .vxSel m => some (0x068D, m)
  | .vxRowsum m => some (0x068E, m)
  | .vxRowmax m => some (0x068F, m)
  | .vxColsum m => some (0x0690, m)
  | .vxBlkmax m => some (0x0691, m)
  | .vxQuant m => some (0x0692, m)
  | .vxDequant m => some (0x0693, m)
  | .vxCvt m => some (0x0694, m)
  | .vxTblset m => some (0x0695, m)
  | .vxTblenc m => some (0x0696, m)
  | .vxTbldec m => some (0x0697, m)
  | .fabLd m => some (0x06C0, m)
  | .fabSt m => some (0x06C1, m)
  | .fabAmo m => some (0x06C2, m)
  | .fabSend m => some (0x06C3, m)
  | .fabSpawn m => some (0x06C4, m)
  | .panAttach m => some (0x06C5, m)
  | .panDetach m => some (0x06C6, m)
  | .panExit m => some (0x06C7, m)
  | .panState m => some (0x06C8, m)
  | .colRscat m => some (0x0700, m)
  | .colAgath m => some (0x0701, m)
  | .colAredc m => some (0x0702, m)
  | .colBcast m => some (0x0703, m)
  | .colWeights m => some (0x0704, m)
  | _ => none

/-- An instruction is well formed: a word names assigned addresses only, and a pair that has a form of its own is written in
that form. -/
def Instr.wf : Instr → Bool
  | .movePair a b => a.assigned && b.assigned && !(b == Move.nop && (loneForm a.dst.toNat a.lone).isSome)
  | .moveLong _ d _ => dstAssigned d.toNat
  | .moveLiteralPair _ d _ => dstAssigned d.toNat
  | .segklWrite _ m => m.assigned
  | .segkhWrite _ m => m.assigned
  | .fmodeWrite m => m.assigned
  | .specialRegisterWrite n m =>
    m.assigned && decide (n.toNat < 0x20) && !decide (n.toNat = 0x11) && specialAssigned n.toNat
  | .shutterSelect => true
  | .fetchArrival => true
  | .clusterIcacheReply => true
  | .divResult => true
  | .fltLongResult => true
  | .aluAdd m => m.assigned
  | .aluSub m => m.assigned
  | .aluRsub m => m.assigned
  | .aluAnd m => m.assigned
  | .aluOr m => m.assigned
  | .aluXor m => m.assigned
  | .aluAndn m => m.assigned
  | .aluMin m => m.assigned
  | .aluMax m => m.assigned
  | .aluMinz m => m.assigned
  | .aluMaxz m => m.assigned
  | .aluAddw m => m.assigned
  | .aluSubw m => m.assigned
  | .aluAdds m => m.assigned
  | .aluAddz m => m.assigned
  | .shSll m => m.assigned
  | .shSrl m => m.assigned
  | .shSra m => m.assigned
  | .shRotl m => m.assigned
  | .shRotr m => m.assigned
  | .shExt m => m.assigned
  | .shExtz m => m.assigned
  | .shIns m => m.assigned
  | .shClz m => m.assigned
  | .shCtz m => m.assigned
  | .shPopc m => m.assigned
  | .shBrev m => m.assigned
  | .shBswap m => m.assigned
  | .shSllw m => m.assigned
  | .shSrlw m => m.assigned
  | .shSraw m => m.assigned
  | .mulLo m => m.assigned
  | .mulHi m => m.assigned
  | .mulHiz m => m.assigned
  | .mulHisz m => m.assigned
  | .mulW m => m.assigned
  | .divDiv m => m.assigned
  | .divDivz m => m.assigned
  | .divRem m => m.assigned
  | .divRemz m => m.assigned
  | .divDivw m => m.assigned
  | .divRemw m => m.assigned
  | .cmpEq m => m.assigned
  | .cmpNe m => m.assigned
  | .cmpLt m => m.assigned
  | .cmpLtz m => m.assigned
  | .cmpLe m => m.assigned
  | .cmpLez m => m.assigned
  | .cmpBset m => m.assigned
  | .cmpBclr m => m.assigned
  | .adrMk m => m.assigned
  | .adrSeg m => m.assigned
  | .adrOff m => m.assigned
  | .adrInseg m => m.assigned
  | .adrTocw m => m.assigned
  | .adrTopan m => m.assigned
  | .adrSpace m => m.assigned
  | .brJmp m => m.assigned
  | .brJmprel m => m.assigned
  | .brCall m => m.assigned
  | .brCallrel m => m.assigned
  | .brLoop m => m.assigned
  | .lsuLd8 m => m.assigned
  | .lsuLd8z m => m.assigned
  | .lsuLd16 m => m.assigned
  | .lsuLd16z m => m.assigned
  | .lsuLd32 m => m.assigned
  | .lsuLd32z m => m.assigned
  | .lsuLd64 m => m.assigned
  | .lsuLd128 m => m.assigned
  | .lsuSt8 m => m.assigned
  | .lsuSt16 m => m.assigned
  | .lsuSt32 m => m.assigned
  | .lsuSt64 m => m.assigned
  | .lsuSt128 m => m.assigned
  | .amoAdd m => m.assigned
  | .amoAnd m => m.assigned
  | .amoOr m => m.assigned
  | .amoXor m => m.assigned
  | .amoMin m => m.assigned
  | .amoMax m => m.assigned
  | .amoMinz m => m.assigned
  | .amoMaxz m => m.assigned
  | .amoSwap m => m.assigned
  | .amoCas m => m.assigned
  | .amoFadd m => m.assigned
  | .remoteAccessReply => true
  | .feRetryResend => true
  | .ticketHoldExpiry => true
  | .feWithdraw => true
  | .pageWake => true
  | .logMerge => true
  | .fltAdd m => m.assigned
  | .fltSub m => m.assigned
  | .fltMul m => m.assigned
  | .fltDiv m => m.assigned
  | .fltSqrt m => m.assigned
  | .fltFma m => m.assigned
  | .fltMin m => m.assigned
  | .fltMax m => m.assigned
  | .fltEq m => m.assigned
  | .fltLt m => m.assigned
  | .fltLe m => m.assigned
  | .fltClass m => m.assigned
  | .fltCvt m => m.assigned
  | .fltTdec m => m.assigned
  | .fltTenc m => m.assigned
  | .strandSpawn m => m.assigned
  | .strandJoin m => m.assigned
  | .strandExit m => m.assigned
  | .strandYield m => m.assigned
  | .strandSleep m => m.assigned
  | .sleepTimeout => true
  | .strandWake m => m.assigned
  | .strandPrio m => m.assigned
  | .strandKill m => m.assigned
  | .msgWait m => m.assigned
  | .msgTake m => m.assigned
  | .poolPut m => m.assigned
  | .poolTake m => m.assigned
  | .poolClose m => m.assigned
  | .poolReply => true
  | .qArm m => m.assigned
  | .detectorReply => true
  | .qWait m => m.assigned
  | .quiescenceSample => true
  | .messageArrival => true
  | .spawnIntakeArrival => true
  | .intakeDelivery => true
  | .semPost m => m.assigned
  | .semAdd m => m.assigned
  | .semWait m => m.assigned
  | .semTry m => m.assigned
  | .semArm m => m.assigned
  | .semRead m => m.assigned
  | .semReset m => m.assigned
  | .remotePostArrival => true
  | .barArrive m => m.assigned
  | .barWait m => m.assigned
  | .barSync m => m.assigned
  | .barMax m => m.assigned
  | .barMaxf m => m.assigned
  | .barSum m => m.assigned
  | .barAnd m => m.assigned
  | .barOr m => m.assigned
  | .domainBarrierArrival => true
  | .ordFence m => m.assigned
  | .ordAcq m => m.assigned
  | .ordRel m => m.assigned
  | .ordIcsync m => m.assigned
  | .ordCinv m => m.assigned
  | .ordCwb m => m.assigned
  | .sysTrap m => m.assigned
  | .sysStop m => m.assigned
  | .sysRd m => m.assigned
  | .sysWr m => m.assigned
  | .sysGo m => m.assigned
  | .sysDrain m => m.assigned
  | .dbgBrk m => m.assigned
  | .dbgMark m => m.assigned
  | .dbgStep m => m.assigned
  | .mntSpare m => m.assigned
  | .mntNotice m => m.assigned
  | .mntState m => m.assigned
  | .mntDiscard m => m.assigned
  | .mntReply => true
  | .engineSlotGrant => true
  | .cpyCopy m => m.assigned
  | .cpyFill m => m.assigned
  | .cpyGather m => m.assigned
  | .cpyScatter m => m.assigned
  | .cpyPlane m => m.assigned
  | .cpyMcast m => m.assigned
  | .cpyMapinval m => m.assigned
  | .cpyActivate => true
  | .cpyPiece => true
  | .cpyCompletion => true
  | .mxMma m => m.assigned
  | .mxGmma m => m.assigned
  | .mxPartAccept => true
  | .mxZero m => m.assigned
  | .mxLoad m => m.assigned
  | .mxStore m => m.assigned
  | .mxPassStart => true
  | .mxTransferStart => true
  | .mxCompletion => true
  | .vxAdd m => m.assigned
  | .vxSub m => m.assigned
  | .vxMul m => m.assigned
  | .vxFma m => m.assigned
  | .vxMin m => m.assigned
  | .vxMax m => m.assigned
  | .vxAbs m => m.assigned
  | .vxScale m => m.assigned
  | .vxExp2 m => m.assigned
  | .vxLog2 m => m.assigned
  | .vxRcp m => m.assigned
  | .vxRsqrt m => m.assigned
  | .vxCmp m => m.assigned
  | .vxSel m => m.assigned
  | .vxRowsum m => m.assigned
  | .vxRowmax m => m.assigned
  | .vxColsum m => m.assigned
  | .vxBlkmax m => m.assigned
  | .vxQuant m => m.assigned
  | .vxDequant m => m.assigned
  | .vxCvt m => m.assigned
  | .vxTblset m => m.assigned
  | .vxTblenc m => m.assigned
  | .vxTbldec m => m.assigned
  | .vxCommandStart => true
  | .vxChunk => true
  | .vxCompletion => true
  | .fabLd m => m.assigned
  | .fabSt m => m.assigned
  | .fabAmo m => m.assigned
  | .remoteRequest => true
  | .fabSend m => m.assigned
  | .fabSpawn m => m.assigned
  | .reserveRequest => true
  | .reserveResend => true
  | .creditReturn => true
  | .creditIdleRelease => true
  | .messageAcknowledge => true
  | .refusedArrivalRetry => true
  | .panAttach m => m.assigned
  | .panDetach m => m.assigned
  | .panExit m => m.assigned
  | .panState m => m.assigned
  | .detachRemoval => true
  | .memberDeparture => true
  | .colRscat m => m.assigned
  | .colAgath m => m.assigned
  | .colAredc m => m.assigned
  | .colBcast m => m.assigned
  | .colWeights m => m.assigned
  | .colMatch => true
  | .colBucket => true
  | .colAbort => true
  | .colCompletion => true
  | .routerLinkSlot => true
  | .linkReplay => true
  | .linkDown => true
  | .fabricUnreachable => true
  | .mailboxRecordWrite => true
  | .trapDisposal => true
  | .handlerStart => true
  | .preemptRequest => true
  | .saveHandlerStart => true
  | .saveComplete => true
  | .preemptLimitExpiry => true
  | .restorePlacement => true
  | .panoramaPreempt => true
  | .phaseTrackStep => true
  | .groupRetrain => true
  | .eccWriteback => true
  | .patrolRead => true
  | .rowRepair => true
  | .bankMigration => true
  | .laneSteer => true
  | .repairAttemptTimeout => true
  | .pageRetirement => true
  | .doorbell => true
  | .packetFetch => true
  | .nop => true
  | .launch => true
  | .panlaunch => true
  | .wait => true
  | .signalPoll => true
  | .signal => true
  | .barrier => true
  | .copy => true
  | .event => true
  | .configQset => true
  | .configQread => true
  | .configQresume => true
  | .configLog => true
  | .configBind => true
  | .configEvch => true
  | .configLimits => true
  | .configTrace => true
  | .tableMap => true
  | .tableUnmap => true
  | .tableProtect => true
  | .tableReserve => true
  | .discard => true
  | .mark => true
  | .dispatchDecision => true
  | .gangLoad => true
  | .launchCompletion => true
  | .launchEnd => true
  | .panAdmissionPrepare => true
  | .panAdmissionCommit => true
  | .eventCoalesceTimeout => true
  | .eventRingSpace => true
  | .eventRetransmit => true
  | .liveUpdateTakeover => true
  | .rdmaWrite => true
  | .rdmaRead => true
  | .arpRequest => true
  | .neighborDiscovery => true
  | .lldpSend => true
  | .debugRequest => true
  | .frontEndGate => true
  | .frontEndWake => true
  | .getSensorReading => true
  | .pldmDiscovery => true
  | .platformEventMessage => true
  | .applyComplete => true
  | .firmwareActivation => true
  | .securityMinimumRaise => true
  | .traceControlWrite => true
  | .getVersion => true
  | .getCapabilities => true
  | .negotiateAlgorithms => true
  | .getDigests => true
  | .getCertificate => true
  | .challenge => true
  | .getMeasurements => true
  | .powerCapWindow => true
  | .powerCapSet => true
  | .dieThermalTrip => true
  | .stackThermalTrip => true
  | .coreClockGate => true
  | .coreWake => true
  | .clusterPowerGate => true
  | .clusterWake => true
  | .cellReset => true
  | .engineReset => true
  | .gangReset => true
  | .clusterReset => true
  | .dieWarmReset => true
  | .packageWarmReset => true
  | .coldReset => true
  | .fullService => true
  | .contactSheetFrame => true
  | .filmstripRecord => true
  | .repairAttemptComplete => true
  | .packetComplete => true
  | .dieTemperatureCap => true
  | .hostLinkChange => true
  | .degradedService => true
  | .partitionAssignment => true
  | .pageMadeNonResident => true

/-- An event names agents that exist. -/
def Event.wf : Event → Bool
  | .shutterSelect core => decide (core < 768)
  | .fetchArrival core slot => decide (core < 768) && decide (slot < 256)
  | .clusterIcacheReply cluster part _ => decide (cluster < 8) && decide (part < 16)
  | .divResult core slot => decide (core < 768) && decide (slot < 256)
  | .fltLongResult core slot => decide (core < 768) && decide (slot < 256)
  | .remoteAccessReply core slot _ => decide (core < 768) && decide (slot < 256 + 2 ^ 32)
  | .feRetryResend core slot => decide (core < 768) && decide (slot < 256)
  | .ticketHoldExpiry _ => true
  | .feWithdraw core slot => decide (core < 768) && decide (slot < 256)
  | .pageWake part _ => decide (part < 16)
  | .logMerge core => decide (core < 768)
  | .sleepTimeout core slot => decide (core < 768) && decide (slot < 256)
  | .poolReply core slot => decide (core < 768) && decide (slot < 256)
  | .detectorReply core slot => decide (core < 768) && decide (slot < 256)
  | .quiescenceSample _ _ => true
  | .messageArrival _ => true
  | .spawnIntakeArrival _ => true
  | .intakeDelivery core => decide (core < 768)
  | .remotePostArrival core sem _ => decide (core < 768) && decide (sem < 1024)
  | .domainBarrierArrival _ _ member _ _ _ => decide (member < 288)
  | .mntReply core slot => decide (core < 768) && decide (slot < 256)
  | .engineSlotGrant core unit => decide (core < 768) && decide (unit < 4)
  | .cpyActivate core => decide (core < 768)
  | .cpyPiece core => decide (core < 768)
  | .cpyCompletion core _ => decide (core < 768)
  | .mxPartAccept core _ _ => decide (core < 768)
  | .mxPassStart core => decide (core < 768)
  | .mxTransferStart core => decide (core < 768)
  | .mxCompletion core _ => decide (core < 768)
  | .vxCommandStart core => decide (core < 768)
  | .vxChunk core => decide (core < 768)
  | .vxCompletion core _ => decide (core < 768)
  | .remoteRequest _ => true
  | .reserveRequest _ => true
  | .reserveResend core _ => decide (core < 768)
  | .creditReturn _ => true
  | .creditIdleRelease core _ => decide (core < 768)
  | .messageAcknowledge core _ _ => decide (core < 768)
  | .refusedArrivalRetry core _ => decide (core < 768)
  | .detachRemoval _ member _ => decide (member < 288)
  | .memberDeparture _ member => decide (member < 288)
  | .colMatch die _ => decide (die < 4)
  | .colBucket die _ _ => decide (die < 4)
  | .colAbort die _ _ => decide (die < 4)
  | .colCompletion die _ => decide (die < 4)
  | .routerLinkSlot _ _ => true
  | .linkReplay port => decide (port < 6)
  | .linkDown port => decide (port < 6)
  | .fabricUnreachable device => decide (device < 288)
  | .mailboxRecordWrite core slot => decide (core < 768) && decide (slot < 256)
  | .trapDisposal cluster core slot => decide (cluster < 8) && decide (core < 768) && decide (slot < 256)
  | .handlerStart core => decide (core < 768)
  | .preemptRequest _ _ => true
  | .saveHandlerStart _ _ => true
  | .saveComplete _ _ => true
  | .preemptLimitExpiry _ _ => true
  | .restorePlacement _ _ cluster => decide (cluster < 8)
  | .panoramaPreempt _ => true
  | .phaseTrackStep stack _ _ => decide (stack < 12)
  | .groupRetrain stack _ => decide (stack < 12)
  | .eccWriteback (.stack n _) => decide (n < 12)
  | .eccWriteback (.core c) => decide (c < 768)
  | .patrolRead stack _ _ => decide (stack < 12)
  | .rowRepair stack _ _ _ => decide (stack < 12)
  | .bankMigration stack _ _ => decide (stack < 12)
  | .laneSteer stack _ => decide (stack < 12)
  | .repairAttemptTimeout stack => decide (stack < 12)
  | .pageRetirement stack _ => decide (stack < 12)
  | .doorbell _ => true
  | .packetFetch _ => true
  | .nop _ _ => true
  | .launch _ _ => true
  | .panlaunch _ _ => true
  | .wait _ _ => true
  | .signalPoll _ => true
  | .signal _ _ => true
  | .barrier _ _ => true
  | .copy _ _ => true
  | .event _ _ => true
  | .configQset _ _ => true
  | .configQread _ _ => true
  | .configQresume _ _ => true
  | .configLog _ _ => true
  | .configBind _ _ => true
  | .configEvch _ _ => true
  | .configLimits _ _ => true
  | .configTrace _ _ => true
  | .tableMap _ _ => true
  | .tableUnmap _ _ => true
  | .tableProtect _ _ => true
  | .tableReserve _ _ => true
  | .discard _ _ => true
  | .mark _ _ => true
  | .dispatchDecision => true
  | .gangLoad _ _ => true
  | .launchCompletion _ => true
  | .launchEnd _ _ _ _ => true
  | .panAdmissionPrepare _ => true
  | .panAdmissionCommit _ _ _ _ _ _ => true
  | .eventCoalesceTimeout part _ => decide (part < 16)
  | .eventRingSpace part _ => decide (part < 16)
  | .eventRetransmit part _ => decide (part < 16)
  | .liveUpdateTakeover => true
  | .rdmaWrite _ _ _ _ => true
  | .rdmaRead _ _ _ _ => true
  | .arpRequest _ => true
  | .neighborDiscovery _ => true
  | .lldpSend => true
  | .debugRequest _ _ => true
  | .frontEndGate => true
  | .frontEndWake => true
  | .getSensorReading _ => true
  | .pldmDiscovery _ => true
  | .platformEventMessage _ => true
  | .applyComplete _ _ _ _ _ _ => true
  | .firmwareActivation _ => true
  | .securityMinimumRaise _ _ => true
  | .traceControlWrite cluster _ => decide (cluster < 8)
  | .getVersion => true
  | .getCapabilities => true
  | .negotiateAlgorithms => true
  | .getDigests => true
  | .getCertificate slot _ _ => decide (slot < 256)
  | .challenge slot _ => decide (slot < 256)
  | .getMeasurements _ _ => true
  | .powerCapWindow _ => true
  | .powerCapSet _ => true
  | .dieThermalTrip die _ => decide (die < 4)
  | .stackThermalTrip stack _ => decide (stack < 12)
  | .coreClockGate core => decide (core < 768)
  | .coreWake core => decide (core < 768)
  | .clusterPowerGate cluster => decide (cluster < 8)
  | .clusterWake cluster => decide (cluster < 8)
  | .cellReset core => decide (core < 768)
  | .engineReset core unit => decide (core < 768) && decide (unit < 4)
  | .gangReset _ _ => true
  | .clusterReset cluster => decide (cluster < 8)
  | .dieWarmReset die => decide (die < 4)
  | .packageWarmReset => true
  | .coldReset => true
  | .fullService => true
  | .contactSheetFrame cluster => decide (cluster < 8)
  | .filmstripRecord _ _ unit _ => decide (unit < 4)
  | .repairAttemptComplete stack => decide (stack < 12)
  | .packetComplete _ _ => true
  | .dieTemperatureCap die _ => decide (die < 4)
  | .hostLinkChange _ => true
  | .degradedService => true
  | .partitionAssignment _ => true
  | .pageMadeNonResident part _ => decide (part < 16)

/-- The rows that are instruction words; the others are events. -/
def Instr.isWord (i : Instr) : Bool :=
  match i with
  | .movePair _ _ => true
  | .moveLong _ _ _ => true
  | .moveLiteralPair _ _ _ => true
  | i => i.loneParts.isSome

end Sys2Proof
end

