-- ==== Sys2Proof/Decode.lean ====
section
/-! DEFINITION. The decoder and the encoder of instruction words (02 R27 to R37, R43 to R45). -/

namespace Sys2Proof

/-- Why a word is rejected; each is a cause of ILLEGAL_WORD, but for short (02 R27, R29, R37). -/
inductive Reject where
  /-- Bits 63:62 are 0b11 (R27). -/
  | reservedForm
  /-- A literal pair's first word at an address with bit 3 set (R29). -/
  | literalAddress
  /-- A literal pair's first word with a bit of 43:0 set (R29). -/
  | literalBits
  /-- A reserved or unassigned destination (R35, R43, R45). -/
  | destination
  /-- A reserved or unassigned source (R36, R45). -/
  | source
  /-- Fewer bytes than the instruction has. -/
  | short
  deriving DecidableEq, Repr

/-- What the decoder answers: an instruction and its length in bytes, or a rejection. -/
inductive Decoded where
  | ok (i : Instr) (len : Nat)
  | illegal (r : Reject)
  deriving DecidableEq, Repr

/-- The fields of a 31-bit move (02 R28). -/
def moveOfBits (v : BitVec 31) : Move :=
  ⟨v.extractLsb' 27 4, v.extractLsb' 13 14, v.getLsbD 12, v.extractLsb' 0 12⟩

/-- The 31 bits of a move (02 R28). -/
def Move.bits (a : Move) : BitVec 31 :=
  a.guard ++ a.dst ++ BitVec.ofBool a.imm ++ a.src

/-- A pair word's instruction (02 R27, R37). Where move B is all zero and move A is a trigger or a special-register write, it is
the instruction of that destination (03 R64). -/
def decodePair (a b : Move) : Decoded :=
  if !dstAssigned a.dst.toNat || !dstAssigned b.dst.toNat then .illegal .destination
  else if !a.assigned || !b.assigned then .illegal .source
  else if b = Move.nop then
    match loneForm a.dst.toNat a.lone with
    | some i => .ok i 8
    | none => .ok (.movePair a b) 8
  else .ok (.movePair a b) 8

/-- The instruction of word w, which second follows. aligned says that the address of w is a multiple of 16 (02 R27, R29). -/
def decodeUnit (aligned : Bool) (w second : Word) : Decoded :=
  let form := w.extractLsb' 62 2
  let guard := w.extractLsb' 58 4
  let dst := w.extractLsb' 44 14
  if form = 3 then .illegal .reservedForm
  else if form = 0 then decodePair (moveOfBits (w.extractLsb' 31 31)) (moveOfBits (w.extractLsb' 0 31))
  else if form = 1 then
    if dstAssigned dst.toNat then .ok (.moveLong guard dst (w.extractLsb' 0 44)) 8 else .illegal .destination
  else if !aligned then .illegal .literalAddress
  else if w.extractLsb' 0 44 ≠ 0 then .illegal .literalBits
  else if dstAssigned dst.toNat then .ok (.moveLiteralPair guard dst second) 16
  else .illegal .destination

/-- The word of 8 bytes, byte 0 the least significant (00 R1); missing bytes are 0. -/
def wordOfBytes (bs : List Byte) : Word :=
  BitVec.ofNat 64 (bs.take 8 |>.foldr (fun b acc => b.toNat + 256 * acc) 0)

/-- The 8 bytes of a word, least significant first (00 R1). -/
def bytesOfWord (w : Word) : List Byte :=
  (List.range 8).map (fun k => BitVec.ofNat 8 (w.toNat / 256 ^ k))

/-- The instruction that bytes at an address hold, total on any bytes. -/
def decode (aligned : Bool) (bs : List Byte) : Decoded :=
  if bs.length < 8 then .illegal .short
  else
    match decodeUnit aligned (wordOfBytes bs) (wordOfBytes (bs.drop 8)) with
    | .ok i len => if bs.length < len then .illegal .short else .ok i len
    | .illegal r => .illegal r

/-- A pair word (02 R27). -/
def pairWord (a b : Move) : Word := (0#2 ++ a.bits ++ b.bits : BitVec 64)

/-- The words of a well-formed instruction word, written from 02 R27, R28 and R43; an event has none. -/
def encode (i : Instr) : List Word :=
  match i with
  | .movePair a b => [pairWord a b]
  | .moveLong g d imm => [(1#2 ++ g ++ d ++ imm : BitVec 64)]
  | .moveLiteralPair g d v => [(2#2 ++ g ++ d ++ 0#44 : BitVec 64), v]
  | i =>
    match i.loneParts with
    | some (d, m) => [pairWord (m.to (BitVec.ofNat 14 d)) Move.nop]
    | none => []

/-- Decoding a list of words that starts at a 16-byte aligned address. -/
def decodeWords : List Word → Decoded
  | [] => .illegal .short
  | [w] =>
    match decodeUnit true w 0 with
    | .ok i 8 => .ok i 8
    | .ok _ _ => .illegal .short
    | .illegal r => .illegal r
  | w :: v :: _ => decodeUnit true w v

/-- The instruction that the decoder reads from bits w, laid out from a 16-byte aligned address as the hardware stores them. -/
def decodeTableWord (nbits w : Nat) : Option Instr :=
  let v := w % 2 ^ nbits
  match decode true (bytesOfWord (BitVec.ofNat 64 v) ++ bytesOfWord (BitVec.ofNat 64 (v / 2 ^ 64))) with
  | .ok i _ => some i
  | .illegal _ => none

end Sys2Proof
end

