-- ==== Sys2Proof/Config.lean ====
section
/-! DEFINITION. What one machine fixes, and the free values: opaque constants that nothing can evaluate. -/

namespace Sys2Proof.Config

/-- A value the spec leaves open, one for each draw (notes/assumptions/2.md). -/
opaque freeValue : Nat → Word

/-- Which of the runnable steps comes next, by the model's tick; taken modulo the number of candidates (notes/assumptions/3.md). -/
opaque schedule : Nat → Nat

/-- Which of the outcomes that the spec allows happens, by the model's draw (notes/assumptions/2.md). -/
opaque choice : Nat → Nat

/-- AUX of the save and restore records of a cell: where firmware keeps its save area, by launch, gang and rank (14 R353; notes/assumptions/26.md). -/
opaque saveArea : Nat → Nat → Nat → Word

/-- The die that a torus port belongs to, taken modulo 4 (01 R10; notes/assumptions/33.md). -/
opaque portDie : Nat → Nat

/-- The measurement of the image that a flash bank holds before any update, by 2 × component + bank; of the seal core's ROM; and of the fused key hashes (18 R449,
R450; notes/assumptions/37.md). -/
opaque flashHash : Nat → BitVec 384
opaque romHash : BitVec 384
opaque keyHash : BitVec 384

/-- Devices of the domain (01 R10). -/
def domainDevices : Nat := 288

/-- Bytes of a core store (07 R154). -/
def coreStoreBytes : Nat := 0x180000

/-- Bytes of a B plane (01 R10). -/
def planeBytes : Nat := 0x400000

/-- Physical addresses below this exist (07 R159). -/
def physBytes : Nat := 0xC000000000

/-- Physical frames from here upward are kept for page tables and firmware (07 R167: memory that no partition maps; notes/assumptions/92.md). -/
def tableRegion : Nat := 0xBF00000000

/-- QTAB: where the queue control blocks lie, in memory that no partition maps (16 R394; notes/assumptions/92.md). Page tables follow them. -/
def queueTable : Nat := tableRegion

/-- The first address for page tables. -/
def tableStart : Nat := queueTable + 64 * 2 ^ 20

/-- FLITCAP (07 R166). -/
def flitcap : Word := 0x0000004000400020

end Sys2Proof.Config
end

