-- ==== Sys2Proof/Machine/State.lean ====
section
/-! DEFINITION. The state of one device as plain data, the reasons a step can stop, and the state after cold reset.
INVENTORY.md lists every field with the rule of spec/ that names it. -/

namespace Sys2Proof.Machine

/-- Byte-addressed memory with a full/empty bit and an ECC state for each 8-byte word (07 R154, R159, R176).
bytes is canonical: addresses strictly rising, no byte 0 listed; an unlisted byte reads 0. empties lists the indices of
empty words, so an unlisted word is full; bad lists the ECC granules that decode as uncorrectable (8 bytes in a core store,
32 bytes in device memory), and found those of them that have been counted (15 R391). -/
structure Mem where
  bytes : List Host.Cell
  empties : List Nat
  bad : List Nat
  found : List Nat
  deriving DecidableEq, Repr

/-- Memory with nothing listed. -/
def Mem.blank : Mem := ⟨[], [], [], []⟩

/-- The slot states in the order of 06 R115, which is the order of slot item 0x101 (14 R362). -/
inductive SlotState where
  | free | ready | issued | waitPort | waitSem | waitFe | waitBar | waitMsg | waitPool | waitJoin | waitPage | waitQuiet
  | sleep | trapped | stopped
  deriving DecidableEq, Repr

/-- A result port (02 R39, R40): its value, whether it is pending, the cycle it becomes valid and the flags it then merges. -/
structure Port where
  val : Word
  pending : Bool
  due : Nat
  flags : BitVec 5
  deriving DecidableEq, Repr

/-- A live move with its value, as read in stage 2 (02 R50). -/
structure MoveVal where
  dst : BitVec 14
  val : Word
  isB : Bool
  deriving DecidableEq, Repr

/-- Why a word is held or has parked before it commits (02 R54, R55, 06 R115). -/
inductive Hold where
  | engine (unit : Nat)
  | feLocal (key : Nat)
  | feAt (ctrl : Ctrl)
  | fePeer (device : Nat)
  | page (va : Nat)
  | peerPage (device : Nat)
  | remote (device : Nat)
  | pool
  | detector
  | mnt
  | gmma (seq : Nat)
  | stopping (slot serial : Nat)
  | panWait
  | panReply
  | fence
  | drain
  | logSpace
  | repair (stack : Nat)
  deriving DecidableEq, Repr

/-- A word that has not committed: its live moves, its offset, the offset that follows it, its first 64 bits, the reply it has received, and
the members that have answered a pan word with their answers (13 R335). -/
structure HeldWord where
  why : Hold
  moves : List MoveVal
  here : Word
  next : Word
  word : Word
  reply : Option Reply
  answers : Table Nat
  deriving DecidableEq, Repr

/-- A wait entered after its word committed (02 R56). -/
inductive Park where
  | sem (index : Nat) (arrival : Bool) (arg : Nat)
  | bar (chan : Nat) (domain : Bool) (kind : Nat) (phase : Nat)
  | msg (ring : Nat) (pos : Nat)
  | pool (pool : Nat)
  | join (slot : Nat) (serial : Nat)
  | quiet (gen : Nat)
  | sleep (until_ : Option Nat)
  deriving DecidableEq, Repr

/-- A fetch unit as its strand's fetch buffer keeps it (05 R102, R109): the space code, the partition, the 16-byte aligned address and the bytes. -/
structure CodeUnit where
  space : Nat
  part : Nat
  addr : Nat
  data : BitVec 128
  deriving DecidableEq, Repr

/-- The strand's next word as its fetch buffer delivers it: its offset, its 8 bytes, and the 8 bytes that follow where they are a literal's
(05 R102, R109). -/
structure FetchUnit where
  pc : Word
  first : Word
  second : Word
  deriving DecidableEq, Repr

/-- One strand slot and the strand in it. issuedAt is the cycle in which its word in flight, or its last one, was issued (02 R52); seen keeps the free
command slots of the five engines as that word's stage 2 read them (02 R49); units are the units of its fetch buffer, and fetch its next word; fetchLost
counts the bank arbitrations that its fetch in progress has lost, the last in cycle fetchAt (05 R102). killBy is the value with which a handler kills the strand when it has
stopped (14 R356). -/
structure Slot where
  st : SlotState
  serial : BitVec 24
  exitSerial : BitVec 24
  exitValue : Word
  pc : Word
  x : Table Word
  g : Table Bool
  segL : Table Word
  segH : Table Word
  stage : Table Word
  opnd : Table Word
  res : Table Port
  fflags : BitVec 5
  fmode : BitVec 3
  srseed : BitVec 32
  waitdesc : Word
  level : BitVec 2
  base : BitVec 2
  age : Nat
  yield : Bool
  wake : Bool
  step : Bool
  skipBreak : Bool
  stopReq : Bool
  squashes : Nat
  gsi : Word
  readyAt : Nat
  issuedAt : Nat
  fetchLost : Nat
  fetchAt : Nat
  seen : Table Nat
  units : List CodeUnit
  fetch : Option FetchUnit
  held : Option HeldWord
  park : Option Park
  trap : Option Block
  killBy : Option Word
  deriving DecidableEq, Repr

/-- A FREE slot as a cell finds it when it is loaded (06 R118). -/
def Slot.free : Slot :=
  { st := .free, serial := 0, exitSerial := 0, exitValue := 0, pc := 0, x := [], g := [], segL := [], segH := [], stage := [],
    opnd := [], res := [], fflags := 0, fmode := 0, srseed := 0, waitdesc := 0, level := 0, base := 0, age := 0, yield := false,
    wake := false, step := false, skipBreak := false, stopReq := false, squashes := 0, gsi := 0, readyAt := 0, issuedAt := 0, fetchLost := 0, fetchAt := 0, seen := [], units := [], fetch := none, held := none, killBy := none,
    park := none, trap := none }

/-- Who waits for a word's full/empty bit: a strand of this device, or a remote access (07 R156, R157). -/
inductive Requester where
  | strand (core slot : Nat)
  | remote (r : RemoteReq)
  deriving DecidableEq, Repr

/-- A parked access and its requester (07 R156, R157). -/
structure Waiter where
  acc : Access
  who : Requester
  deriving DecidableEq, Repr

/-- A controller's waiting accesses in the order they parked (07 R156, R157), the next ticket, and the tickets not yet admitted in
rising order. A core store's controller keeps its wait list and its retry list in this one order. -/
structure Retry where
  entries : List Waiter
  nextTicket : Nat
  outstanding : List Nat
  deriving DecidableEq, Repr

/-- A controller with nothing waiting. -/
def Retry.empty : Retry := ⟨[], 0, []⟩

/-- One line of the line cache (07 R160); filled says that it has been filled since its allocation. Lists of lines are in order of use, most recent first. -/
structure CacheLine where
  part : Nat
  va : Nat
  valid : BitVec 8
  dirty : BitVec 8
  filled : Bool
  cn : Bool
  wok : Bool
  data : Block
  deriving DecidableEq, Repr

/-- One line of an instruction buffer or cache (05 R102). -/
structure CodeLine where
  space : Nat
  part : Nat
  addr : Nat
  data : Block
  deriving DecidableEq, Repr

/-- A semaphore (08 R197). waiters: slot and n or g, in the order they parked. -/
structure Sem where
  count : Word
  arrival : Bool
  target : BitVec 32
  gen : BitVec 32
  waiters : List (Nat × Nat)
  deriving DecidableEq, Repr

/-- The load state of a semaphore (08 R197). -/
def Sem.load : Sem := ⟨0, false, 0, 0, []⟩

/-- A receive ring (06 R138) with the reservations granted on it, and its tickets (13 R328). -/
structure Ring where
  base : Nat
  size : Nat
  tail : BitVec 32
  claim : BitVec 32
  head : BitVec 32
  granted : Nat
  senders : List ReserveReq
  nextTicket : Nat
  outstanding : List Nat
  deriving DecidableEq, Repr

/-- An unconfigured ring. -/
def Ring.none : Ring := ⟨0, 0, 0, 0, 0, 0, [], 0, []⟩

/-- A remote element of a copy in transit: its index, its index-list entry, the value read and the half words of it that are lost, the
reply, and the target's device (10 R262). -/
structure Transit where
  elem : Nat
  entry : Option Nat
  val : Option (Nat × Nat)
  reply : Option Reply
  device : Nat
  deriving DecidableEq, Repr

/-- An accepted engine command: the trigger that started it, its block and location, the operand port captured with it, the
issuing strand's descriptors and the engine's progress (10 R244, R250, 11 R271, 12 R292, 13 R327, R338). Pieces first ≤ k < last are
not yet performed, those in pend wait for a page, for log space or for their turn, and those in sleeping wait for a page of another device (a reply there is that
device's wake); entry lists the index-list entries read, by row; wrote lists the writes of the piece in hand: memory, address and length; lost lists the granules already
counted; waiting lists the cores that have not yet accepted their part of a group command, parts counts its unfinished parts, and parent names the command that a part belongs to. object is the cell whose credit a message uses (13 R328). -/
structure Cmd where
  seq : Nat
  op : BitVec 14
  slot : Nat
  serial : BitVec 24
  gsi : Word
  core : Nat
  part : Nat
  loc : Nat
  blk : Block
  port : Word
  segL : Table Word
  segH : Table Word
  rm : Nat
  smap : Block
  dmap : Block
  tables : Table Word
  first : Nat
  last : Nat
  pend : List (Nat × Option Nat)
  woken : Bool
  entry : Table Nat
  transit : Option Transit
  sleeping : List Transit
  wrote : List (Nat × Nat × Nat)
  active : Bool
  finished : Bool
  matched : Bool
  mask : List (Bool × Bool)
  flags : BitVec 5
  fault : Nat
  dropped : Nat
  oob : Nat
  lost : List Nat
  parent : Option (Nat × Nat)
  waiting : List Nat
  parts : Nat
  row0 : Nat
  col0 : Nat
  object : Nat × Nat × Nat
  deriving DecidableEq, Repr

/-- An engine: accepted commands in order of acceptance, the sequence counter, and the command last served in turn. -/
structure Engine where
  cmds : List Cmd
  seq : BitVec 32
  turn : Nat
  deriving DecidableEq, Repr

/-- An engine with no command (10 R241). -/
def Engine.idle : Engine := ⟨[], 0, 0⟩

/-- A descriptor-cache entry (10 R251): its key and the map. -/
structure MapEntry where
  part : Nat
  space : Nat
  core : Nat
  loc : Nat
  data : Block
  deriving DecidableEq, Repr

/-- A reservation-cache entry (13 R328). -/
structure Credit where
  entry : Nat
  device : Nat
  core : Nat
  ring : Option Nat
  object : Nat × Nat × Nat
  credits : Nat
  deriving DecidableEq, Repr

/-- A post held for a stopped or saved cell (14 R369, R370), with the status that its message leaves first: the block's location and the value (13 R329). -/
structure HeldPost where
  sem : Nat
  n : Nat
  status : Option (Nat × Nat)
  deriving DecidableEq, Repr

/-- The phase of a cell's pre-emption (14 R369 to R375). -/
inductive Preempt where
  | running | stopped | saving | saved | restoring
  deriving DecidableEq, Repr

/-- The cell that a core holds (01 R14, 03 R72, 06 R119, R120, 16 R406). -/
structure Cell where
  launch : Nat
  gang : Nat
  part : Nat
  cellinfo : Word
  geom : Word
  paninfo : Word
  sems : Nat
  spawn : Bool
  handler : Bool
  entry : Word
  handlerAt : Word
  storeDecl : Nat
  hmask : BitVec 32
  hrec : Nat
  savesz : Nat
  segL : Table Word
  segH : Table Word
  preempt : Preempt
  intakeOpen : Bool
  ended : Bool
  deriving DecidableEq, Repr

/-- One core. left is the cell that ended here last: its store, registers and exit records stand until the next cell is loaded (01 R18, 06 R118). slotWait lists the slots whose words wait for an engine slot and the unit, in order of issue (02 R55); faults lists the TRAPPED
slots whose records are not yet in the mailbox with the cycles of their faults, in order (14 R352). intakeAt is the cycle of the last intake delivery, and intakeSlot the
slot that the last strand of the cell left to the intake (06 R129, R141). -/
structure Core where
  cell : Option Cell
  left : Option Cell
  slots : Table Slot
  store : Mem
  plane : Mem
  acc : Table (BitVec 32)
  accBad : List Nat
  accFound : List Nat
  tables : Table Word
  sems : Table Sem
  rings : Table Ring
  intake : List Msg
  intakeGranted : Nat
  intakeTicket : Nat
  intakeOutstanding : List Nat
  intakeAt : Nat
  intakeSlot : Option Nat
  retry : Retry
  lines : List CacheLine
  code : List CodeLine
  logging : Bool
  logCount : Nat
  logMerged : Nat
  logFilter : List Nat
  cpy : Engine
  mx : Engine
  vx : Engine
  fab : Engine
  slotWait : List (Nat × Nat)
  faults : List (Nat × Nat)
  maps : List MapEntry
  credits : List Credit
  cycles : Nat
  created : BitVec 30
  ue : Nat
  ce : Nat
  gated : Bool
  idleFor : Nat
  handling : Option Block
  posts : List HeldPost
  deriving DecidableEq, Repr

/-- A core that holds no cell. -/
def Core.idle : Core :=
  { cell := none, left := none, slots := [], store := Mem.blank, plane := Mem.blank, acc := [], accBad := [], accFound := [], tables := [], sems := [], rings := [],
    intake := [], intakeGranted := 0, intakeTicket := 0, intakeOutstanding := [], intakeAt := 0, intakeSlot := none, retry := Retry.empty, lines := [], code := [], logging := false, logCount := 0,
    logMerged := 0, logFilter := [], cpy := Engine.idle, mx := Engine.idle, vx := Engine.idle, fab := Engine.idle, slotWait := [], faults := [], maps := [],
    credits := [], cycles := 0, created := 0, ue := 0, ce := 0, gated := false, idleFor := 0, handling := none, posts := [] }

/-- The five combining values of a barrier phase (08 R204, R206). -/
structure BarAcc where
  max : Word
  maxf : BitVec 32
  sum : Word
  and : Word
  or : Word
  deriving DecidableEq, Repr

/-- The identities of 08 R206. -/
def BarAcc.identities : BarAcc := ⟨0x8000000000000000, 0x7FC00000, 0, 0xFFFFFFFFFFFFFFFF, 0⟩

/-- A barrier channel (08 R204). mask lists member cores of a cluster channel or member gangs of a domain channel. -/
structure Channel where
  owner : Option (Nat × Nat)
  mask : List Nat
  expect : Nat
  phase : BitVec 32
  cnt : Table Nat
  acc0 : BarAcc
  acc1 : BarAcc
  last : BarAcc
  early : List (Nat × Nat × Word)
  deriving DecidableEq, Repr

/-- A channel no gang owns. -/
def Channel.free : Channel := ⟨none, [], 0, 0, [], BarAcc.identities, BarAcc.identities, BarAcc.identities, []⟩

/-- A work pool (06 R142, R143). takers: parked core and slot, in the order they parked. -/
structure Pool where
  owner : Option (Nat × Nat)
  items : List Word
  isOpen : Bool
  takers : List (Nat × Nat)
  deriving DecidableEq, Repr

/-- A pool no gang owns. -/
def Pool.free : Pool := ⟨none, [], true, []⟩

/-- A mailbox record (14 R352): the core it came from, the record and what firmware has done with it. -/
structure MailRec where
  core : Nat
  slot : Nat
  data : Block
  handed : Bool
  claimed : Bool
  deriving DecidableEq, Repr

/-- A translation kept by a TLB (07 R170). -/
structure TlbEntry where
  part : Nat
  va : Nat
  size : Nat
  entry : Word
  deriving DecidableEq, Repr

/-- A miss of the cluster instruction cache and the strands that asked for it (05 R108). -/
structure CodeMiss where
  part : Nat
  addr : Nat
  asks : List (Nat × Nat)
  deriving DecidableEq, Repr

/-- The trace registers of a cluster (17 R434) and its dropped count (17 R436). -/
structure Trace where
  en : Bool
  kinden : BitVec 4
  parts : BitVec 16
  base : BitVec 40
  log2w : Nat
  wr : Word
  rd : Word
  dropped : Nat
  deriving DecidableEq, Repr

/-- One cluster. -/
structure Cluster where
  mailbox : List MailRec
  channels : Table Channel
  pools : Table Pool
  code : List CodeLine
  misses : List CodeMiss
  tlb : List TlbEntry
  trace : Trace
  couriers : List Cmd
  sheetBase : Nat
  sheetInterval : Nat
  sheetFrame : Nat
  powered : Bool
  inService : Bool
  selfTested : Bool
  deriving DecidableEq, Repr

/-- A cluster after cold reset. -/
def Cluster.cold (safelight : Bool) : Cluster :=
  { mailbox := [], couriers := [], channels := [], pools := [], code := [], misses := [], tlb := [], trace := ⟨false, 0, 0, 0, 9, 0, 0, 0⟩,
    sheetBase := 0, sheetInterval := 0, sheetFrame := 0, powered := safelight, inService := safelight,
    selfTested := false }

/-- One compute die: its TLB, its collective engine with the commands of other positions that wait for a match, and its traffic weights (07 R170,
13 R338, R340, R345). -/
structure Die where
  tlb : List TlbEntry
  col : Engine
  asks : List ColAsk
  cpyw : BitVec 4
  colw : BitVec 4
  strw : BitVec 4
  deriving DecidableEq, Repr

/-- A die after a die warm reset (13 R338, R345). -/
def Die.warm : Die := ⟨[], Engine.idle, [], 4, 4, 4⟩

/-- What a Fixer is doing (15 R381, R382). -/
inductive Repair where
  | row (chan bank row : Nat)
  | bank (chan bank next : Nat)
  | lane (group : Nat)
  | retrain (group : Nat)
  | frame (frame newFrame : Nat)
  deriving DecidableEq, Repr

/-- A write of a line cache to device memory, which never faults and never parks (07 R161): the dirty words of a line, or bytes written through (07 R179). -/
inductive LateWrite where
  | words (l : CacheLine)
  | bytes (part va n v : Nat)
  deriving DecidableEq, Repr

/-- What waits at a stack controller for the end of a hold (15 R382): a strand's word, an access from another device, the fill of a line of a cluster
instruction cache, or a write of a line cache. -/
inductive Delayed where
  | write (w : LateWrite)
  | word (core slot : Nat)
  | far (r : RemoteReq)
  | line (cluster part addr : Nat)
  deriving DecidableEq, Repr

/-- One HBM stack with its controller and Fixer (07 R157, 15 R377 to R391). rowEvents counts corrected events by row unit; toRetire lists the
frames to retire, in order; delayed lists what waits for the repair in progress, in order of arrival. -/
structure Stack where
  retry : Retry
  rows : Nat
  banks : Nat
  lanes : Nat
  retired : Nat
  xrows : Bool
  xbanks : Bool
  xlanes : Bool
  ce : Nat
  ue : Nat
  phase : Table Int
  rowEvents : Table Nat
  rowMap : List (Nat × Nat × Nat)
  bankMap : List (Nat × Nat)
  laneMap : List Nat
  degraded : List Nat
  active : Option Repair
  waiting : List Repair
  toRetire : List Nat
  delayed : List Delayed
  deriving DecidableEq, Repr

/-- A stack that has used no spare (15 R384). -/
def Stack.fresh : Stack :=
  { retry := Retry.empty, rows := 8192, banks := 16, lanes := 80, retired := 0, xrows := false, xbanks := false, xlanes := false,
    ce := 0, ue := 0, phase := [], rowEvents := [], rowMap := [], bankMap := [], laneMap := [], degraded := [], active := none, waiting := [], toRetire := [], delayed := [] }

/-- An event channel (16 R419 to R421): its 32 bytes, pending records, sequence, records lost, records written to the host. -/
structure EventChan where
  cfg : BitVec 256
  configured : Bool
  pending : List (BitVec 256)
  seq : BitVec 32
  lost : Nat
  written : Nat
  unacked : List (BitVec 256)
  retries : Nat
  deriving DecidableEq, Repr

/-- An event channel that no CONFIG has set. -/
def EventChan.none : EventChan := ⟨0, false, [], 0, 0, 0, [], 0⟩

/-- A registered region (18 R441). -/
structure Region where
  base : Nat
  len : Nat
  rkey : Nat
  rd : Bool
  wr : Bool
  deriving DecidableEq, Repr

/-- One partition (01 R16). -/
structure Partition where
  root : Option Nat
  bind : Table Nat
  notices : List Word
  noticeSeq : BitVec 32
  channels : Table EventChan
  limitUs : Nat
  weights : Bool
  logging : Bool
  regions : Table Region
  claims : BitVec 18
  attached : Bool
  deriving DecidableEq, Repr

/-- A partition that management has not set up. -/
def Partition.fresh : Partition :=
  { root := none, bind := [], notices := [], noticeSeq := 0, channels := [], limitUs := 0, weights := false, logging := false,
    regions := [], claims := 0, attached := false }

/-- An issued packet that has not completed (16 R399). info is INFO0 of its COMPLETE event; lines and lost count the lines that a COPY has copied and the bytes it has
dropped (16 R404). -/
structure Issued where
  index : Nat
  packet : Block
  info : Word
  lines : Nat
  lost : Nat
  deriving DecidableEq, Repr

/-- A queue (16 R394, R395): its control block, the partition management assigned, its issued packets, the WAIT that holds and its index,
the packet fetched and not issued, and whether the packet at RDIDX stands rejected (16 R402). -/
structure Queue where
  cb : Block
  part : Option Nat
  issued : List Issued
  wait : Option (Nat × Block)
  fetched : Option Block
  rejected : Bool
  deriving DecidableEq, Repr

/-- A queue no partition owns. -/
def Queue.none : Queue := ⟨0, Option.none, [], Option.none, Option.none, false⟩

/-- One gang of a launch (16 R406, R408). saved holds the core of each rank while it is pre-empted, and its channels and pools with them
(14 R371). -/
structure Gang where
  shape : Word
  cluster : Option Nat
  origin : Nat
  channels : List Nat
  pools : List Nat
  loaded : Bool
  ended : Bool
  preempt : Preempt
  cores : List Nat
  saved : List (Nat × Core)
  savedChannels : Table Channel
  savedPools : Table Pool
  requested : Bool
  deriving DecidableEq, Repr

/-- A quiescence-detector instance (06 R145, R146). -/
structure Detector where
  gen : BitVec 32
  armed : Bool
  declared : BitVec 32
  everDeclared : Bool
  lastIdle : Bool
  activity : Bool
  placedSince : Bool
  quiet : Nat
  deriving DecidableEq, Repr

/-- A detector that nothing has armed. -/
def Detector.fresh : Detector := ⟨0, false, 0, false, false, false, false, 0⟩

/-- An issued launch (16 R405, R406). desc is the 256-byte descriptor. written counts the device-space sections already written, and the bytes of the next
one (03 R73). -/
structure Launch where
  queue : Nat
  index : Nat
  part : Nat
  desc : BitVec 2048
  gangs : Table Gang
  coresident : Bool
  imageOk : Bool
  image : Block
  sections : List (BitVec 256)
  written : Nat × Nat
  ending : Option (Nat × Word × Word)
  pan : Option Nat
  member : Nat
  detector : Detector
  deriving DecidableEq, Repr

/-- One member of a panorama (13 R334): its device, its state code, its holders, its launch when it is on this device. -/
structure Member where
  device : Nat
  state : Nat
  holders : List Nat
  launch : Option Nat
  rect : Nat
  cluster : Nat
  deriving DecidableEq, Repr

/-- A panorama (13 R333, 16 R414, R415); finished says that every member has departed and its packet has completed. attempt counts its prepares. ldescs are the members' launch descriptors and partitions; prepared lists the devices that have
answered the prepare in progress, places and busy their answers. attached lists the holds of this device's members on others as the sources see them: member and
member held; a member's holders are kept by its device, one entry for each hold. asks are attaches that wait for a PENDING member, asking the members of
this device and those elsewhere whose answer to an attach they expect. farSaved and
farBack say that every handler of the members elsewhere has signalled the end of its save or restore, ownSaved and ownBack that those here have (14 R371, R376). round is
the number of the pre-emption, reported lists the members elsewhere that have stopped in it, and drainAsks the devices that ask for the drain of the members here. -/
structure Panorama where
  panid : Nat
  committed : Bool
  queue : Nat
  index : Nat
  part : Nat
  domch : Nat
  domexp : Nat
  members : Table Member
  ldescs : Table (Nat × Nat)
  channels : List Nat
  preparing : Bool
  prepared : List Nat
  places : List PanPlace
  busy : List Nat
  attached : List (Nat × Nat)
  asking : List (Nat × Nat)
  asks : List RemoteReq
  held : List (Nat × Nat)
  frozen : Bool
  farSaved : Bool
  farBack : Bool
  ownSaved : Bool
  ownBack : Bool
  round : Nat
  reported : List Nat
  drainAsks : List (Nat × Nat)
  attempt : Nat
  finished : Bool
  ending : Option (Nat × Word × Word)
  detector : Detector
  deriving DecidableEq, Repr

/-- The torus router and its ports (13 R313 to R316), with the counts that a contact-sheet frame takes, by port (17 R437). waited counts the link slots that its
injector has waited, and asked lists the ports whose neighbours want one slot left empty (13 R314). -/
structure Router where
  inject : List Flit
  waited : Nat
  asked : List Nat
  down : List Nat
  replays : Table Nat
  outgoing : Table Flit
  discarded : Table Nat
  deflections : Table Nat
  sent : Table Nat
  unreachable : List Nat
  deriving DecidableEq, Repr

/-- A router with every link up and nothing to send. -/
def Router.fresh : Router := ⟨[], 0, [], [], [], [], [], [], [], []⟩

/-- A filmstrip record (17 R438). -/
structure FilmRec where
  seq : Nat
  time : Nat
  source : Nat
  code : Nat
  unit : Nat
  data : Word
  deriving DecidableEq, Repr

/-- A request that the intake holds while the front end is gated: a SEND, or one on a debug pair (18 R443, R444). -/
inductive Held where
  | send (d : DoorbellSend)
  | debug (qp : Nat) (r : DebugReq)
  deriving DecidableEq, Repr

/-- The host port (18 R439 to R443). link: 0 down, 1 up, 2 paused. priority is that which management assigned to the RoCEv2 traffic; intakeBytes counts the bytes
held. -/
structure HostPort where
  link : Nat
  intakeBytes : Nat
  paused : Bool
  gated : Bool
  held : List Held
  priority : Nat
  dropped : Nat
  qpPart : Table Nat
  qpDebug : List Nat
  qpError : List Nat
  deriving DecidableEq, Repr

/-- Management, firmware and power (18 R445 to R456, 16 R422). complex is the active command complex, 0 for A and 1 for B. banks says of a component that bank
B is active; images gives, by 2 × component + bank, the security version and the measurement of the image that a bank has taken; staged lists the components whose
inactive bank holds an accepted image, switched the clusters or stacks that already run it (18 R448), minimums the fused minimum. temps keeps the last temperature
reported for a die, and from 4 on for a stack. -/
structure Mgmt where
  service : Nat
  cap : Nat
  clock : Nat
  capped : Bool
  complex : Nat
  banks : Table Bool
  staged : List Nat
  images : Table (Nat × Nat)
  minimums : Table Nat
  pendingActivation : List Nat
  switched : List (Nat × Nat)
  debugBound : Bool
  sensorDrops : Nat
  temps : Table Nat
  deriving DecidableEq, Repr

/-- Management right after cold reset (18 R452, R454, R455). -/
def Mgmt.cold : Mgmt where
  service := 0
  cap := 2000
  clock := 1200
  capped := false
  complex := 0
  banks := []
  staged := []
  images := []
  minimums := []
  pendingActivation := []
  switched := []
  debugBound := false
  sensorDrops := 0
  temps := []

/-- What leaves the device. -/
inductive Output where
  | remoteRequest (r : RemoteReq)
  | remoteReply (device core slot : Nat) (reply : Reply)
  | message (m : Msg)
  | ack (device core seq fault : Nat)
  | reserve (r : ReserveReq)
  | grant (r : ReserveReq)
  | credit (r : ReserveReq)
  | barrier (panid chan member cell kind : Nat) (value : Word)
  | prepare (device : Nat) (a : PanAsk)
  | prepared (device key attempt : Nat) (ready : Bool) (places : List PanPlace) (busy : List Nat)
  | commit (device key attempt : Nat) (commit : Bool) (panid : Nat) (channels : List Nat) (places : List PanPlace)
  | attach (panid member holder : Nat)
  | detach (panid member holder : Nat)
  | colAbort (die seq fault : Nat)
  | colAsk (die : Nat) (ask : ColAsk)
  | colData (die seq bucket : Nat) (elems lost : List Nat)
  | flit (port : Nat) (f : Flit)
  | emptySlot (port : Nat)
  | eventRecords (hostAddr rkey qpn : Nat) (records : List (BitVec 256))
  | rdmaData (qp : Nat) (data : List Byte)
  | rdmaAck (qp : Nat)
  | nak (qp : Nat) (reason : Nat)
  | pfc (xoff : Bool)
  | ethernet (kind : Nat) (frame : List Byte)
  | debugReply (qp : Nat) (value : Word)
  | plain (protocol code : Nat) (args : List Nat)
  | sensorEvent (sensor value : Nat)
  deriving DecidableEq, Repr

/-- One device (01 R3): its cores, clusters, dies, stacks, memory, partitions, queues, launches and panoramas, its router, host
port and management; domain channels, the accesses from other devices that wait for a page here (13 R323), and the
writes of line caches that wait for a frame (07 R161, R175); panWaits, the admissions that found no room here, by key and device, whose coordinators are told of
what returns (16 R415); and the model's own fields: agenda (events that are due), event (the one being performed), outbox (what has left the device), current
(the strand whose word is in the pipeline), tick and draws. -/
structure State where
  device : BitVec 9
  cores : Table Core
  clusters : Table Cluster
  dies : Table Die
  hbm : Table Stack
  memory : Mem
  frames : List (Nat × Nat)
  tableNext : Nat
  tableFree : List (Nat × Nat)
  retired : List Nat
  parts : Table Partition
  queues : Table Queue
  blockCache : List Nat
  bells : List DoorbellSend
  launches : Table Launch
  nextLaunch : Nat
  pans : Table Panorama
  panCount : Nat
  panWaits : List (Nat × Nat)
  domain : Table Channel
  asleep : List RemoteReq
  backs : List LateWrite
  breaks : Table (BitVec 256)
  watches : Table (BitVec 256)
  router : Router
  host : HostPort
  mgmt : Mgmt
  film : List FilmRec
  filmSeq : Nat
  filmTime : Nat
  agenda : List Event
  event : Option Event
  outbox : List Output
  current : Option (Nat × Nat)
  tick : Nat
  draws : Nat
  deriving DecidableEq, Repr

/-- Why a step stops with a fault. -/
inductive Fault where
  /-- Raised by a word form, an operation or a special-register write when no strand is in the pipeline. Safe: the hardware has
  no such step, since a word is always a strand's (02 R53). -/
  | noIssuingStrand
  /-- Raised by an event's meaning when State.event is not an event of its row. Safe: step never does so. -/
  | noSuchEvent
  deriving DecidableEq, Repr

/-- Why a step gives no meaning. -/
inductive Refusal where
  /-- Raised by an arm of exec whose row has no meaning yet. Safe. -/
  | notModelled (mnemonic : String)
  deriving DecidableEq, Repr

/-- The device right after cold reset (18 R454, R455): safelight mode, no cell, no launch, every store blank. -/
def State.reset : State :=
  { device := 0
    cores := []
    clusters := [(0, Cluster.cold true), (1, Cluster.cold false), (2, Cluster.cold true), (3, Cluster.cold false),
      (4, Cluster.cold true), (5, Cluster.cold false), (6, Cluster.cold true), (7, Cluster.cold false)]
    dies := []
    hbm := []
    memory := Mem.blank
    frames := []
    tableNext := Config.tableStart
    tableFree := []
    retired := []
    parts := []
    queues := []
    blockCache := []
    bells := []
    launches := []
    nextLaunch := 0
    pans := []
    panCount := 0
    panWaits := []
    domain := []
    asleep := []
    backs := []
    breaks := []
    watches := []
    router := Router.fresh
    host := ⟨1, 0, false, false, [], 0, 0, [], [], []⟩
    mgmt := Mgmt.cold
    film := []
    filmSeq := 0
    filmTime := 0
    agenda := []
    event := none
    outbox := []
    current := none
    tick := 0
    draws := 0 }

end Sys2Proof.Machine
end

