-- ==== Sys2Proof/Machine/Operands.lean ====
section
/-! DEFINITION. Registers, ports, special registers and segments of one strand, and the sources and destinations of moves (02, 04, 07). -/

namespace Sys2Proof.Machine

/-- A fault of a word (14 R348, R353): code, cause, the address that ADDR records, and INFO. -/
structure FaultInfo where
  code : Nat
  cause : Nat
  addr : Option Word
  info : Word
  deriving DecidableEq, Repr

/-- A fault with no address. -/
def bare (code : Nat) : FaultInfo := ⟨code, 0, none, 0⟩

/-- A fault at a generic address. -/
def faultAt (code : Nat) (ea : Word) : FaultInfo := ⟨code, 0, some ea, 0⟩

/-- The fault codes of 14 R348. -/
def cIllegalWord : Nat := 0x01
def cPortConflict : Nat := 0x02
def cPrivilege : Nat := 0x03
def cSegLimit : Nat := 0x04
def cSegRights : Nat := 0x05
def cMisaligned : Nat := 0x06
def cPageInvalid : Nat := 0x07
def cDataLost : Nat := 0x08
def cDeparted : Nat := 0x09
def cCmdInvalid : Nat := 0x0A
def cSemRange : Nat := 0x0B
def cBarrierMember : Nat := 0x0C
def cBreakpoint : Nat := 0x0D
def cStep : Nat := 0x0E
def cSoftware : Nat := 0x0F
def cFetch : Nat := 0x10
def cUnreachable : Nat := 0x11

/-- The all-ones word. -/
def ones : Word := 0xFFFFFFFFFFFFFFFF

/-! ## Registers and ports -/

/-- x0 reads 0 (04 R76). -/
def Slot.readX (sl : Slot) (n : Nat) : Word := if n = 0 then 0 else sl.x.get 0 n

/-- x0 discards writes (04 R76). -/
def Slot.writeX (sl : Slot) (n : Nat) (v : Word) : Slot := if n = 0 then sl else { sl with x := sl.x.set n v }

/-- g0 reads 1 (04 R77). -/
def Slot.readG (sl : Slot) (n : Nat) : Bool := if n = 0 then true else sl.g.get false n

/-- g0 discards writes; g1 to g7 store bit 0 (04 R77). -/
def Slot.writeG (sl : Slot) (n : Nat) (v : Word) : Slot := if n = 0 then sl else { sl with g := sl.g.set n (v.getLsbD 0) }

/-- A result port that has never been triggered (02 R40). -/
def Port.init : Port := ⟨0, false, 0, 0⟩

/-- The result port at source address 0x40 + r (02 R39). -/
def Slot.port (sl : Slot) (r : Nat) : Port := sl.res.get Port.init r

/-- Delivers a result: the port is valid (02 R40). -/
def Slot.setRes (sl : Slot) (r : Nat) (v : Word) : Slot := { sl with res := sl.res.set r ⟨v, false, 0, 0⟩ }

/-- The operand port at destination address d, 0x40 to 0x60 (02 R38). -/
def Slot.operand (sl : Slot) (d : Nat) : Word := sl.opnd.get 0 d

/-- Result port numbers (02 R39), as address − 0x40. -/
def rAlu : Nat := 0x0
def rSh : Nat := 0x1
def rMul : Nat := 0x2
def rDiv : Nat := 0x3
def rCmp : Nat := 0x4
def rAdr : Nat := 0x5
def rBr : Nat := 0x6
def rStrand : Nat := 0x7
def rMsg : Nat := 0x8
def rLsu : Nat := 0x9
def rLsuh : Nat := 0xA
def rAmo : Nat := 0xB
def rFlt : Nat := 0xC
def rSem : Nat := 0xD
def rBar : Nat := 0xE
def rSys : Nat := 0xF
def rDbg : Nat := 0x10
def rCpy : Nat := 0x11
def rMx : Nat := 0x12
def rVx : Nat := 0x13
def rFab : Nat := 0x14
def rCol : Nat := 0x15

/-- The result port of a trigger block (02 R39, R43); the ord unit has none. -/
def blockPort (b : Nat) : Option Nat :=
  match b with
  | 0x04 => some rAlu
  | 0x05 => some rSh
  | 0x06 => some rMul
  | 0x07 => some rDiv
  | 0x08 => some rCmp
  | 0x09 => some rAdr
  | 0x0A => some rBr
  | 0x0B => some rLsu
  | 0x0C => some rAmo
  | 0x0D => some rFlt
  | 0x0E => some rStrand
  | 0x0F => some rMsg
  | 0x10 => some rSem
  | 0x11 => some rBar
  | 0x13 => some rSys
  | 0x14 => some rDbg
  | 0x18 => some rCpy
  | 0x19 => some rMx
  | 0x1A => some rVx
  | 0x1B => some rFab
  | 0x1C => some rCol
  | _ => none

/-- The trigger block of a destination address. -/
def blockOf (d : BitVec 14) : Nat := d.toNat / 64

/-- The operation's number within its block. -/
def opOf (d : BitVec 14) : Nat := d.toNat % 64

/-- A destination that is a trigger port (02 R35). -/
def isTrigger (d : BitVec 14) : Bool := decide (0x100 ≤ d.toNat) && decide (d.toNat < 0x800)

/-- The immediate units: alu, sh, mul, div, cmp, adr, br and flt (02 R44). -/
def isImmediate (b : Nat) : Bool := (decide (4 ≤ b) && decide (b ≤ 0xA)) || b == 0xD

/-! ## Segments -/

/-- A segment descriptor (07 R150). -/
structure Seg where
  base : Nat
  limit : Nat
  space : Nat
  rd : Bool
  wr : Bool
  ex : Bool
  at_ : Bool
  cn : Bool
  deriving DecidableEq, Repr

/-- The fields of the two halves of a descriptor; a LIMIT above 2^40 acts as 2^40 (07 R150). -/
def segOf (l h : Word) : Seg :=
  { base := bitsOf l.toNat 0 52, limit := min (bitsOf h.toNat 0 41) (2 ^ 40), space := bitsOf h.toNat 48 3,
    rd := h.getLsbD 52, wr := h.getLsbD 53, ex := h.getLsbD 54, at_ := h.getLsbD 55, cn := h.getLsbD 56 }

/-- The bits of SEGkL that are not RZ (07 R150). -/
def segLMask : Word := 0x000FFFFFFFFFFFFF

/-- The bits of SEGkH that are not RZ (07 R150). -/
def segHMask : Word := 0x01F701FFFFFFFFFF

/-- Segment sk of a strand. -/
def Slot.seg (sl : Slot) (k : Nat) : Seg := segOf (sl.segL.get 0 k) (sl.segH.get 0 k)

/-- The location of n bytes at offset f, or none outside the extent of the space (07 R151, 13 R321); members is
PANINFO.MEMBERS. A domain location carries its device above bit 41, and lies outside where no such device exists (13 R321; notes/assumptions/94.md). -/
def Seg.locate (g : Seg) (members f n : Nat) : Option Nat :=
  let l := g.base + f
  match g.space with
  | 1 => if l + n ≤ 0x180000 then some l else none
  | 2 => if l < 2 ^ 28 ∧ bitsOf l 21 7 < 96 ∧ bitsOf l 0 21 + n ≤ 0x180000 then some l else none
  | 3 =>
    if l < 2 ^ 37 ∧ l / 2 ^ 28 ≤ members ∧ bitsOf l 21 7 < 96 ∧ bitsOf l 0 21 + n ≤ 0x180000 then some l else none
  | 4 => if l + n ≤ 2 ^ 42 then some l else none
  | 5 =>
    let d := bitsOf g.base 42 9
    let v := bitsOf g.base 0 42 + f
    if d < 288 ∧ v + n ≤ 2 ^ 42 then some (d * 2 ^ 42 + v) else none
  | 6 => if l + n ≤ 0x400000 then some l else none
  | _ => none

/-- The segment number of a generic address (04 R78). -/
def segNo (ea : Word) : Nat := bitsOf ea.toNat 61 3

/-- The offset of a generic address (04 R78). -/
def offOf (ea : Word) : Nat := bitsOf ea.toNat 0 61

/-! ## Writes of registers, operand ports and special registers -/

/-- A write of FMODE: codes 5 to 7 store 0 (09 R224). -/
def fmodeOf (v : Word) : BitVec 3 := if 5 ≤ v.toNat % 8 then 0 else v.setWidth 3

/-- The write of special register n (02 R45, R46, 09 R223 to R225); a write to an RO register is ignored. -/
def Slot.writeSpecial (sl : Slot) (n : Nat) (v : Word) : Slot :=
  if n = 0x10 then { sl with fflags := v.setWidth 5 }
  else if n = 0x11 then { sl with fmode := fmodeOf v }
  else if n = 0x12 then { sl with srseed := v.setWidth 32 }
  else if 0x20 ≤ n ∧ n ≤ 0x2F then
    let k := (n - 0x20) / 2
    if n % 2 = 0 then { sl with stage := sl.stage.set k (v &&& segLMask) }
    else { sl with segL := sl.segL.set k (sl.stage.get 0 k), segH := sl.segH.set k (v &&& segHMask) }
  else sl

/-- The write of a destination that is no trigger (02 R35). -/
def Slot.writeDst (sl : Slot) (d : BitVec 14) (v : Word) : Slot :=
  let n := d.toNat
  if n < 0x20 then sl.writeX n v
  else if n < 0x28 then sl.writeG (n - 0x20) v
  else if 0x40 ≤ n ∧ n ≤ 0x60 then { sl with opnd := sl.opnd.set n v }
  else if 0x800 ≤ n then sl.writeSpecial (n - 0x800) v
  else sl

/-- A destination that is SEGkH: written after every other, so that a SEGkL of the same word is installed (02 R46). -/
def isSegH (d : BitVec 14) : Bool := decide (0x820 ≤ d.toNat) && decide (d.toNat ≤ 0x82F) && d.toNat % 2 == 1

/-- The plain writes of a word (02 R50, R46). -/
def Slot.writeMoves (sl : Slot) (ms : List MoveVal) : Slot :=
  let plain := ms.filter (fun m => !isTrigger m.dst)
  let first := plain.filter (fun m => !isSegH m.dst)
  let last := plain.filter (fun m => isSegH m.dst)
  (first ++ last).foldl (fun sl m => sl.writeDst m.dst m.val) sl

/-! ## Moves of a word -/

/-- A move as runWord takes it: its source is an immediate value or an address. -/
structure DMove where
  guard : BitVec 4
  dst : BitVec 14
  imm : Bool
  lit : Word
  src : BitVec 12
  isB : Bool
  deriving DecidableEq, Repr

/-- A move of a pair word (02 R28). -/
def DMove.ofMove (m : Move) (isB : Bool) : DMove :=
  ⟨m.guard, m.dst, m.imm, if m.imm then m.src.signExtend 64 else 0, m.src, isB⟩

/-- A word of one move with a literal value. -/
def DMove.ofLit (g : BitVec 4) (d : BitVec 14) (v : Word) : DMove := ⟨g, d, true, v, 0, false⟩

/-- A move is live when its guard, inverted or not, reads 1 (02 R32). -/
def Slot.live (sl : Slot) (m : DMove) : Bool := sl.readG (m.guard.toNat % 8) != m.guard.getLsbD 3

/-- A destination that only a handler may use (02 R43, R45): the H operations and SEGkL, SEGkH. -/
def needsHandler (d : BitVec 14) : Bool :=
  (decide (0x4C1 ≤ d.toNat) && decide (d.toNat ≤ 0x4C5)) || (decide (0x820 ≤ d.toNat) && decide (d.toNat ≤ 0x82F))

/-- A destination that triggers one of the 22 units (02 R43, R44). -/
def triggersUnit (d : BitVec 14) : Bool :=
  isTrigger d && (decide (blockOf d ≤ 0x14) || (decide (0x18 ≤ blockOf d) && decide (blockOf d ≤ 0x1C)))

/-- Two live moves of one word conflict (02 R44, R51). -/
def conflicts (a b : DMove) : Bool :=
  let ta := triggersUnit a.dst
  let tb := triggersUnit b.dst
  let calls (d : BitVec 14) := d == 0x282 || d == 0x283
  (a.dst == b.dst && a.dst != 0 && a.dst != 0x20)
  || (a.dst == 0x1E && calls b.dst) || (b.dst == 0x1E && calls a.dst)
  || (ta && tb && (blockOf a.dst == blockOf b.dst || (!isImmediate (blockOf a.dst) && !isImmediate (blockOf b.dst))))

/-- Whether two moves of a list conflict. -/
def anyConflict : List DMove → Bool
  | [] => false
  | m :: ms => ms.any (conflicts m) || anyConflict ms

/-- A source that is a result port (02 R36). -/
def srcPort (m : DMove) : Option Nat :=
  if m.imm then none else if 0x40 ≤ m.src.toNat ∧ m.src.toNat ≤ 0x55 then some (m.src.toNat - 0x40) else none

/-- A live move waits on a pending result port: that it reads, that its unit would write (02 R41), or flt.res when it reads or writes FFLAGS
(09 R223). -/
def Slot.waitsPort (sl : Slot) (m : DMove) : Bool :=
  (match srcPort m with
    | some r => (sl.port r).pending
    | none => false)
  || (if isTrigger m.dst then
        match blockPort (blockOf m.dst) with
        | some r => (sl.port r).pending
        | none => false
      else m.dst == 0x810 && (sl.port rFlt).pending)
  || (!m.imm && m.src == 0x110 && (sl.port rFlt).pending)

/-- The pending ports of a strand whose due cycle has come, delivered with their flags (02 R40, 09 R223). -/
def Slot.deliver (sl : Slot) (r : Nat) : Slot :=
  let p := sl.port r
  if p.pending then { sl with res := sl.res.set r ⟨p.val, false, 0, 0⟩, fflags := sl.fflags ||| p.flags } else sl

/-- A long operation's result stays pending until cycle due; where its word commits no sooner than the cycle before, it is valid at once (02 R54, 04 R90). -/
def Slot.later (sl : Slot) (r : Nat) (v : Word) (fl : BitVec 5) (due now : Nat) : Slot :=
  let sl := { sl with res := sl.res.set r ⟨v, true, due, fl⟩ }
  if due ≤ now + 1 then sl.deliver r else sl

/-- Every pending result completed and written (02 R58). Only div.res and flt.res are ever pending. -/
def Slot.drain (sl : Slot) : Slot := (sl.deliver rDiv).deliver rFlt

end Sys2Proof.Machine
end

