-- ==== Sys2Proof/Machine/Scalar.lean ====
section
/-! DEFINITION. The integer and address units alu, sh, mul, div, cmp and adr, and the br unit (04, 05). -/

namespace Sys2Proof.Machine

/-- What an immediate operation reads beside the strand's own slot: the core, the cycle of the word's issue, the present cycle, the word's offset and the offset after
it, PANINFO.MEMBERS and the core's decode tables. -/
structure ImmCtx where
  core : Nat
  cycle : Nat
  now : Nat
  here : Word
  next : Word
  members : Nat
  tables : Table Word

/-- Bits 31:0 of v, sign-extended. -/
def sext32 (v : Word) : Word := (v.setWidth 32).signExtend 64

/-- v clamped to lo … hi, as 64 bits. -/
def clampWord (lo hi v : Int) : Word := BitVec.ofInt 64 (max lo (min hi v))

/-- The alu operations (04 R85), by their number in the block. -/
def aluOp (k : Nat) (o t : Word) : Word :=
  match k with
  | 0 => o + t
  | 1 => o - t
  | 2 => t - o
  | 3 => o &&& t
  | 4 => o ||| t
  | 5 => o ^^^ t
  | 6 => o &&& ~~~t
  | 7 => if o.sle t then o else t
  | 8 => if t.sle o then o else t
  | 9 => if o.ule t then o else t
  | 10 => if t.ule o then o else t
  | 11 => sext32 (o + t)
  | 12 => sext32 (o - t)
  | 13 => clampWord (-(2 ^ 63)) (2 ^ 63 - 1) (o.toInt + t.toInt)
  | _ => if 2 ^ 64 ≤ o.toNat + t.toNat then ones else o + t

/-- The effective field length of 04 R86. -/
def fieldLen (t : Word) : Nat := min (bitsOf t.toNat 8 7) (64 - bitsOf t.toNat 0 6)

/-- Leading zero bits of an n-bit number. -/
def leadingZeros (n v : Nat) : Nat := if v = 0 then n else n - 1 - Nat.log2 v

/-- Trailing zero bits among the first n bits. -/
def trailingZeros : Nat → Nat → Nat
  | 0, _ => 0
  | n + 1, v => if v % 2 = 1 then 0 else 1 + trailingZeros n (v / 2)

/-- Ones among the first n bits. -/
def onesIn : Nat → Nat → Nat
  | 0, _ => 0
  | n + 1, v => v % 2 + onesIn n (v / 2)

/-- The first n bits in reverse order. -/
def reverseBits : Nat → Nat → Nat
  | 0, _ => 0
  | n + 1, v => (v % 2) * 2 ^ n + reverseBits n (v / 2)

/-- The first n bytes in reverse order. -/
def reverseBytes : Nat → Nat → Nat
  | 0, _ => 0
  | n + 1, v => (v % 256) * 256 ^ n + reverseBytes n (v / 256)

/-- The sh operations (04 R86, R87). -/
def shOp (k : Nat) (o p t : Word) : Word :=
  let a := t.toNat % 64
  let aw := t.toNat % 32
  let pos := t.toNat % 64
  let len := fieldLen t
  let field := bitsOf o.toNat pos len
  match k with
  | 0 => o <<< a
  | 1 => o >>> a
  | 2 => o.sshiftRight a
  | 3 => o.rotateLeft a
  | 4 => o.rotateRight a
  | 5 => if len = 0 then 0 else BitVec.ofInt 64 (signExt len field)
  | 6 => if len = 0 then 0 else BitVec.ofNat 64 field
  | 7 =>
    if len = 0 then o
    else BitVec.ofNat 64 (o.toNat - field * 2 ^ pos + (p.toNat % 2 ^ len) * 2 ^ pos)
  | 8 => BitVec.ofNat 64 (leadingZeros 64 t.toNat)
  | 9 => BitVec.ofNat 64 (trailingZeros 64 t.toNat)
  | 10 => BitVec.ofNat 64 (onesIn 64 t.toNat)
  | 11 => BitVec.ofNat 64 (reverseBits 64 t.toNat)
  | 12 => BitVec.ofNat 64 (reverseBytes 8 t.toNat)
  | 13 => sext32 (o <<< aw)
  | 14 => sext32 ((o.setWidth 32 >>> aw).setWidth 64)
  | _ => ((o.setWidth 32).sshiftRight aw).signExtend 64

/-- The mul operations (04 R88). -/
def mulOp (k : Nat) (o t : Word) : Word :=
  match k with
  | 0 => o * t
  | 1 => BitVec.ofInt 64 (o.toInt * t.toInt / 2 ^ 64)
  | 2 => BitVec.ofNat 64 (o.toNat * t.toNat / 2 ^ 64)
  | 3 => BitVec.ofInt 64 (o.toInt * (t.toNat : Int) / 2 ^ 64)
  | _ => sext32 (o * t)

/-- Quotient and remainder of the signed forms of w bits (04 R89). -/
def divSigned (w : Nat) (a b : Int) : Int × Int :=
  if b = 0 then (-1, a)
  else if b = -1 ∧ a = -(2 ^ (w - 1)) then (a, 0)
  else (Int.tdiv a b, Int.tmod a b)

/-- Quotient and remainder of the unsigned forms (04 R89). -/
def divUnsigned (a b : Nat) : Nat × Nat := if b = 0 then (2 ^ 64 - 1, a) else (a / b, a % b)

/-- The quotient and remainder that div operation k computes (04 R89). -/
def divPair (k : Nat) (o t : Word) : Int × Int :=
  if k = 1 ∨ k = 3 then
    let r := divUnsigned o.toNat t.toNat
    ((r.1 : Int), (r.2 : Int))
  else if k = 4 ∨ k = 5 then divSigned 32 (signExt 32 o.toNat) (signExt 32 t.toNat)
  else divSigned 64 o.toInt t.toInt

/-- The div operations (04 R89): even numbers but 2 return the quotient. -/
def divOp (k : Nat) (o t : Word) : Word :=
  let r := divPair k o t
  BitVec.ofInt 64 (if k = 2 ∨ k = 3 ∨ k = 5 then r.2 else r.1)

/-- The divisor of operation k is zero. -/
def divByZero (k : Nat) (t : Word) : Bool := if k = 4 ∨ k = 5 then t.toNat % 2 ^ 32 == 0 else t.toNat == 0

/-- The latency L of a div operation (04 R90). -/
def divLatency (k : Nat) (o t : Word) : Nat :=
  if divByZero k t then 18
  else
    let q := (divPair k o t).1.natAbs
    let n := if q = 0 then 0 else Nat.log2 q + 1
    18 + (n + 3) / 4

/-- The cmp operations' conditions (04 R91). -/
def cmpOp (k : Nat) (o t : Word) : Bool :=
  match k with
  | 0 => o == t
  | 1 => o != t
  | 2 => o.slt t
  | 3 => o.ult t
  | 4 => o.sle t
  | 5 => o.ule t
  | 6 => o.getLsbD (t.toNat % 64)
  | _ => !o.getLsbD (t.toNat % 64)

/-- A condition as a 64-bit value. -/
def boolWord (b : Bool) : Word := if b then 1 else 0

/-- adr.inseg (04 R94). -/
def adrInseg (sl : Slot) (members : Nat) (o t : Word) : Bool :=
  let g := sl.seg (segNo o)
  let n := bitsOf t.toNat 0 41
  let rights := (!t.getLsbD 41 || g.rd) && (!t.getLsbD 42 || g.wr) && (!t.getLsbD 43 || g.ex) && (!t.getLsbD 44 || g.at_)
  let writes := t.getLsbD 42 || t.getLsbD 44
  decide (1 ≤ g.space) && decide (g.space ≤ 6) && rights && !(writes && g.cn) && decide (n ≤ 2 ^ 40)
    && (n == 0 || (decide (offOf o + n ≤ g.limit) && (g.locate members (offOf o) n).isSome))

/-- adr.space (04 R95). -/
def adrSpace (g : Seg) : Word :=
  BitVec.ofNat 64 (g.space + (if g.rd then 16 else 0) + (if g.wr then 32 else 0) + (if g.ex then 64 else 0)
    + (if g.at_ then 128 else 0) + (if g.cn then 256 else 0))

/-- adr.tocw (04 R96); core is the package core number. -/
def adrTocw (core : Nat) (o t : Word) : Word :=
  let c := if o.getLsbD 63 then core % 96 else o.toNat % 128
  if t.toNat / 2 ^ 21 ≠ 0 ∨ t.toNat % 2 ^ 21 ≥ 0x180000 ∨ c ≥ 96 then ones
  else BitVec.ofNat 64 (c * 2 ^ 21 + t.toNat % 2 ^ 21)

/-- adr.topan (04 R96). -/
def adrTopan (o t : Word) : Word :=
  let m := o.toNat % 512
  if t.toNat / 2 ^ 28 ≠ 0 ∨ bitsOf t.toNat 21 7 ≥ 96 ∨ t.toNat % 2 ^ 21 ≥ 0x180000 ∨ m ≥ 288 then ones
  else BitVec.ofNat 64 (m * 2 ^ 28 + t.toNat % 2 ^ 28)

/-- The adr operations (04 R93). -/
def adrOp (cx : ImmCtx) (k : Nat) (o t : Word) (sl : Slot) : Word :=
  match k with
  | 0 => BitVec.ofNat 64 ((o.toNat % 8) * 2 ^ 61 + t.toNat % 2 ^ 61)
  | 1 => BitVec.ofNat 64 (segNo t)
  | 2 => BitVec.ofNat 64 (offOf t)
  | 3 => boolWord (adrInseg sl cx.members o t)
  | 4 => adrTocw cx.core o t
  | 5 => adrTopan o t
  | _ => adrSpace (sl.seg (segNo t))

/-- The target of br operation k (05 R99), as an exact integer. -/
def brTarget (k : Nat) (here o t : Word) : Int :=
  if k = 4 then (o.toNat : Int)
  else if k = 0 ∨ k = 2 then (t.toNat : Int)
  else (here.toNat : Int) + t.toInt

/-- Whether br operation k transfers control (05 R99). -/
def brTaken (k : Nat) (t : Word) : Bool := k != 4 || t != 0

/-- The value of br.res (05 R99). -/
def brResult (k : Nat) (next t : Word) : Word := if k = 4 then t - 1 else next

/-- The br operations (05 R99): SEG_LIMIT, then MISALIGNED, then the transfer. -/
def brOp (cx : ImmCtx) (k : Nat) (o t : Word) (sl : Slot) : Except FaultInfo Slot :=
  let v := brTarget k cx.here o t
  let ea := BitVec.ofInt 64 v
  let res := brResult k cx.next t
  if brTaken k t then
    if v < 0 ∨ v ≥ 2 ^ 40 then .error (faultAt cSegLimit ea)
    else if v % 8 ≠ 0 then .error (faultAt cMisaligned ea)
    else
      let sl := if k = 2 ∨ k = 3 then sl.writeX 30 cx.next else sl
      .ok ({ sl with pc := ea }.setRes rBr res)
  else .ok (sl.setRes rBr res)

end Sys2Proof.Machine
end

