-- ==== Sys2Proof/Machine/Float.lean ====
section
/-! DEFINITION. The flt unit (09 R234 to R240) and the immediate operations as one function of a strand's slot. -/

namespace Sys2Proof.Machine

/-- The operations that round, whose RM field is checked (09 R234). -/
def fltRounds (k : Nat) : Bool := decide (k ≤ 5) || k == 12 || k == 14

/-- A control field that raises ILLEGAL_WORD (09 R234, R235, R237, R238). -/
def fltIllegal (k : Nat) (q : Word) : Bool :=
  let fmt := bitsOf q.toNat 0 4
  let rm := bitsOf q.toNat 4 4
  let dfmt := bitsOf q.toNat 8 4
  (fltRounds k && !(decide (rm ≤ 4) || rm == 7))
  || (decide (k ≤ 11) && !(decide (fmt ≤ 1)))
  || (k == 12 && (fmt == 7 || fmt == 8 || dfmt == 7 || dfmt == 8))
  || (k == 14 && !(dfmt == 7 || dfmt == 8))

/-- The rounding mode that flt.q selects (09 R234). -/
def fltMode (q : Word) (fmode : BitVec 3) : Nat :=
  if bitsOf q.toNat 4 4 = 7 then fmode.toNat else bitsOf q.toNat 4 4

/-- The entries of decode table t of a core, as F19 codes; n is 256 (full view) or 16 (short view). -/
def tableView (tables : Table Word) (t n : Nat) : List Nat :=
  (List.range n).map (fun c => (tables.get 0 (256 * t + c)).toNat % 2 ^ 19)

/-- Whether operation k takes a stochastic step under RSR (09 R222, R237). -/
def fltSteps (k dfmt : Nat) : Bool := fltRounds k && !(k == 12 && dfmt == 0xE)

/-- The result of flt operation k with its flags (09 R235 to R238). -/
def fltCompute (tables : Table Word) (k mode : Nat) (seed : BitVec 32) (o t p q : Word) : Word × FFlags :=
  let fmt := bitsOf q.toNat 0 4
  let dfmt := bitsOf q.toNat 8 4
  let tbl := bitsOf q.toNat 12 2
  let sat := q.getLsbD 14
  let f := if fmt = 1 then Fmt.f64 else Fmt.f32
  let val (v : Word) : FVal := f.value (sourceBits fmt v)
  let draw := (lfsrStep seed).toNat
  let out (r : FRes) : Word × FFlags := (BitVec.ofNat 64 r.code, r.flags)
  let x := val o
  let y := val t
  let unordered := x.isNaN || y.isNaN
  match k with
  | 0 => out (fAdd f mode sat draw x y)
  | 1 => out (fAdd f mode sat draw x y.negate)
  | 2 => out (fMul f mode sat draw x y)
  | 3 => out (fDiv f mode sat draw x y)
  | 4 => out (fSqrt f mode sat draw y)
  | 5 => out (fFma f mode sat draw x y (val p))
  | 6 => out (fPick f false x y)
  | 7 => out (fPick f true x y)
  | 8 => (boolWord (!unordered && x.eqv y), snan x ||| snan y)
  | 9 => (boolWord (!unordered && x.lt y), if unordered then NV else 0)
  | 10 => (boolWord (!unordered && (x.lt y || x.eqv y)), if unordered then NV else 0)
  | 11 => (BitVec.ofNat 64 (fClass f y), 0)
  | 12 => let r := convert fmt dfmt mode sat draw t; (resultWord dfmt r.code, r.flags)
  | 13 => (BitVec.ofNat 64 (((tables.get 0 (256 * tbl + t.toNat % 256)).toNat % 2 ^ 19) * 2 ^ 13), 0)
  | _ => out (encodeTable (tableView tables tbl (if dfmt = 7 then 256 else 16)) mode sat draw (Fmt.f32.value (t.toNat % 2 ^ 32)))

/-- The flt operations on a slot (09 R235, R239): flt.div and flt.sqrt stay pending for 18 or 30 cycles. -/
def fltOp (cx : ImmCtx) (k : Nat) (t : Word) (sl : Slot) : Except FaultInfo Slot :=
  let q := sl.operand 0x54
  if fltIllegal k q then .error (bare cIllegalWord)
  else
    let mode := fltMode q sl.fmode
    let r := fltCompute cx.tables k mode sl.srseed (sl.operand 0x52) t (sl.operand 0x53) q
    let seed := if fltSteps k (bitsOf q.toNat 8 4) then seedAfter mode sl.srseed else sl.srseed
    if k = 3 ∨ k = 4 then
      let due := cx.cycle + (if bitsOf q.toNat 0 4 = 1 then 30 else 18)
      .ok ({ sl with srseed := seed }.later rFlt r.1 r.2 due cx.now)
    else .ok ({ sl with srseed := seed, fflags := sl.fflags ||| r.2 }.setRes rFlt r.1)

/-- The immediate operation at trigger address d with trigger value t (02 R43, R44). -/
def immOp (cx : ImmCtx) (d : BitVec 14) (t : Word) (sl : Slot) : Except FaultInfo Slot :=
  let k := opOf d
  match blockOf d with
  | 0x04 => .ok (sl.setRes rAlu (aluOp k (sl.operand 0x40) t))
  | 0x05 => .ok (sl.setRes rSh (shOp k (sl.operand 0x41) (sl.operand 0x42) t))
  | 0x06 => .ok (sl.setRes rMul (mulOp k (sl.operand 0x43) t))
  | 0x07 =>
    let o := sl.operand 0x44
    .ok (sl.later rDiv (divOp k o t) 0 (cx.cycle + divLatency k o t) cx.now)
  | 0x08 => .ok (sl.setRes rCmp (boolWord (cmpOp k (sl.operand 0x45) t)))
  | 0x09 => .ok (sl.setRes rAdr (adrOp cx k (sl.operand 0x46) t sl))
  | 0x0A => brOp cx k (sl.operand 0x47) t sl
  | _ => fltOp cx k t sl

/-- The immediate triggers of a word in the order of its moves (02 R50, R59). INFO and MOVEB come from the faulting move. -/
def immMoves (cx : ImmCtx) : List MoveVal → Slot → Except (FaultInfo × MoveVal) Slot
  | [], sl => .ok sl
  | m :: ms, sl =>
    match immOp cx m.dst m.val sl with
    | .ok sl' => immMoves cx ms sl'
    | .error f => .error (f, m)

end Sys2Proof.Machine
end

