-- ==== Sys2Proof/Machine/Mem.lean ====
section
/-! DEFINITION. Byte memory with full/empty bits and ECC granules, single accesses and the service of waiting accesses (07). -/

namespace Sys2Proof.Machine

/-! ## Bytes -/

/-- The byte at an address; an unlisted byte reads 0 (notes/assumptions/4.md). -/
def readCell : List Host.Cell → Nat → Byte
  | [], _ => 0
  | (k, b) :: r, a => if a = k then b else readCell r a

/-- Lists a byte before the first higher address, in the place of one listed already. -/
def insertCell : List Host.Cell → Nat → Byte → List Host.Cell
  | [], a, b => [(a, b)]
  | (k, v) :: r, a, b => if a < k then (a, b) :: (k, v) :: r else if a = k then (k, b) :: r else (k, v) :: insertCell r a b

/-- Writes a byte and keeps the canonical form: addresses strictly rising, no byte 0 listed. -/
def writeCell (l : List Host.Cell) (a : Nat) (b : Byte) : List Host.Cell := if b = 0 then l.filter (fun c => c.1 != a) else insertCell l a b

/-- Adds an index to a strictly rising list. -/
def insertNat (a : Nat) : List Nat → List Nat
  | [] => [a]
  | k :: r => if a < k then a :: k :: r else if a = k then k :: r else k :: insertNat a r

/-- Removes an index from a list. -/
def removeNat (a : Nat) (l : List Nat) : List Nat := l.filter (fun k => k != a)

/-- The canonical form of the byte list. -/
def cellsWf : List Host.Cell → Bool
  | [] => true
  | [c] => c.2 != 0
  | c :: d :: r => c.2 != 0 && decide (c.1 < d.1) && cellsWf (d :: r)

/-- The canonical form of an index list. -/
def natsWf : List Nat → Bool
  | [] => true
  | [_] => true
  | a :: b :: r => decide (a < b) && natsWf (b :: r)

/-- The canonical form of a memory. -/
def Mem.wf (m : Mem) : Bool := cellsWf m.bytes && natsWf m.empties && natsWf m.bad && natsWf m.found

/-- One byte of a memory. -/
def Mem.byte (m : Mem) (a : Nat) : Byte := readCell m.bytes a

/-- Writes one byte. -/
def Mem.setByte (m : Mem) (a : Nat) (b : Byte) : Mem := { m with bytes := writeCell m.bytes a b }

/-- n bytes from address a as a little-endian number (00 R1). -/
def Mem.read (m : Mem) (a : Nat) : Nat → Nat
  | 0 => 0
  | n + 1 => (m.byte a).toNat + 256 * Mem.read m (a + 1) n

/-- Stores the low n bytes of v from address a, little-endian (00 R1). -/
def Mem.store (m : Mem) (a : Nat) : Nat → Nat → Mem
  | 0, _ => m
  | n + 1, v => Mem.store (m.setByte a (BitVec.ofNat 8 v)) (a + 1) n (v / 256)

/-- The full/empty bit of word w; an unlisted word is full (07 R155). -/
def Mem.isFull (m : Mem) (w : Nat) : Bool := !m.empties.contains w

/-- Sets the full/empty bit of word w. -/
def Mem.setFull (m : Mem) (w : Nat) (full : Bool) : Mem :=
  { m with empties := if full then removeNat w m.empties else insertNat w m.empties }

/-- The ECC granules of g bytes that n bytes at a touch. -/
def granules (g a n : Nat) : List Nat := upFrom (a / g) ((a + n + g - 1) / g - a / g)

/-- Some granule of the range decodes as uncorrectable (07 R176). -/
def Mem.lost (g : Nat) (m : Mem) (a n : Nat) : Bool := (granules g a n).any (fun k => m.bad.contains k)

/-- A write of n bytes: a granule that is written whole is correct afterwards, any other keeps its state (07 R176). -/
def Mem.write (g : Nat) (m : Mem) (a n v : Nat) : Mem :=
  let m' := m.store a n v
  let stays (k : Nat) : Bool := !(decide (a ≤ k * g) && decide (k * g + g ≤ a + n))
  { m' with bad := m.bad.filter stays, found := m.found.filter stays }

/-- The bytes of a granule all lie in the ranges listed: address and length. -/
def coveredBy (g : Nat) (l : List (Nat × Nat)) (k : Nat) : Bool :=
  (List.range g).all (fun j => l.any (fun r => decide (r.1 ≤ k * g + j) && decide (k * g + j < r.1 + r.2)))

/-- The writes of one piece: the granules that they cover together are correct afterwards (07 R176). -/
def Mem.heal (g : Nat) (m : Mem) (l : List (Nat × Nat)) : Mem :=
  { m with bad := m.bad.filter (fun k => !coveredBy g l k), found := m.found.filter (fun k => !coveredBy g l k) }

/-- Marks a granule as uncorrectable. -/
def Mem.spoil (m : Mem) (k : Nat) : Mem := { m with bad := insertNat k m.bad }

/-- The granules of a range that are uncorrectable and not counted yet are counted: the memory, and their number (15 R391). -/
def Mem.count (m : Mem) (g a n : Nat) : Mem × Nat :=
  let new := (granules g a n).filter (fun k => m.bad.contains k && !m.found.contains k)
  ({ m with found := new.foldl (fun l k => insertNat k l) m.found }, new.length)

/-- n bytes at a become 0 with full bits and no lost granule. -/
def Mem.clearRange (m : Mem) (g a n : Nat) : Mem :=
  { bytes := m.bytes.filter (fun c => !(decide (a ≤ c.1) && decide (c.1 < a + n)))
    empties := m.empties.filter (fun w => !(decide (a ≤ 8 * w) && decide (8 * w < a + n)))
    bad := m.bad.filter (fun k => !(decide (a ≤ k * g) && decide (k * g < a + n)))
    found := m.found.filter (fun k => !(decide (a ≤ k * g) && decide (k * g < a + n))) }

/-- 64 bytes as a block (00 R1). -/
def Mem.block (m : Mem) (a : Nat) : Block := BitVec.ofNat 512 (m.read a 64)

/-- Bytes lo to lo + n − 1 of a block, as a number. -/
def blkField (b : Block) (byte n : Nat) : Nat := bitsOf b.toNat (8 * byte) (8 * n)

/-- A block with w bits at bit lo replaced by v. -/
def blkSet (b : Block) (lo w v : Nat) : Block :=
  BitVec.ofNat 512 (b.toNat - bitsOf b.toNat lo w * 2 ^ lo + (v % 2 ^ w) * 2 ^ lo)

/-! ## One access -/

/-- The words whose full/empty bits an access uses (07 R155). -/
def accWords (a : Access) : List Nat := if a.n = 16 then [a.addr / 8, a.addr / 8 + 1] else [a.addr / 8]

/-- The modes that wait: wait-full, consume and produce (07 R155). -/
def feWaits (fe : Nat) : Bool := fe == 1 || fe == 2 || fe == 3

/-- The modes that change the bit (07 R155). -/
def feChanges (fe : Nat) : Bool := decide (2 ≤ fe) && decide (fe ≤ 5)

/-- The access writes: a store, an amo, or a load whose mode changes the bit. -/
def accWrites (a : Access) : Bool :=
  match a.op with
  | .load => feChanges a.fe
  | _ => true

/-- The condition of the full/empty mode holds (07 R155). -/
def Mem.feHolds (m : Mem) (a : Access) : Bool :=
  if a.fe = 1 ∨ a.fe = 2 then (accWords a).all (fun w => m.isFull w)
  else if a.fe = 3 then (accWords a).all (fun w => !m.isFull w)
  else true

/-- The change of the bit (07 R155). -/
def Mem.feApply (m : Mem) (a : Access) : Mem :=
  if a.fe = 2 ∨ a.fe = 5 then (accWords a).foldl (fun m w => m.setFull w false) m
  else if a.fe = 3 ∨ a.fe = 4 then (accWords a).foldl (fun m w => m.setFull w true) m
  else m

/-- The new value and flags of amo operation k on w bytes (07 R181). -/
def amoNew (k w old t cmp : Nat) : Nat × FFlags :=
  let s (v : Nat) : Int := signExt (8 * w) v
  match k with
  | 0 => ((old + t) % 2 ^ (8 * w), 0)
  | 1 => (old &&& t, 0)
  | 2 => (old ||| t, 0)
  | 3 => (old ^^^ t, 0)
  | 4 => (if s old ≤ s t then old else t, 0)
  | 5 => (if s t ≤ s old then old else t, 0)
  | 6 => (if old ≤ t then old else t, 0)
  | 7 => (if t ≤ old then old else t, 0)
  | 8 => (t, 0)
  | 9 => (if old = cmp then t else old, 0)
  | _ =>
    let f := if w = 4 then Fmt.f32 else Fmt.f64
    let r := fAdd f 0 false 0 (f.value old) (f.value t)
    (r.code, r.flags)

/-- What a performed access leaves and returns: the memory, the value read, and flags. -/
structure Performed where
  mem : Mem
  value : Nat
  flags : FFlags
  deriving DecidableEq, Repr

/-- Performs an access with its change of the bit as one step; none is DATA_LOST (07 R176, R178, R181). -/
def Mem.perform (g : Nat) (m : Mem) (a : Access) : Option Performed :=
  match a.op with
  | .load => if m.lost g a.addr a.n then none else some ⟨m.feApply a, m.read a.addr a.n, 0⟩
  | .store => some ⟨(m.write g a.addr a.n (a.data.toNat % 2 ^ (8 * a.n))).feApply a, 0, 0⟩
  | .amo k =>
    if m.lost g a.addr a.n then none
    else
      let old := m.read a.addr a.n
      let r := amoNew k a.n old (a.data.toNat % 2 ^ (8 * a.n)) (a.cmp.toNat % 2 ^ (8 * a.n))
      some ⟨(m.write g a.addr a.n r.1).feApply a, old, r.2⟩

/-! ## Waiting accesses -/

/-- What a served waiter receives: the value and flags, or none for DATA_LOST. -/
abbrev Served := Waiter × Option (Nat × FFlags)

/-- The waiters of word w in order: each is performed while its condition holds, and the first that does not hold ends the
service (07 R156). stopped says that an earlier waiter of w was left. -/
def serveWord (g w : Nat) : Mem → Bool → List Waiter → Mem × List Waiter × List Served
  | m, _, [] => (m, [], [])
  | m, stopped, x :: xs =>
    if !(accWords x.acc).contains w || stopped || !m.feHolds x.acc then
      let r := serveWord g w m (stopped || (accWords x.acc).contains w) xs
      (r.1, x :: r.2.1, r.2.2)
    else
      match m.perform g x.acc with
      | some p =>
        let r := serveWord g w p.mem false xs
        (r.1, r.2.1, (x, some (p.value, p.flags)) :: r.2.2)
      | none =>
        let r := serveWord g w m false xs
        (r.1, r.2.1, (x, none) :: r.2.2)

/-- Serves the words listed, in turn. -/
def serveWords (g : Nat) : List Nat → Mem → List Waiter → Mem × List Waiter × List Served
  | [], m, ws => (m, ws, [])
  | w :: r, m, ws =>
    let a := serveWord g w m false ws
    let b := serveWords g r a.1 a.2.1
    (b.1, b.2.1, a.2.2 ++ b.2.2)

/-- Serves after a change of a bit, until no waiting access of any word is left whose turn and condition have come; each pass
serves at least one, so that as many passes as waiters suffice. -/
def serveAll (g : Nat) : Nat → Mem → List Waiter → Mem × List Waiter × List Served
  | 0, m, ws => (m, ws, [])
  | k + 1, m, ws =>
    let a := serveWords g (ws.flatMap (fun x => (accWords x.acc))) m ws
    let b := serveAll g k a.1 a.2.1
    (b.1, b.2.1, a.2.2 ++ b.2.2)

/-- Waiters that share a word with the access are already parked: a waiting access parks behind them (07 R156). -/
def mustQueue (ws : List Waiter) (a : Access) : Bool :=
  feWaits a.fe && ws.any (fun x => (accWords x.acc).any (fun w => (accWords a).contains w))

end Sys2Proof.Machine
end

