-- ==== Sys2Proof/Machine/Ops.lean ====
section
/-! DEFINITION. The named operations over the device: cores and slots, trace records, strand creation, taking a trap and returning from
one, stops, translation, the line cache, and accesses at their controllers (05 to 08, 14, 17). -/

namespace Sys2Proof.Machine

/-! ## Parts of the device -/

def State.core (s : State) (c : Nat) : Core := s.cores.get Core.idle c

def State.setCore (s : State) (c : Nat) (v : Core) : State := { s with cores := s.cores.set c v }

def Core.slot (k : Core) (i : Nat) : Slot := k.slots.get Slot.free i

def State.slot (s : State) (c i : Nat) : Slot := (s.core c).slot i

def Core.setSlot (k : Core) (i : Nat) (v : Slot) : Core := { k with slots := k.slots.set i v }

def State.setSlot (s : State) (c i : Nat) (v : Slot) : State := s.setCore c ((s.core c).setSlot i v)

def State.cluster (s : State) (n : Nat) : Cluster := s.clusters.get (Cluster.cold false) n

def State.setCluster (s : State) (n : Nat) (v : Cluster) : State := { s with clusters := s.clusters.set n v }

def State.die (s : State) (n : Nat) : Die := s.dies.get Die.warm n

def State.setDie (s : State) (n : Nat) (v : Die) : State := { s with dies := s.dies.set n v }

def State.stack (s : State) (n : Nat) : Stack := s.hbm.get Stack.fresh n

def State.setStack (s : State) (n : Nat) (v : Stack) : State := { s with hbm := s.hbm.set n v }

def State.part (s : State) (n : Nat) : Partition := s.parts.get Partition.fresh n

def State.setPart (s : State) (n : Nat) (v : Partition) : State := { s with parts := s.parts.set n v }

/-- Adds an event that is due. -/
def State.push (s : State) (e : Event) : State := { s with agenda := s.agenda ++ [e] }

/-- Adds an event unless it is due already. -/
def State.pushOnce (s : State) (e : Event) : State := if s.agenda.contains e then s else s.push e

/-- An event is due no longer. -/
def State.cancel (s : State) (e : Event) : State := { s with agenda := s.agenda.filter (fun x => x != e) }

/-- Adds something that leaves the device. -/
def State.emit (s : State) (o : Output) : State := { s with outbox := s.outbox ++ [o] }

/-- The cell fields of a core without a cell. -/
def Cell.vacant : Cell :=
  { launch := 0, gang := 0, part := 0, cellinfo := 0, geom := 0, paninfo := 0, sems := 0, spawn := false, handler := false, entry := 0,
    handlerAt := 0, storeDecl := 0, hmask := 0, hrec := 0, savesz := 0, segL := [], segH := [], preempt := .running,
    intakeOpen := true, ended := false }

/-- The cell of a core, or the vacant one. -/
def Core.cellD (k : Core) : Cell := k.cell.getD Cell.vacant

def State.cell (s : State) (c : Nat) : Cell := (s.core c).cellD

def State.mapCell (s : State) (c : Nat) (f : Cell → Cell) : State :=
  s.setCore c { s.core c with cell := (s.core c).cell.map f }

/-- The cluster of a package core (01 R11). -/
def clusterOf (c : Nat) : Nat := c / 96

/-- The die of a package core (01 R11). -/
def dieOf (c : Nat) : Nat := c / 192

/-- PANINFO fields (13 R317). -/
def panMember (w : Word) : Nat := bitsOf w.toNat 0 9
def panMembers (w : Word) : Nat := bitsOf w.toNat 9 9
def panValid (w : Word) : Bool := w.getLsbD 27
def panId (w : Word) : Nat := bitsOf w.toNat 32 16

/-- What an immediate operation reads beside its slot. -/
def State.immCtx (s : State) (c i : Nat) (here next : Word) : ImmCtx :=
  { core := c, cycle := (s.slot c i).issuedAt, now := (s.core c).cycles, here := here, next := next, members := panMembers (s.cell c).paninfo,
    tables := (s.core c).tables }

/-- Occupied slots are those not FREE (06 R115). -/
def Slot.occupied (sl : Slot) : Bool := sl.st != .free

/-- The indices of the slots listed that satisfy p. -/
def Core.slotsWhere (k : Core) (p : Slot → Bool) : List Nat := (k.slots.filter (fun e => p e.2)).map (·.1)

/-- Draws a free value (notes/assumptions/2.md). -/
def State.draw (s : State) : Word × State := (Config.freeValue s.draws, { s with draws := s.draws + 1 })

/-! ## The filmstrip (17 R438) -/

/-- An agent's event is recorded: the next SEQ, a time not before that of the last, and the oldest of 4,096 records overwritten. -/
def State.filmAdd (s : State) (source code unit : Nat) (data : Word) : State :=
  let d := s.draw
  let t := d.2.filmTime + d.1.toNat
  let film := d.2.film ++ [⟨d.2.filmSeq + 1, t, source, code, unit, data⟩]
  { d.2 with film := film.drop (film.length - 4096), filmSeq := d.2.filmSeq + 1, filmTime := t }

/-- A reset of a level is recorded before it takes effect (18 R454). -/
def State.filmReset (s : State) (source unit level : Nat) : State := s.filmAdd source 0x40 unit (BitVec.ofNat 64 level)

/-! ## Trace records (17 R434 to R436) -/

/-- Stores 8-byte words into the trace buffer from stream position j. -/
def traceStore (base log2w : Nat) : Nat → List Word → Mem → Mem
  | _, [], m => m
  | j, w :: ws, m => traceStore base log2w (j + 1) ws (m.write 32 (base + 8 * (j % 2 ^ log2w)) 8 w.toNat)

/-- The header word of a record (17 R435). -/
def traceHeader (kind len core slot count : Nat) : Word :=
  BitVec.ofNat 64 (0xA5 * 2 ^ 56 + kind * 2 ^ 52 + len * 2 ^ 48 + core * 2 ^ 38 + slot * 2 ^ 30 + count)

/-- Whether a record of this kind and partition is traced (17 R435). -/
def Trace.on (t : Trace) (kind part : Nat) : Bool := t.en && t.kinden.getLsbD (kind - 1) && t.parts.getLsbD part

/-- Appends a record of words (header included) to a cluster's trace; false where it is off or dropped (17 R431, R436). -/
def State.trace (s : State) (cl kind part : Nat) (ws : List Word) : State × Bool :=
  let k := s.cluster cl
  let t := k.trace
  if !t.on kind part then (s, false)
  else
    let free := 2 ^ t.log2w - (t.wr - t.rd).toNat
    if free < ws.length then
      (s.setCluster cl { k with trace := { t with dropped := min (t.dropped + 1) (2 ^ 30 - 1) } }, false)
    else
      let gap := decide (t.dropped ≠ 0) && decide (ws.length + 1 ≤ free)
      let all := if gap then traceHeader 0 1 0 0 t.dropped :: ws else ws
      let t' := { t with wr := t.wr + BitVec.ofNat 64 all.length, dropped := if gap then 0 else t.dropped }
      ({ s.setCluster cl { k with trace := t' } with memory := traceStore t.base.toNat t.log2w t.wr.toNat all s.memory }, true)

/-- A record of a strand: CYCLES, GSI and the words given (17 R435). -/
def State.traceStrand (s : State) (c i kind len : Nat) (ws : List Word) : State × Bool :=
  s.trace (clusterOf c) kind (s.cell c).part
    (traceHeader kind len c i 0 :: BitVec.ofNat 64 (s.core c).cycles :: (s.slot c i).gsi :: ws)

/-! ## Activity of a launch (06 R145) -/

/-- Sets a launch's activity bit, and that of its panorama. -/
def State.noteActivity (s : State) (launch : Nat) : State :=
  { s with
    launches := s.launches.map (fun e =>
      if e.1 = launch then (e.1, { e.2 with detector := { e.2.detector with activity := true } }) else e)
    pans := s.pans.map (fun e =>
      if (e.2.members.any (fun m => m.2.launch == some launch)) then
        (e.1, { e.2 with detector := { e.2.detector with activity := true } }) else e) }

/-- A strand in one of the waits that count as idle (06 R145). -/
def Slot.idleWait (sl : Slot) : Bool :=
  match sl.st with
  | .free => true
  | .waitSem => true
  | .waitFe => true
  | .waitBar => true
  | .waitMsg => true
  | .waitPool => true
  | .waitJoin => true
  | .waitQuiet => true
  | .sleep => sl.park == some (.sleep none)
  | _ => false

/-- The strand of a slot leaves the state that it is in: out of one of the idle waits it sets the activity bit of its launch (06 R145). -/
def State.leaving (s : State) (c i : Nat) : State :=
  let k := s.core c
  if (k.slot i).st != .free && (k.slot i).idleWait then s.noteActivity k.cellD.launch else s

/-! ## Creation of a strand (06 R118, R128, 09 R226, 17 R423) -/

/-- The next serial of a slot, skipping 0 (06 R118). -/
def nextSerial (n : BitVec 24) : BitVec 24 := if n + 1 = 0 then 1 else n + 1

/-- The GSI of the count-th strand that core c creates (17 R423). -/
def gsiOf (device : BitVec 9) (part c : Nat) (count : BitVec 30) : Word :=
  BitVec.ofNat 64 (device.toNat * 2 ^ 44 + part * 2 ^ 40 + count.toNat * 2 ^ 10 + c)

/-- What a creating path gives a new strand. -/
structure Birth where
  pc : Word
  x : Table Word
  segL : Table Word
  segH : Table Word
  fmode : BitVec 3
  base : BitVec 2

/-- The state of a new strand in a slot that was old (06 R128). -/
def newSlot (old : Slot) (b : Birth) (gsi : Word) (handler : Bool) (at_ : Nat) : Slot :=
  { Slot.free with
    st := .ready, serial := nextSerial old.serial, pc := b.pc, x := b.x, segL := b.segL, segH := b.segH, fmode := b.fmode,
    srseed := gsi.setWidth 32 ^^^ 0x9E3779B9, base := b.base, level := if handler then 1 else 0, gsi := gsi, readyAt := at_ }

/-- Creates a strand in slot i of core c; it is READY in the next cycle (06 R128). -/
def State.create (s : State) (c i : Nat) (b : Birth) : State :=
  let k := s.core c
  let count := k.created + 1
  let gsi := gsiOf s.device k.cellD.part c count
  let s := s.setCore c { k.setSlot i (newSlot (k.slot i) b gsi (i == 255) (k.cycles + 1)) with created := count }
  ((s.traceStrand c i 4 4 [0]).1).noteActivity k.cellD.launch

/-- The lowest FREE slot of 0 to 254 (06 R127, R141). -/
def Core.freeSlot (k : Core) : Option Nat := (List.range 255).find? (fun i => !(k.slot i).occupied)

/-- Every strand of the core whose word waits for the stop of slot i gets its reply as an event; a handler's kill that waits for it is carried out then
(14 R356). -/
def State.answerStops (s : State) (c i : Nat) : State :=
  let s := if (s.slot c i).killBy.isSome then s.pushOnce (.trapDisposal (clusterOf c) c i) else s
  ((s.core c).slotsWhere (fun sl => match sl.held with
    | some h => (match h.why with | .stopping j _ => j == i | _ => false)
    | none => false)).foldl (fun s j => s.push (.remoteAccessReply c j (.value 1 0))) s

/-! ## Taking a trap (14 R348 to R353) -/

/-- The fields of a trap record that the core writes (14 R353). -/
def trapRecord (sl : Slot) (i : Nat) (f : FaultInfo) (moveB : Bool) (pc word : Word) : Block :=
  let put (byte : Nat) (v : Nat) : Nat := v * 2 ^ (8 * byte)
  BitVec.ofNat 512
    (put 1 f.code + put 2 f.cause + put 3 i
      + put 4 ((if moveB then 1 else 0) + (if f.addr.isSome then 2 else 0))
      + put 8 pc.toNat + put 16 (if f.code = cFetch then 0 else word.toNat)
      + put 24 (f.addr.getD 0).toNat + put 32 f.info.toNat + put 40 sl.gsi.toNat + put 56 sl.serial.toNat)

/-- A fault of slot i in a cycle joins those whose records are not written yet: in order, and a lower slot first among those of one cycle (14 R352). -/
def addFault (i now : Nat) : List (Nat × Nat) → List (Nat × Nat)
  | [] => [(i, now)]
  | (j, t) :: r => if t = now ∧ i < j then (i, now) :: (j, t) :: r else (j, t) :: addFault i now r

/-- When every strand of a stopping cell is STOPPED or FREE its gang may start its save handlers (14 R369). -/
def State.checkSaved (s : State) (c : Nat) : State :=
  let k := s.core c
  if k.cellD.preempt = .stopped && k.slots.all (fun e => e.2.st == .free || e.2.st == .stopped) then
    s.push (.saveHandlerStart k.cellD.launch k.cellD.gang)
  else s

/-- The slot of a strand that enters TRAPPED: with its record, pending results completed first, and the step mark cleared (14 R350, R351, 17 R433). -/
def Slot.trapAt (sl : Slot) (i : Nat) (f : FaultInfo) (moveB : Bool) (pc word : Word) : Slot :=
  { sl.drain with
    st := .trapped, pc := pc, held := none, fetch := none, units := [], step := false, stopReq := false
    trap := some (trapRecord sl.drain i f moveB pc word) }

/-- The strand enters TRAPPED, and its fault is traced (17 R435). -/
def State.enterTrap (s : State) (c i : Nat) (f : FaultInfo) (moveB : Bool) (pc word : Word) : State :=
  let s := s.leaving c i
  let s := { s.setSlot c i ((s.slot c i).trapAt i f moveB pc word) with current := if s.current = some (c, i) then none else s.current }
  (s.traceStrand c i 3 5 [pc, BitVec.ofNat 64 (f.code + 256 * f.cause)]).1

/-- Taking a trap (14 R350, R352): the strand enters TRAPPED, and the mailbox write of its record follows as an event. In the stop phase of a pre-emption the
record is withdrawn and the strand is STOPPED (14 R369). -/
def State.trap (s : State) (c i : Nat) (f : FaultInfo) (moveB : Bool) (pc word : Word) : State :=
  let s := s.enterTrap c i f moveB pc word
  if (s.cell c).preempt == .stopped then
    ((s.setSlot c i { s.slot c i with st := .stopped, trap := none }).answerStops c i).checkSaved c
  else
    let s := s.setCore c { s.core c with faults := addFault i (s.core c).cycles (s.core c).faults }
    (s.push (.mailboxRecordWrite c i)).answerStops c i

/-! ## Waits that survive a stop (02 R48, R56) -/

/-- The slot state of a parked wait (06 R115). -/
def Park.state : Park → SlotState
  | .sem .. => .waitSem
  | .bar .. => .waitBar
  | .msg .. => .waitMsg
  | .pool .. => .waitPool
  | .join .. => .waitJoin
  | .quiet .. => .waitQuiet
  | .sleep .. => .sleep

/-- WAITDESC of a wait (02 R48; 06 R130, R132, R139, R143, R147; 08 R200, R211); now is the core's cycle. -/
def Park.desc (now : Nat) : Park → Word
  | .sem i arr a => BitVec.ofNat 64 (1 + (i + (if arr then 1024 else 0)) * 2 ^ 16 + a * 2 ^ 32)
  | .bar ch d kind ph => BitVec.ofNat 64 (2 + (ch + (if d then 32 else 0) + kind * 64) * 2 ^ 16 + ph * 2 ^ 32)
  | .msg r p => BitVec.ofNat 64 (3 + r * 2 ^ 16 + p * 2 ^ 32)
  | .pool p => BitVec.ofNat 64 (4 + p * 2 ^ 16)
  | .join sl n => BitVec.ofNat 64 (5 + sl * 2 ^ 16 + n * 2 ^ 32)
  | .quiet n => BitVec.ofNat 64 (6 + n * 2 ^ 32)
  | .sleep (some t) => BitVec.ofNat 64 (7 + (t - now) * 2 ^ 32)
  | .sleep none => BitVec.ofNat 64 (7 + 0xFFFFFFFF * 2 ^ 32)

/-! ## Semaphores: posts and waiters (08 R197 to R203) -/

def Core.sem (k : Core) (i : Nat) : Sem := k.sems.get Sem.load i

def Core.setSem (k : Core) (i : Nat) (v : Sem) : Core := { k with sems := k.sems.set i v }

/-- A wait ends: the result port takes v, the age is 0, and the strand is READY in the next cycle (06 R116, R122). -/
def State.wake (s : State) (c i port : Nat) (v : Word) : State :=
  let k := s.core c
  let sl := (k.slot i).setRes port v
  (s.setSlot c i { sl with st := .ready, park := none, age := 0, readyAt := k.cycles + 1 }).noteActivity k.cellD.launch

/-- Wakes every strand of a list with its own value. -/
def State.wakeAll (s : State) (c port : Nat) (l : List (Nat × Word)) : State :=
  l.foldl (fun s e => s.wake c e.1 port e.2) s

/-- ServeCounting (08 R199): the count and waiters left, and the waiters released with their results. -/
def serveCounting : Nat → List (Nat × Nat) → Nat × List (Nat × Nat) × List (Nat × Word)
  | count, [] => (count, [], [])
  | count, (w, n) :: r =>
    if count < n then (count, (w, n) :: r, [])
    else
      let a := serveCounting (count - n) r
      (a.1, a.2.1, (w, BitVec.ofNat 64 (count - n)) :: a.2.2)

/-- The loop of 08 R199 in arrival mode: COUNT falls below TARGET and GEN advances by the quotient. -/
def Sem.advance (m : Sem) : Sem :=
  let t := m.target.toNat
  if t = 0 then m
  else { m with count := BitVec.ofNat 64 (m.count.toNat % t), gen := m.gen + BitVec.ofNat 32 (m.count.toNat / t) }

/-- Post(i, n) (08 R199): the semaphore afterwards, and the waiters released with their results. -/
def Sem.post (m : Sem) (n : Nat) : Sem × List (Nat × Word) :=
  let m := { m with count := BitVec.ofNat 64 (min (m.count.toNat + n) (2 ^ 64 - 1)) }
  if m.arrival then
    let m' := m.advance
    if m'.gen ≠ m.gen then ({ m' with waiters := [] }, m.waiters.map (fun w => (w.1, m'.gen.setWidth 64))) else (m', [])
  else
    let r := serveCounting m.count.toNat m.waiters
    ({ m with count := BitVec.ofNat 64 r.1, waiters := r.2.1 }, r.2.2)

/-- The collective commands of core c that are gated on semaphore i may be able to read their next bucket (13 R342). -/
def State.kickGates (s : State) (c i : Nat) : State :=
  ((s.die (dieOf c)).col.cmds.filter (fun m =>
      m.core == c && m.active && m.blk.getLsbD 10 && bitsOf m.blk.toNat 288 10 == i)).foldl (fun s m =>
    let e := Event.colBucket (dieOf c) m.seq []
    if s.agenda.contains e then s else s.push e) s

/-- A post to semaphore i of core c (08 R199). -/
def State.post (s : State) (c i n : Nat) : State :=
  let k := s.core c
  let r := (k.sem i).post n
  ((s.setCore c (k.setSem i r.1)).wakeAll c rSem r.2).kickGates c i

/-- A waiter leaves the list other than by release; the waiters behind it are served at once (08 R199, R203). -/
def State.leaveSem (s : State) (c i slot : Nat) : State :=
  let k := s.core c
  let m := k.sem i
  let m := { m with waiters := m.waiters.filter (fun w => w.1 != slot) }
  if m.arrival then s.setCore c (k.setSem i m)
  else
    let r := serveCounting m.count.toNat m.waiters
    (s.setCore c (k.setSem i { m with count := BitVec.ofNat 64 r.1, waiters := r.2.1 })).wakeAll c rSem r.2.2

/-! ## Stops (02 R57, R58; 14 R350) -/

/-- A parked strand leaves the lists that it waits on. -/
def State.leaveWait (s : State) (c i : Nat) : State :=
  match (s.slot c i).park with
  | some (.sem m _ _) => s.leaveSem c m i
  | some (.pool p) =>
    let cl := clusterOf c
    let k := s.cluster cl
    let q := k.pools.get Pool.free p
    s.setCluster cl { k with pools := k.pools.set p { q with takers := q.takers.filter (fun t => t != (c, i)) } }
  | _ => s

/-- A strand leaves the line of words that wait for an engine slot (02 R55), and that of records not yet written (14 R352). -/
def State.leaveLine (s : State) (c i : Nat) : State :=
  let k := s.core c
  s.setCore c { k with slotWait := k.slotWait.filter (fun e => e.1 != i), faults := k.faults.filter (fun e => e.1 != i) }

/-- The strand is STOPPED at a word boundary: results drained, its wait recorded in WAITDESC (02 R57, R58). -/
def State.toStopped (s : State) (c i : Nat) : State :=
  let s := (s.leaving c i).leaveWait c i
  let sl := (s.slot c i).drain
  let sl' := { sl with
    st := .stopped, waitdesc := (match sl.park with | some p => p.desc (s.core c).cycles | none => sl.waitdesc)
    park := none, held := none, fetch := none, units := [], stopReq := false, age := 0 }
  let s := { s.setSlot c i sl' with current := if s.current = some (c, i) then none else s.current }
  ((s.leaveLine c i).answerStops c i).checkSaved c

/-- The first cycle in which a strand whose word retires now may issue again: the next one, and no sooner than 8 cycles after the word's issue
(02 R53, R54). -/
def State.readyFrom (s : State) (c : Nat) (sl : Slot) : Nat := max ((s.core c).cycles + 1) (sl.issuedAt + 8)

/-- What happens at the retirement of a word whose slot is already updated: a STEP stop, a pending stop, or READY (17 R433, 02 R57, R53).
here and word are the retired word's; stepped says that its strand's step mark was armed before it. -/
def State.settle (s : State) (c i : Nat) (here word : Word) (stepped : Bool) : State :=
  let sl := s.slot c i
  let s := { s with current := if s.current = some (c, i) then none else s.current }
  if stepped then
    let f : FaultInfo := ⟨cStep, 0, some (BitVec.ofNat 64 (7 * 2 ^ 61 + here.toNat)), 0⟩
    let now := (s.core c).cycles
    let s := (s.setSlot c i { sl with waitdesc := (match sl.park with | some p => p.desc now | none => 0) }).leaveWait c i
    let s := s.setSlot c i { s.slot c i with park := none }
    s.trap c i f false sl.pc word
  else if sl.stopReq then s.toStopped c i
  else
    match sl.park with
    | some p => s.setSlot c i { sl with st := p.state, held := none, fetch := none, skipBreak := false }
    | none => s.setSlot c i { sl with st := .ready, held := none, fetch := none, skipBreak := false, readyAt := s.readyFrom c sl }

/-! ## Return from a stop (14 R365) -/

/-- A strand resumes at its captured pc: READY in the next cycle, with no breakpoint match for its first word (14 R365, 17 R427). -/
def State.resumeReady (s : State) (c i : Nat) : State :=
  let sl := s.slot c i
  s.setSlot c i { sl with
    st := .ready, waitdesc := 0, park := none, held := none, fetch := none, units := [], trap := none, skipBreak := true, age := 0,
    readyAt := (s.core c).cycles + 1 }

/-! ## Translation (07 R167 to R170) -/

/-- What a walk of the tables finds. -/
inductive Walk where
  | invalid
  | leaf (entry : Word) (size : Nat) (at_ : Nat)
  deriving DecidableEq, Repr

/-- The levels: shift of the index, number of entries (07 R167). -/
def levelShift (l : Nat) : Nat := match l with | 1 => 30 | 2 => 21 | _ => 16
def levelEntries (l : Nat) : Nat := match l with | 1 => 4096 | 2 => 512 | _ => 32

/-- A malformed entry at a level (07 R168). -/
def malformed (l : Nat) (e : Word) : Bool :=
  let v := e.toNat
  let type := bitsOf v 1 2
  if type = 0 then
    l == 3 || bitsOf v 3 5 != 0 || bitsOf v 40 24 != 0 || decide (bitsOf v 8 32 * 256 % (8 * levelEntries (l + 1)) ≠ 0)
      || decide (Config.physBytes ≤ bitsOf v 8 32 * 256)
  else if type = 1 then
    bitsOf v 10 6 != 0 || bitsOf v 40 8 != 0 || (l == 2 && bitsOf v 16 5 != 0) || (l == 1 && bitsOf v 16 14 != 0)
      || decide (Config.physBytes ≤ bitsOf v 16 24 * 2 ^ 16)
  else true

/-- The address of the entry of va in a table at level l. -/
def entryAt (l base va : Nat) : Nat := base + 8 * (va / 2 ^ levelShift l % levelEntries l)

/-- The walk from a table at level l; fuel is the levels left (07 R167, R168). -/
def walkFrom (m : Mem) (va : Nat) : Nat → Nat → Nat → Walk
  | 0, _, _ => .invalid
  | fuel + 1, l, base =>
    let a := entryAt l base va
    let e : Word := BitVec.ofNat 64 (m.read a 8)
    if !e.getLsbD 0 || malformed l e then .invalid
    else if bitsOf e.toNat 1 2 = 1 then .leaf e (2 ^ levelShift l) a
    else walkFrom m va fuel (l + 1) (bitsOf e.toNat 8 32 * 256)

/-- The walk of a partition's tables. -/
def State.walk (s : State) (part va : Nat) : Walk :=
  match (s.part part).root with
  | none => .invalid
  | some r => walkFrom s.memory va 3 1 r

/-- Fields of a page entry (07 R168). -/
def pteRd (e : Word) : Bool := e.getLsbD 3
def pteWr (e : Word) : Bool := e.getLsbD 4
def pteEx (e : Word) : Bool := e.getLsbD 5
def pteP (e : Word) : Bool := e.getLsbD 6
def pteDisc (e : Word) : Bool := e.getLsbD 8
def pteLost (e : Word) : Bool := e.getLsbD 9
def pteFrame (e : Word) : Nat := bitsOf e.toNat 16 24 * 2 ^ 16

/-- A TLB's entry for a virtual address. -/
def tlbFind (l : List TlbEntry) (part va : Nat) : Option TlbEntry :=
  l.find? (fun e => e.part == part && decide (e.va ≤ va) && decide (va < e.va + e.size))

/-- A TLB with an entry added, within its capacity. -/
def tlbAdd (cap : Nat) (l : List TlbEntry) (e : TlbEntry) : List TlbEntry :=
  (e :: l.filter (fun x => !(x.part == e.part && x.va == e.va))).take cap

/-- Looks up the port TLB, then the die TLB, then walks; an entry that may be kept is kept in both (07 R170). -/
def State.lookup (s : State) (cl part va : Nat) : State × Option (Word × Nat) :=
  match tlbFind (s.cluster cl).tlb part va with
  | some e => (s, some (e.entry, e.size))
  | none =>
    let keep (s : State) (t : TlbEntry) : State :=
      let s := s.setCluster cl { s.cluster cl with tlb := tlbAdd 256 (s.cluster cl).tlb t }
      let d := s.die (cl / 2)
      s.setDie (cl / 2) { d with tlb := tlbAdd 768 d.tlb t }
    match tlbFind (s.die (cl / 2)).tlb part va with
    | some e => (keep s e, some (e.entry, e.size))
    | none =>
      match s.walk part va with
      | .invalid => (s, none)
      | .leaf e size _ =>
        if pteP e && !pteLost e then (keep s ⟨part, va / size * size, size, e⟩, some (e, size)) else (s, some (e, size))

/-- The outcome of a translation (07 R169): a physical address, whether the page is discarded, a fault, or a park. -/
inductive Xlat where
  | ok (phys : Nat) (disc : Bool) (wok : Bool)
  | fault (code : Nat)
  | park
  deriving DecidableEq, Repr

/-- Translates for the rights asked (07 R169). -/
def State.translate (s : State) (cl part va : Nat) (rd wr : Bool) : State × Xlat :=
  let r := s.lookup cl part va
  match r.2 with
  | none => (r.1, .fault cPageInvalid)
  | some (e, size) =>
    if pteLost e then (r.1, .fault cDataLost)
    else if (rd && !pteRd e) || (wr && !pteWr e) then (r.1, .fault cPageInvalid)
    else if !pteP e then (r.1, .park)
    else (r.1, .ok (pteFrame e + va % size) (pteDisc e) (pteWr e))

/-- Removes every TLB entry of a range of a partition, and clears WOK of its lines in every line cache (07 R160, R170). -/
def State.flushTlb (s : State) (part va size : Nat) : State :=
  let hit (e : TlbEntry) : Bool := e.part == part && decide (e.va < va + size) && decide (va < e.va + e.size)
  let drop (l : List TlbEntry) := l.filter (fun e => !hit e)
  { s with
    clusters := s.clusters.map (fun e => (e.1, { e.2 with tlb := drop e.2.tlb }))
    dies := s.dies.map (fun e => (e.1, { e.2 with tlb := drop e.2.tlb }))
    cores := s.cores.map (fun e => (e.1, { e.2 with lines := e.2.lines.map (fun l =>
      if l.part = part ∧ va ≤ l.va ∧ l.va < va + size then { l with wok := false } else l) })) }

/-- Rewrites the leaf entry of a virtual address by f (firmware, and the D bit of the ports), dropping it from the TLBs. -/
def State.updateLeaf (s : State) (part va : Nat) (f : Word → Word) : State :=
  match s.walk part va with
  | .invalid => s
  | .leaf e size a =>
    ({ s with memory := s.memory.write 32 a 8 (f e).toNat }).flushTlb part (va / size * size) size

/-- Sets the D bit of the page of va (07 R173). -/
def State.setDirtyBit (s : State) (part va : Nat) : State := s.updateLeaf part va (fun e => e ||| 0x80)

/-! ## The line cache (07 R160 to R164) -/

/-- The line address of a virtual address. -/
def lineOf (va : Nat) : Nat := va / 64 * 64

/-- The word mask of n bytes at va within a line: one bit for each 8-byte word. -/
def wordMask (va n : Nat) : BitVec 8 :=
  let first := va % 64 / 8
  let last := (va % 64 + n - 1) / 8
  BitVec.ofNat 8 ((2 ^ (last - first + 1) - 1) * 2 ^ first)

/-- The block with the words of the mask taken from other. -/
def mergeWords (mask : BitVec 8) (base other : Block) : Block :=
  BitVec.ofNat 512 ((List.range 8).foldl
    (fun acc k => acc + bitsOf (if mask.getLsbD k then other.toNat else base.toNat) (64 * k) 64 * 2 ^ (64 * k)) 0)

/-- n bytes of a block at offset o replaced by v. -/
def patchBlock (b : Block) (o n v : Nat) : Block := blkSet b (8 * o) (8 * n) v

/-- Stores the words of a mask of a block at a physical address; a granule whose four words are stored is written whole (07 R176). -/
def storeWords (mask : BitVec 8) (b : Block) (phys : Nat) (m : Mem) : Mem :=
  [0, 1].foldl (fun m h =>
    if bitsOf mask.toNat (4 * h) 4 = 15 then m.write 32 (phys + 32 * h) 32 (blkField b (32 * h) 32)
    else (upFrom (4 * h) 4).foldl (fun m k => if mask.getLsbD k then m.write 32 (phys + 8 * k) 8 (blkField b (8 * k) 8) else m) m) m

/-- The line of a core's cache that holds a virtual address. -/
def Core.findLine (k : Core) (part va : Nat) : Option CacheLine :=
  k.lines.find? (fun l => l.part == part && l.va == lineOf va)

/-- Lines without that of a virtual address. -/
def dropLine (ls : List CacheLine) (part va : Nat) : List CacheLine :=
  ls.filter (fun l => !(l.part == part && l.va == lineOf va))

/-- The least recently used line of a set that holds more than 8 lines (07 R160). -/
def victim (ls : List CacheLine) (va : Nat) : Option CacheLine :=
  let set := ls.filter (fun l => l.va / 64 % 256 == va / 64 % 256)
  if set.length > 8 then set.getLast? else none

/-- Acquire at a scope: at gang scope or wider every clean word of a line with CN = 0 is invalidated (07 R162, R163). A line left with no valid word is no longer allocated
(notes/assumptions/99.md). -/
def State.acquire (s : State) (c scope : Nat) : State :=
  if scope < 2 then s
  else
    let k := s.core c
    s.setCore c { k with lines := (k.lines.map (fun l => if l.cn then l else { l with valid := l.dirty })).filter (fun l => l.valid != 0) }

/-! ## Dirty logging (07 R172, R173) -/

/-- Whether the core can log a write of a page: no new entry is needed, or one is free. -/
def Core.logRoom (k : Core) (va : Nat) : Bool :=
  !k.logging || k.logFilter.contains (va / 2 ^ 16) || decide (k.logCount - k.logMerged < 512)

/-- A store or an amo, which a core logs (07 R172). -/
def accLogged (a : Access) : Bool :=
  match a.op with
  | .load => false
  | _ => true

/-- Appends the log entry of a page that the core first writes (07 R172). -/
def State.logWrite (s : State) (c part va : Nat) : State :=
  let k := s.core c
  let page := va / 2 ^ 16
  if !k.logging || k.logFilter.contains page then s
  else
    let st := k.store.write 8 (0x17F000 + 8 * (k.logCount % 512)) 8 (page % 2 ^ 26 + part * 2 ^ 28)
    let s := s.setCore c { k with store := st, logCount := k.logCount + 1, logFilter := (page :: k.logFilter).take 64 }
    if k.logCount + 1 - k.logMerged = 256 ∨ k.logCount + 1 - k.logMerged = 512 then s.push (.logMerge c) else s

/-- The clean words of a mask leave the line of a virtual address, so that the next load of them reads memory (07 R164, 08 R186). -/
def State.dropWords (s : State) (c part va : Nat) (mask : BitVec 8) : State :=
  let k := s.core c
  s.setCore c { k with lines := (k.lines.map (fun l =>
    if l.part = part ∧ l.va = lineOf va then { l with valid := l.valid &&& (~~~mask ||| l.dirty) } else l)).filter (fun l => l.valid != 0) }

/-! ## Where bytes lie, and the regions under repair (07 R159, 15 R382, R472) -/

/-- The stack of a physical address (07 R159). -/
def stackOf (p : Nat) : Nat := p / 256 % 12

/-- The row unit of a physical address within its stack. -/
def rowUnit (phys : Nat) : Nat := phys / 3072 / 4

/-- The row unit of a pseudo-channel, bank and row. -/
def rowOf (chan bank row : Nat) : Nat := row * 4096 + bank * 64 + chan

def unitChan (q : Nat) : Nat := q % 64
def unitBank (q : Nat) : Nat := q / 64 % 64
def unitRow (q : Nat) : Nat := q / 4096

/-- The pseudo-channels that a lane group serves. -/
def groupChans (group : Nat) : List Nat := if group < 64 then [group] else upFrom (4 * (group - 64)) 4

/-- A repair of stack n holds the byte at a physical address (15 R382). -/
def Repair.covers (r : Repair) (n phys : Nat) : Bool :=
  match r with
  | .row c b w => stackOf phys == n && rowUnit phys == rowOf c b w
  | .bank c b w => stackOf phys == n && rowUnit phys == rowOf c b w
  | .lane g => stackOf phys == n && (groupChans g).contains (unitChan (rowUnit phys))
  | .retrain g => stackOf phys == n && (groupChans g).contains (unitChan (rowUnit phys))
  | .frame f _ => phys / 2 ^ 16 == f

/-- The stack whose repair in progress holds a byte (15 R382). -/
def State.heldAt (s : State) (phys : Nat) : Option Nat := (s.hbm.find? (fun e => e.2.active.any (fun r => r.covers e.1 phys))).map (·.1)

/-- The same for n bytes, which meet at most two 256-byte units. -/
def State.heldRange (s : State) (phys n : Nat) : Option Nat := (s.heldAt phys).or (s.heldAt (phys + n - 1))

/-- Something waits for the end of a hold of stack n. -/
def State.delay (s : State) (n : Nat) (d : Delayed) : State := s.setStack n { s.stack n with delayed := (s.stack n).delayed ++ [d] }

/-! ## Counting uncorrectable granules (15 R391) -/

/-- Reads of core c's store that meet uncorrectable granules count them. -/
def State.countCore (s : State) (c a n : Nat) : State :=
  let k := s.core c
  let r := k.store.count 8 a n
  s.setCore c { k with store := r.1, ue := min (k.ue + r.2) 65535 }

/-- Reads of core c's B plane that meet uncorrectable granules count them. -/
def State.countPlane (s : State) (c a n : Nat) : State :=
  let k := s.core c
  let r := k.plane.count 8 a n
  s.setCore c { k with plane := r.1, ue := min (k.ue + r.2) 65535 }

/-- Reads of core c's accumulators that meet uncorrectable elements count them. -/
def State.countAcc (s : State) (c : Nat) (is : List Nat) : State :=
  let k := s.core c
  let new := (is.foldl (fun l i => insertNat i l) []).filter (fun i => k.accBad.contains i && !k.accFound.contains i)
  s.setCore c { k with accFound := new.foldl (fun l i => insertNat i l) k.accFound, ue := min (k.ue + new.length) 65535 }

/-- Reads of device memory that meet uncorrectable granules count them at their stack. -/
def State.countOnly (s : State) (p n : Nat) : State :=
  let k := s.stack (stackOf p)
  let r := s.memory.count 32 p n
  { s.setStack (stackOf p) { k with ue := min (k.ue + r.2) 65535 } with memory := r.1 }

/-- Two repairs are one: for a bank migration, whatever row it has come to. -/
def Repair.same (a b : Repair) : Bool :=
  match a, b with
  | .bank c k _, .bank c' k' _ => c == c' && k == k'
  | a, b => a == b

/-- The event with which the Fixer of stack n takes up a repair. -/
def Repair.event (n : Nat) : Repair → Event
  | .row c b w => .rowRepair n c b w
  | .bank c b _ => .bankMigration n c b
  | .lane g => .laneSteer n g
  | .retrain g => .groupRetrain n g
  | .frame f _ => .pageRetirement n f

/-- A repair is detected: it waits for its turn in the order of detection (15 R381), unless it is under way or waits already. -/
def State.detect (s : State) (n : Nat) (r : Repair) : State :=
  let k := s.stack n
  if k.active.any r.same || k.waiting.any r.same then s
  else (s.setStack n { k with waiting := k.waiting ++ [r] }).pushOnce (r.event n)

/-- A row is a candidate for repair. -/
def State.candidateRow (s : State) (n q : Nat) : State := s.detect n (.row (unitChan q) (unitBank q) (unitRow q))

/-- The same, and the rows of those found first become candidates for repair (15 R380, R381). -/
def State.countStack (s : State) (p n : Nat) : State :=
  let new := (granules 32 p n).filter (fun k => s.memory.bad.contains k && !s.memory.found.contains k)
  new.foldl (fun s k => s.candidateRow (stackOf (32 * k)) (rowUnit (32 * k))) (s.countOnly p n)

/-- The granules that a word's DATA_LOST met, by its generic address and its bytes. -/
def State.countLost (s : State) (c : Nat) (sl : Slot) (ea : Word) (n : Nat) : State :=
  let g := sl.seg (segNo ea)
  let l := g.base + offOf ea
  match g.space with
  | 1 => s.countCore c l n
  | 2 => s.countCore (clusterOf c * 96 + bitsOf l 21 7) (l % 2 ^ 21) n
  | 4 =>
    match s.walk (s.cell c).part l with
    | .leaf e size _ => s.countStack (pteFrame e + l % size) n
    | .invalid => s
  | _ => s

/-! ## Results of accesses -/

/-- The bits of a loaded value of n bytes, extended by sign or by zero. -/
def extendLoad (signed : Bool) (n v : Nat) : Word := if signed then BitVec.ofInt 64 (signExt (8 * n) v) else BitVec.ofNat 64 v

/-- Bytes of lsu operation k (07 R178). -/
def lsuBytes (k : Nat) : Nat :=
  match k with
  | 0 => 1 | 1 => 1 | 2 => 2 | 3 => 2 | 4 => 4 | 5 => 4 | 6 => 8 | 7 => 16
  | 8 => 1 | 9 => 2 | 10 => 4 | 11 => 8 | _ => 16

/-- lsu operations 8 to 12 are stores (07 R178). -/
def lsuStores (k : Nat) : Bool := decide (8 ≤ k)

/-- The width of an amo by amo.m (07 R180). -/
def amoWidth (m : Word) : Nat := if m.getLsbD 8 then 8 else 4

/-- Delivers the value of a performed lsu, amo or fab access to the ports of its unit (07 R178, R181, 13 R322). -/
def deliverAccess (d : BitVec 14) (sl : Slot) (v : Nat) (fl : FFlags) : Slot :=
  let k := opOf d
  if blockOf d = 0x0B then
    if lsuStores k then (sl.setRes rLsu 0).setRes rLsuh 0
    else if k = 7 then (sl.setRes rLsu (BitVec.ofNat 64 v)).setRes rLsuh (BitVec.ofNat 64 (v / 2 ^ 64))
    else (sl.setRes rLsu (extendLoad (k % 2 == 0) (lsuBytes k) v)).setRes rLsuh 0
  else if blockOf d = 0x0C then
    { sl with fflags := sl.fflags ||| fl }.setRes rAmo (extendLoad true (amoWidth (sl.operand 0x50)) v)
  else
    let m := sl.operand 0x5E
    let n := 2 ^ bitsOf m.toNat 8 2
    if k = 0 then sl.setRes rFab (extendLoad (m.getLsbD 10) n v)
    else if k = 1 then sl.setRes rFab 0
    else { sl with fflags := sl.fflags ||| fl }.setRes rFab (extendLoad true n v)

/-- The generic address of an access, from the operands of its unit (07 R177, R180, 13 R322). -/
def accessEa (d : BitVec 14) (t : Word) (sl : Slot) : Word :=
  if blockOf d = 0x0B then sl.operand 0x4B + t
  else if blockOf d = 0x0C then sl.operand 0x4F
  else if opOf d = 2 then sl.operand 0x5D else sl.operand 0x5D + t

/-- The mode word of an access. -/
def accessMode (d : BitVec 14) (sl : Slot) : Word :=
  if blockOf d = 0x0B then sl.operand 0x4C else if blockOf d = 0x0C then sl.operand 0x50 else sl.operand 0x5E

/-- Mode fields (07 R177, R180, 13 R320). -/
def modeFe (m : Word) : Nat := bitsOf m.toNat 0 3
def modeOrder (m : Word) : Nat := bitsOf m.toNat 3 2
def modeScope (m : Word) : Nat := bitsOf m.toNat 5 3

/-- The scope of a space (07 R155). -/
def spaceScope (space : Nat) : Nat :=
  match space with
  | 1 => 1
  | 2 => 2
  | 4 => 3
  | _ => 4

/-- The acquires that follow a performed access (07 R178, R181, 13 R322). -/
def State.acquireAfter (s : State) (c : Nat) (m : Word) (space : Nat) : State :=
  let s := if modeFe m = 2 then s.acquire c (spaceScope space) else s
  if modeOrder m = 1 ∨ modeOrder m = 3 then s.acquire c (modeScope m) else s

/-- The move of a word whose trigger is a resolving unit's. -/
def resolvingMove (ms : List MoveVal) : Option MoveVal :=
  ms.find? (fun m => isTrigger m.dst && !isImmediate (blockOf m.dst))

/-- The moves of a word whose triggers are immediate units'. -/
def immediateMoves (ms : List MoveVal) : List MoveVal := ms.filter (fun m => isTrigger m.dst && isImmediate (blockOf m.dst))

/-- The slot after the plain writes and immediate triggers of a word, with the pc moved on (02 R50). -/
def State.commitSlot (s : State) (c i : Nat) (ms : List MoveVal) (here next : Word) : Except (FaultInfo × MoveVal) Slot :=
  immMoves (s.immCtx c i here next) (immediateMoves ms) { (s.slot c i).writeMoves ms with pc := next }

/-- A fault of a triggered operation: INFO names the trigger of the faulting move (14 R353). -/
def withInfo (f : FaultInfo) (m : MoveVal) : FaultInfo :=
  if f.code = cSoftware then f else { f with info := m.dst.setWidth 64 }

/-- The held word of a strand commits with what f does to its slot, and retires (02 R54). -/
def State.finishHeld (s : State) (c i : Nat) (h : HeldWord) (f : MoveVal → Slot → Slot) : State :=
  match resolvingMove h.moves, s.commitSlot c i h.moves h.here h.next with
  | some m, .ok sl =>
    let stepped := (s.slot c i).step
    let s := s.setSlot c i { f m sl with held := none }
    s.settle c i h.here h.word stepped
  | _, _ => s

/-- The held word of a strand faults at its reply (02 R54, 14 R351). -/
def State.faultHeld (s : State) (c i : Nat) (h : HeldWord) (f : FaultInfo) : State :=
  match resolvingMove h.moves with
  | some m => s.trap c i (withInfo f m) m.isB h.here h.word
  | none => s

/-- The trigger of a store or an amo of the own core, which its core logs (07 R172). -/
def loggedTrigger (d : BitVec 14) : Bool := (blockOf d == 0x0B && lsuStores (opOf d)) || blockOf d == 0x0C

/-- A parked or remote access of a strand has been performed, or met uncorrectable data (07 R156, R157, R178). A store or an amo to device memory is
logged before its word retires, and the word waits where the log has no room (07 R172, R173); the clean words of its line go, which another strand
may have filled meanwhile (07 R164, 08 R186); a write of the fabric unit to the own device sets the page's D bit. -/
def State.finishAccess (s : State) (c i : Nat) (r : Option (Nat × FFlags)) : State :=
  match (s.slot c i).held with
  | none => s
  | some h =>
    match resolvingMove h.moves with
    | none => s
    | some m =>
      let sl := (s.slot c i).writeMoves h.moves
      let ea := accessEa m.dst m.val sl
      match r with
      | none => s.faultHeld c i h (faultAt cDataLost ea)
      | some (v, fl) =>
        let mode := accessMode m.dst sl
        let g := sl.seg (segNo ea)
        let va := g.base + offOf ea
        let part := (s.cell c).part
        let logs := g.space == 4 && loggedTrigger m.dst
        if logs && !(s.core c).logRoom va then
          s.setSlot c i { s.slot c i with st := .issued, held := some { h with why := .logSpace, reply := some (.value (BitVec.ofNat 128 v) fl) } }
        else
          let s := if logs then s.logWrite c part va else s
          let s := match h.why with
            | .feAt (.stack _) => if g.space == 5 && opOf m.dst != 0 then s.setDirtyBit part (va % 2 ^ 42) else s
            | _ => s
          let s := if g.space = 4 then s.dropWords c part va 255 else s
          let s := s.acquireAfter c mode g.space
          (s.finishHeld c i h (fun m sl => deliverAccess m.dst { sl with age := 0 } v fl)).noteActivity (s.cell c).launch

/-- A read at a controller has met uncorrectable granules, which are counted there (15 R391). -/
def State.countAt (s : State) (ctrl : Ctrl) (a : Access) : State :=
  match ctrl with
  | .core c => s.countCore c a.addr a.n
  | _ => s.countStack a.addr a.n

/-- The waiters of a controller that were served receive their results: strands of this device retire, remote ones are answered; a write of another device
to a page of this one sets the page's D bit (07 R173). -/
def State.answerServed (s : State) (ctrl : Ctrl) (l : List Served) : State :=
  l.foldl (fun s x =>
    let s := if x.2.isNone then s.countAt ctrl x.1.acc else s
    match x.1.who with
    | .strand c i => s.finishAccess c i x.2
    | .remote r =>
      let s := if x.2.isSome && r.space == 5 && accWrites r.acc then s.setDirtyBit r.member (r.acc.addr % 2 ^ 42) else s
      s.emit (.remoteReply r.srcDev r.srcCore r.srcSlot (match x.2 with
        | some (v, fl) => .value (BitVec.ofNat 128 v) fl
        | none => .lost 0 3))) s

/-! ## Controllers (07 R156, R157, R164) -/

/-- The outcome of an access at its controller. -/
inductive AccRes where
  | done (v : Nat) (fl : FFlags)
  | lost
  | parked
  | nacked (ticket : Nat)
  deriving DecidableEq, Repr

/-- A waiter of the controller's own core takes no retry-list entry (07 R156). -/
def ownWaiter (ctrl : Ctrl) (x : Waiter) : Bool :=
  match ctrl, x.who with
  | .core c, .strand c' _ => c == c'
  | _, _ => false

/-- Entries of the 64 in use. -/
def Retry.used (r : Retry) (ctrl : Ctrl) : Nat := (r.entries.filter (fun x => !ownWaiter ctrl x)).length

/-- Admits a waiting access, or refuses it with a ticket (07 R157). The lowest tickets hold the free entries, one each; an access that has no ticket takes an entry
beyond those. -/
def Retry.enlist (r : Retry) (ctrl : Ctrl) (x : Waiter) (ticket : Option Nat) : Retry × AccRes :=
  let free := 64 - r.used ctrl
  let admitted := match ticket with
    | some t => (r.outstanding.take free).contains t || (decide (0 < free) && r.outstanding.isEmpty)
    | none => decide (r.outstanding.length < free)
  if ownWaiter ctrl x then ({ r with entries := r.entries ++ [x] }, .parked)
  else if admitted then
    ({ r with entries := r.entries ++ [x], outstanding := r.outstanding.filter (fun t => some t != ticket) }, .parked)
  else
    match ticket with
    | some t =>
      if r.outstanding.contains t then (r, .nacked t)
      else ({ r with nextTicket := r.nextTicket + 1, outstanding := r.outstanding ++ [r.nextTicket] }, .nacked r.nextTicket)
    | none => ({ r with nextTicket := r.nextTicket + 1, outstanding := r.outstanding ++ [r.nextTicket] }, .nacked r.nextTicket)

/-- An access that is admitted or performed needs its ticket no more (07 R157). -/
def Retry.used_ (r : Retry) (ticket : Option Nat) : Retry :=
  match ticket with
  | some t => { r with outstanding := r.outstanding.filter (fun n => n != t) }
  | none => r

/-- The waiters of a list whose turn and condition have come are served, but for those that are stuck, which keep their places (07 R156, 15 R383). -/
def serveFree (g : Nat) (stuck : Waiter → Bool) (m : Mem) (l : List Waiter) : Mem × List Waiter × List Served :=
  let sv := serveAll g l.length m (l.filter (fun x => !stuck x))
  (sv.1, l.filter (fun x => stuck x || sv.2.1.contains x), sv.2.2)

/-- A core whose clock runs again after an arrival (18 R443, R453). -/
def Core.woken (k : Core) : Core := if k.gated then { k with gated := false, idleFor := 0 } else k

/-- An arrival at a core wakes it (18 R443, R453). -/
def State.arouse (s : State) (c : Nat) : State := s.setCore c (s.core c).woken

/-- An access meets a memory and the waiters of its controller: it waits, or is performed and the waiters of its words are
served (07 R155, R156). -/
def accessAt (g : Nat) (ctrl : Ctrl) (stuck : Waiter → Bool) (m : Mem) (r : Retry) (x : Waiter) (ticket : Option Nat) : Mem × Retry × AccRes × List Served :=
  if mustQueue r.entries x.acc || !m.feHolds x.acc then
    let a := r.enlist ctrl x ticket
    (m, a.1, a.2, [])
  else
    match m.perform g x.acc with
    | none => (m, r, .lost, [])
    | some p =>
      let r := r.used_ ticket
      let sv := if feChanges x.acc.fe then serveFree g stuck p.mem r.entries else (p.mem, r.entries, [])
      (sv.1, { r with entries := sv.2.1 }, .done p.value p.flags, sv.2.2)

/-- The free entries of a list that are held for tickets, each for a time of its own (07 R157). -/
def Retry.holds (r : Retry) (ctrl : Ctrl) : Nat := min (64 - r.used ctrl) r.outstanding.length

/-- As many holds of a list are due to expire as it has entries held for tickets (07 R157). -/
def State.holdAgain (s : State) (ctrl : Ctrl) (r : Retry) : State :=
  { s.cancel (.ticketHoldExpiry ctrl) with
    agenda := (s.cancel (.ticketHoldExpiry ctrl)).agenda ++ List.replicate (r.holds ctrl) (.ticketHoldExpiry ctrl) }

/-- A list has changed, and with it perhaps the entries that it holds for tickets. -/
def State.noteFreed (s : State) (ctrl : Ctrl) (before after : Retry) : State :=
  if before.holds ctrl = after.holds ctrl then s else s.holdAgain ctrl after

/-- An access at the controller of core c's store (07 R156, R157). One from elsewhere wakes the core (18 R453). -/
def State.coreAccess (s : State) (c : Nat) (x : Waiter) (ticket : Option Nat) : State × AccRes :=
  let k := if ownWaiter (.core c) x then s.core c else (s.core c).woken
  let r := accessAt 8 (.core c) (fun _ => false) k.store k.retry x ticket
  let s := s.setCore c { k with store := r.1, retry := r.2.1 }
  ((s.answerServed (.core c) r.2.2.2).noteFreed (.core c) k.retry r.2.1, r.2.2.1)

/-- A waiting access lies in a region under repair: it stays in its place until the hold ends (15 R383). -/
def State.stuck (s : State) (x : Waiter) : Bool := (s.heldAt x.acc.addr).isSome

/-- An access at the stack controller of its word (07 R164). -/
def State.stackAccess (s : State) (x : Waiter) (ticket : Option Nat) : State × AccRes :=
  let n := stackOf x.acc.addr
  let k := s.stack n
  let r := accessAt 32 (.stack n) s.stuck s.memory k.retry x ticket
  let s := { s.setStack n { k with retry := r.2.1 } with memory := r.1 }
  ((s.answerServed (.stack n) r.2.2.2).noteFreed (.stack n) k.retry r.2.1, r.2.2.1)

/-- The list of core c's controller becomes r, and those of its accesses whose turn and condition have come are served (07 R156, R157). -/
def State.serveCore (s : State) (c : Nat) (r : Retry) : State :=
  let k := s.core c
  let sv := serveAll 8 r.entries.length k.store r.entries
  let r' := { r with entries := sv.2.1 }
  ((s.setCore c { k with store := sv.1, retry := r' }).answerServed (.core c) sv.2.2).noteFreed (.core c) k.retry r'

/-- The same for a stack's controller, but for what lies in a region under repair. -/
def State.serveStack (s : State) (n : Nat) (r : Retry) : State :=
  let k := s.stack n
  let sv := serveFree 32 s.stuck s.memory r.entries
  let r' := { r with entries := sv.2.1 }
  (({ s.setStack n { k with retry := r' } with memory := sv.1 }).answerServed (.stack n) sv.2.2).noteFreed (.stack n) k.retry r'

/-! ## Frames (07 R171, R175, 16 R417) -/

/-- An extent meets none of a list. -/
def clearOf (l : List (Nat × Nat)) (base size : Nat) : Bool := l.all (fun (e : Nat × Nat) => decide (e.1 + e.2 ≤ base) || decide (base + size ≤ e.1))

/-- The buffer of a trace (17 R434). -/
def Trace.extent (t : Trace) : Nat × Nat := (t.base.toNat, 8 * 2 ^ t.log2w)

/-- The extents in use: the frames of pages, and the buffers of the traces that are on, which no partition maps (17 R434). -/
def State.extents (s : State) : List (Nat × Nat) := s.frames ++ (s.clusters.filter (fun e => e.2.trace.en)).map (fun e => e.2.trace.extent)

/-- An extent is free: it lies in the memory for pages and meets no extent in use. -/
def State.extentFree (s : State) (base size : Nat) : Bool := decide (base + size ≤ Config.tableRegion) && clearOf s.extents base size

/-- The lowest free frame of a page size (16 R417); which free frame is taken is the model's choice (notes/assumptions/27.md). -/
def State.freeFrame (s : State) (size : Nat) : Option Nat :=
  let ends := 0 :: s.extents.map (fun (e : Nat × Nat) => (e.1 + e.2 + size - 1) / size * size)
  (ends.filter (fun b => s.extentFree b size)).foldl (fun (a : Option Nat) b => match a with
    | some x => some (min x b)
    | none => some b) none

/-- A frame is taken and filled with zeros and full bits. -/
def State.takeFrame (s : State) (base size : Nat) : State :=
  { s with frames := (base, size) :: s.frames, memory := s.memory.clearRange 32 base size }

/-- A frame goes back to the free ones. -/
def State.dropFrame (s : State) (base size : Nat) : State := { s with frames := s.frames.filter (fun (e : Nat × Nat) => e != (base, size)) }

/-- The manager makes a page resident: a discarded page gets a zero-filled frame, if one is free (07 R171, R175). -/
def State.makeResident (s : State) (part va : Nat) : State :=
  match s.walk part va with
  | .leaf e size _ =>
    if pteP e then s
    else if pteDisc e then
      match s.freeFrame size with
      | some b => (s.takeFrame b size).updateLeaf part va (fun e => BitVec.ofNat 64 (e.toNat - bitsOf e.toNat 16 24 * 2 ^ 16 + b) ||| 0x40)
      | none => s
    else s.updateLeaf part va (fun e => e ||| 0x40)
  | .invalid => s

/-! ## Discarded pages, write-backs and releases (07 R160 to R164, R175) -/

/-- A write to a discarded page first cancels the discard and zero-fills the page with full bits (07 R175); the accesses that wait for those bits are served
(07 R156). -/
def State.cancelDiscard (s : State) (part va : Nat) : State :=
  match s.walk part va with
  | .invalid => s
  | .leaf e size _ =>
    if pteDisc e && pteP e then
      let s := { s with memory := s.memory.clearRange 32 (pteFrame e) size }
      let s := s.updateLeaf part va (fun e => e &&& ~~~(0x100 : Word))
      s.hbm.foldl (fun s e => s.serveStack e.1 e.2.retry) s
    else s

/-- The hold that a write of n bytes at a virtual address meets: on its own region, or, where it cancels a discard, on any of the page, which it zero-fills (07 R175,
15 R382). -/
def State.heldFor (s : State) (part va n : Nat) : Option Nat :=
  match s.walk part va with
  | .invalid => none
  | .leaf e size _ =>
    if pteDisc e && s.hbm.any (fun k => k.2.active.isSome) then (List.range (size / 256)).findSome? (fun k => s.heldAt (pteFrame e + 256 * k))
    else s.heldRange (pteFrame e + va % size) n

def LateWrite.part : LateWrite → Nat
  | .words l => l.part
  | .bytes p _ _ _ => p

def LateWrite.va : LateWrite → Nat
  | .words l => l.va
  | .bytes _ va _ _ => va

/-- Device memory after the write, whose first byte lies at a physical address. -/
def LateWrite.store (w : LateWrite) (phys : Nat) (m : Mem) : Mem :=
  match w with
  | .words l => storeWords l.dirty l.data phys m
  | .bytes _ _ n v => m.write 32 phys n v

/-- A write of a line cache reaches memory. It waits for the end of a hold that it meets (15 R382), and for the frame of a page that has none (07 R175); to a page that is lost
it has no effect (15 R387). -/
def State.lateWrite (s : State) (w : LateWrite) : State :=
  match s.walk w.part w.va with
  | .invalid => s
  | .leaf e size _ =>
    if pteLost e then s
    else if !pteP e then { s with backs := s.backs ++ [w] }.pushOnce (.pageWake w.part w.va)
    else
      match s.heldFor w.part w.va 1 with
      | some n => s.delay n (.write w)
      | none =>
        let s := s.cancelDiscard w.part w.va
        { s with memory := w.store (pteFrame e + w.va % size) s.memory }

/-- Writes the dirty words of a line to memory; a write-back never faults and never parks (07 R161, R175). -/
def State.writeBack (s : State) (l : CacheLine) : State := if l.dirty = 0 then s else s.lateWrite (.words l)

/-- The writes of line caches that wait for the frame of the page of va are made where it has one; otherwise they are tried again (07 R175). -/
def State.backPage (s : State) (part va : Nat) : State :=
  match s.walk part va with
  | .invalid => s
  | .leaf e size _ =>
    let mine (w : LateWrite) : Bool := w.part == part && w.va / size == va / size
    let ws := s.backs.filter mine
    if ws.isEmpty then s
    else if pteP e then ws.foldl (fun s w => s.lateWrite w) { s with backs := s.backs.filter (fun w => !mine w) }
    else s.pushOnce (.pageWake part va)

/-- Places a line most or least recently used, evicting where its set is full (07 R160, R161). -/
def State.placeLine (s : State) (c : Nat) (l : CacheLine) (mru : Bool) : State :=
  let k := s.core c
  let rest := dropLine k.lines l.part l.va
  let out := victim (l :: rest) l.va
  let rest := match out with
    | some v => dropLine rest v.part v.va
    | none => rest
  let ls := if mru then l :: rest else rest ++ [l]
  let s := match out with
    | some v => s.writeBack v
    | none => s
  s.setCore c { s.core c with lines := ls }

/-- Writes back the dirty words of the lines that p holds of; those lines stay, clean (07 R162). -/
def State.cleanLines (s : State) (c : Nat) (p : CacheLine → Bool) : State :=
  let ls := (s.core c).lines
  let s := (ls.filter p).foldl (fun s l => s.writeBack l) s
  s.setCore c { s.core c with lines := ls.map (fun l => if p l then { l with dirty := 0 } else l) }

/-- Release at a scope: at gang scope or wider every dirty word is written to memory (07 R162). -/
def State.release (s : State) (c scope : Nat) : State := if scope < 2 then s else s.cleanLines c (fun _ => true)

/-- Writes back and invalidates one line of a core (07 R164). -/
def State.expelLine (s : State) (c part va : Nat) : State :=
  let s := s.cleanLines c (fun l => l.part == part && l.va == lineOf va)
  s.setCore c { s.core c with lines := dropLine (s.core c).lines part va }

/-! ## Watchpoints and breakpoints (17 R425, R426) -/

/-- Bytes lo to lo + n − 1 of a 32-byte entry. -/
def entField (e : BitVec 256) (byte n : Nat) : Nat := bitsOf e.toNat (8 * byte) (8 * n)

/-- An entry applies to a strand of a partition (17 R426). -/
def entryApplies (e : BitVec 256) (part : Nat) (gsi : Word) : Bool :=
  e.getLsbD 192 && bitsOf e.toNat 196 4 == part
    && ((gsi.toNat ^^^ entField e 8 8) &&& entField e 16 8) == 0

/-- The lowest entry that p holds of. -/
def lowestEntry (t : Table (BitVec 256)) (p : BitVec 256 → Bool) : Option Nat := (t.find? (fun e => p e.2)).map (·.1)

/-- The watchpoint hit by an access of n bytes at a location (17 R426). -/
def State.watchHit (s : State) (part : Nat) (gsi : Word) (space l n : Nat) (rd wr : Bool) : Option Nat :=
  lowestEntry s.watches (fun e =>
    entryApplies e part gsi && bitsOf e.toNat 193 3 == space
      && ((rd && e.getLsbD 200) || (wr && e.getLsbD 201))
      && decide (entField e 0 8 < l + n) && decide (l < entField e 0 8 + 2 ^ bitsOf e.toNat 202 6))

/-- The breakpoint hit by the word at a location (17 R426). -/
def State.breakHit (s : State) (part : Nat) (gsi : Word) (space l : Nat) : Option Nat :=
  lowestEntry s.breaks (fun e => entryApplies e part gsi && bitsOf e.toNat 193 3 == space && entField e 0 8 == l)

/-! ## Handles (06 R117, R118) -/

/-- What a handle names. -/
inductive Named where
  | current (slot : Nat)
  | ended (value : Word)
  | overwritten
  | stale
  deriving DecidableEq, Repr

/-- The instance that a handle names in a cell (06 R118). -/
def Core.named (k : Core) (h : Word) : Named :=
  let i := bitsOf h.toNat 0 8
  let n := bitsOf h.toNat 8 24
  let sl := k.slot i
  if sl.occupied then (if n = 0 ∨ n = sl.serial.toNat then .current i else .overwritten)
  else if sl.exitSerial ≠ 0 ∧ (n = 0 ∨ n = sl.exitSerial.toNat) then .ended sl.exitValue
  else .stale

end Sys2Proof.Machine
end

