-- ==== Sys2Proof/Machine/Sync.lean ====
section
/-! DEFINITION. Waiting: semaphores, barrier channels, rings, pools, joins, the quiescence detector and sleep, as operations that either
end at once with a result or park (06 R130 to R147, 08 R197 to R212). -/

namespace Sys2Proof.Machine

/-- How an operation that may park resolves. -/
inductive WaitRes where
  | now (v : Word)
  | park (p : Park)
  deriving DecidableEq, Repr

/-! ## Semaphores (08 R200, R201) -/

/-- The satisfied branch of R200: the semaphore afterwards and sem.res of a wait. -/
def Sem.satisfy (m : Sem) (n : Nat) : Option (Sem × Word) :=
  if m.arrival then (if m.gen.toNat ≠ n then some (m, m.gen.setWidth 64) else none)
  else if n = 0 then some (m, m.count)
  else if m.waiters.isEmpty && decide (n ≤ m.count.toNat) then
    let c := m.count - BitVec.ofNat 64 n
    some ({ m with count := c }, c)
  else none

/-- sem.wait of slot i on semaphore j (08 R200). -/
def State.semWait (s : State) (c i j n : Nat) : State × WaitRes :=
  let k := s.core c
  let m := k.sem j
  match m.satisfy n with
  | some (m', v) => (s.setCore c (k.setSem j m'), .now v)
  | none =>
    (s.setCore c (k.setSem j { m with waiters := m.waiters ++ [(i, n)] }), .park (.sem j m.arrival n))

/-- sem.arm (08 R201): the semaphore, and the waiters released with their results. -/
def Sem.arm (m : Sem) (t : Nat) : Sem × List (Nat × Word) :=
  let arr := decide (t ≠ 0)
  let m0 : Sem := { m with arrival := arr, target := BitVec.ofNat 32 t }
  let m1 := if arr then m0.advance else m0
  if m.arrival ≠ arr then ({ m1 with waiters := [] }, m.waiters.map (fun w => (w.1, ones)))
  else if arr && m1.gen ≠ m.gen then ({ m1 with waiters := [] }, m.waiters.map (fun w => (w.1, m1.gen.setWidth 64)))
  else (m1, [])

/-- sem.reset (08 R201). -/
def Sem.reset (m : Sem) (c : Word) : Sem × List (Nat × Word) :=
  (⟨c, false, 0, m.gen + 1, []⟩, m.waiters.map (fun w => (w.1, ones)))

/-- A post to a cell whose cell may be stopped for pre-emption: a post that is not the cell's own is then held (14 R369, R370). -/
def State.postFrom (s : State) (c i n : Nat) (own : Bool) : State :=
  let k := s.core c
  match k.cell with
  | none => s
  | some cell =>
    if cell.ended then s
    else if cell.preempt ≠ .running && !own then s.setCore c { k with posts := k.posts ++ [⟨i, n, none⟩] }
    else if i < cell.sems then (if own then s else s.arouse c).post c i n else s

/-! ## Barrier channels (08 R204 to R211) -/

/-- A channel: of the cluster of core c, or of the domain. -/
def State.chan (s : State) (cl : Nat) (dom : Bool) (ch : Nat) : Channel :=
  if dom then s.domain.get Channel.free ch else (s.cluster cl).channels.get Channel.free ch

def State.setChan (s : State) (cl : Nat) (dom : Bool) (ch : Nat) (v : Channel) : State :=
  if dom then { s with domain := s.domain.set ch v }
  else
    let k := s.cluster cl
    s.setCluster cl { k with channels := k.channels.set ch v }

/-- The gang, or the panorama, that must own a channel for a cell to use it (08 R204, R212). -/
def chanOwner (cell : Cell) (dom : Bool) : Nat × Nat := if dom then (panId cell.paninfo, 0) else (cell.launch, cell.gang)

/-- The index of a cell in MASK and CNT: its core index, or its member number and core index (notes/assumptions/20.md). -/
def chanKey (cell : Cell) (c : Nat) (dom : Bool) : Nat := if dom then panMember cell.paninfo * 128 + c % 96 else c % 96

/-- The binary32 maximumNumber of R207; the result of two NaNs is the canonical NaN. -/
def barMaxNum (a b : BitVec 32) : BitVec 32 :=
  BitVec.ofNat 32 (fPick Fmt.f32 true (Fmt.f32.value a.toNat) (Fmt.f32.value b.toNat)).code

/-- The accumulators after an arrival of a kind: 1 max, 2 maxf, 3 sum, 4 and, 5 or; other kinds carry no value (08 R206). -/
def BarAcc.combine (a : BarAcc) (kind : Nat) (v : Word) : BarAcc :=
  match kind with
  | 1 => { a with max := if a.max.slt v then v else a.max }
  | 2 => { a with maxf := barMaxNum a.maxf (v.setWidth 32) }
  | 3 => { a with sum := a.sum + v }
  | 4 => { a with and := a.and &&& v }
  | 5 => { a with or := a.or ||| v }
  | _ => a

/-- What a released waiter of a kind receives for phase p. -/
def BarAcc.result (a : BarAcc) (kind : Nat) (p : BitVec 32) : Word :=
  match kind with
  | 1 => a.max
  | 2 => a.maxf.setWidth 64
  | 3 => a.sum
  | 4 => a.and
  | 5 => a.or
  | _ => p.setWidth 64

/-- An arrival (08 R205): the channel and the phase it belongs to; none past twice EXPECT. -/
def Channel.arrive (h : Channel) (key kind : Nat) (v : Word) : Option (Channel × BitVec 32) :=
  let n := h.cnt.get 0 key + 1
  if 2 * h.expect < n then none
  else if n ≤ h.expect then some ({ h with cnt := h.cnt.set key n, acc0 := h.acc0.combine kind v }, h.phase)
  else some ({ h with cnt := h.cnt.set key n, acc1 := h.acc1.combine kind v }, h.phase + 1)

/-- The current phase is complete: every member cell that has not ended has arrived EXPECT times (08 R205). -/
def Channel.ready (h : Channel) : Bool := !h.mask.isEmpty && h.mask.all (fun k => decide (h.expect ≤ h.cnt.get 0 k)) && h.expect != 0

/-- An arrival from another device. The device that sent it counted it, so one that this device's copy of a domain channel is not ready for yet is kept until
a phase completes here (notes/assumptions/91.md). -/
def Channel.arriveFar (h : Channel) (key kind : Nat) (v : Word) : Channel :=
  match h.arrive key kind v with
  | some r => r.1
  | none => { h with early := h.early ++ [(key, kind, v)] }

/-- The completion of the current phase (08 R205), and the arrivals that waited for it. -/
def Channel.complete (h : Channel) : Channel :=
  h.early.foldl (fun h e => h.arriveFar e.1 e.2.1 e.2.2)
    { h with last := h.acc0, acc0 := h.acc1, acc1 := BarAcc.identities, cnt := h.cnt.map (fun e => (e.1, e.2 - h.expect)), phase := h.phase + 1, early := [] }

/-- Phase t is complete (08 R205). -/
def Channel.past (h : Channel) (t : BitVec 32) : Bool :=
  let d := (h.phase - t).toNat
  decide (1 ≤ d) && decide (d ≤ 2 ^ 31)

/-- The slots of a core that wait on a channel for a complete phase. -/
def Core.barWaiters (k : Core) (h : Channel) (dom : Bool) (ch : Nat) : List (Nat × Word) :=
  k.slots.filterMap (fun e => match e.2.park with
    | some (.bar ch' dom' kind p) =>
      if ch' = ch ∧ dom' = dom ∧ h.past (BitVec.ofNat 32 p) then some (e.1, h.last.result kind (BitVec.ofNat 32 p)) else none
    | _ => none)

/-- The cores whose cells use a channel. -/
def State.chanCores (s : State) (cl : Nat) (dom : Bool) (h : Channel) : List Nat :=
  (s.cores.filter (fun e => match e.2.cell with
    | some cell => (dom || clusterOf e.1 == cl) && h.owner == some (chanOwner cell dom)
    | none => false)).map (·.1)

/-- Releases the waiters of complete phases: each core with a waiter performs the acquire of 08 R208, and its waiters are READY. -/
def State.releaseBar (s : State) (cl : Nat) (dom : Bool) (ch : Nat) (h : Channel) : State :=
  (s.chanCores cl dom h).foldl (fun s c =>
    let ws := (s.core c).barWaiters h dom ch
    if ws.isEmpty then s else (s.acquire c (if dom then 4 else 2)).wakeAll c rBar ws) s

/-- Completes phases while they are complete (08 R205). -/
def State.evalChanFor (s : State) (cl : Nat) (dom : Bool) (ch : Nat) : Nat → State
  | 0 => s
  | n + 1 =>
    let h := s.chan cl dom ch
    if h.ready then
      let h' := h.complete
      State.evalChanFor ((s.setChan cl dom ch h').releaseBar cl dom ch h') cl dom ch n
    else s

/-- Completion is evaluated again after each completion. A count is at most twice EXPECT, and each arrival that waits can make one phase more complete. -/
def State.evalChan (s : State) (cl : Nat) (dom : Bool) (ch : Nat) : State := s.evalChanFor cl dom ch ((s.chan cl dom ch).early.length + 2)

/-- A cell that ends is no longer counted in the channels it is a member of (08 R205). -/
def State.leaveChannels (s : State) (c : Nat) : State :=
  let cell := s.cell c
  let cl := clusterOf c
  let drop (dom : Bool) (s : State) (ch : Nat) : State :=
    let h := s.chan cl dom ch
    if h.owner = some (chanOwner cell dom) then
      (s.setChan cl dom ch { h with mask := h.mask.filter (fun k => k != chanKey cell c dom) }).evalChan cl dom ch
    else s
  let s := (List.range 32).foldl (drop false) s
  if panValid cell.paninfo then
    let mine (s : State) (ch : Nat) : Bool := (s.chan cl true ch).owner == some (chanOwner cell true)
    (List.range 16).foldl (fun s ch =>
      if mine s ch then
        (drop true s ch).emit (.barrier (panId cell.paninfo) ch (panMember cell.paninfo) (c % 96) 6 0)
      else s) s
  else s

/-- The wait for phase p of a channel, as first entered or as re-entered (08 R206, R211). -/
def State.barWait (s : State) (c : Nat) (dom : Bool) (ch kind : Nat) (p : BitVec 32) : State × WaitRes :=
  let h := s.chan (clusterOf c) dom ch
  if h.past p then
    let v := if kind = 0 then p.setWidth 64 else if h.phase - p = 1 then h.last.result kind p else ones
    (s.acquire c (if dom then 4 else 2), .now v)
  else (s, .park (.bar ch dom kind p.toNat))

/-! ## Rings (06 R138, R139) -/

def Core.ring (k : Core) (r : Nat) : Ring := k.rings.get Ring.none r

def Core.setRing (k : Core) (r : Nat) (v : Ring) : Core := { k with rings := k.rings.set r v }

/-- msg.wait on ring r from position p (06 R139, R148). -/
def State.msgWait (s : State) (c r p : Nat) : State × WaitRes :=
  let g := (s.core c).ring r
  if g.size = 0 then (s, .now ones)
  else if g.tail.toNat ≠ p then (s, .now (g.tail.setWidth 64))
  else (s, .park (.msg r p))

/-- An arrival advances TAIL after its entry is written, and releases every strand that waits on the ring (06 R138 to R140). The sender
is kept with the entry, for the credit that HEAD returns (13 R328). -/
def State.ringArrival (s : State) (c r : Nat) (payload : Block) (from_ : ReserveReq) : State :=
  let k := s.core c
  let g := k.ring r
  let k := { k with store := k.store.write 8 (g.base + 64 * (g.tail.toNat % g.size)) 64 payload.toNat }
  let g' := { g with tail := g.tail + 1, granted := g.granted - 1, senders := g.senders ++ [from_] }
  let s := (s.setCore c (k.setRing r g')).noteActivity k.cellD.launch
  s.wakeAll c rMsg ((k.slotsWhere (fun sl => match sl.park with
    | some (.msg r' _) => r' == r
    | _ => false)).map (fun i => (i, g'.tail.setWidth 64)))

/-- The credit that a delivered message used (13 R328). -/
def creditOf (m : Msg) (device : Nat) : ReserveReq :=
  { srcDev := m.srcDev, srcCore := m.srcCore, srcSeq := m.srcSeq, srcPart := m.srcPart, panid := m.panid, pan := m.pan, dest := m.dest
    dstDev := device, core := m.core, ring := m.ring, object := m.object, credits := 1, ticket := none }

/-- A credit goes back to the fabric unit that used it (13 R328). -/
def State.returnCredit (s : State) (r : ReserveReq) : State :=
  if r.srcDev = s.device.toNat then s.push (.creditReturn r) else s.emit (.credit r)

/-- msg.take with FREE = 0 (06 R139). -/
def State.msgClaim (s : State) (c r : Nat) : State × Word :=
  let k := s.core c
  let g := k.ring r
  if g.claim = g.tail then (s, ones)
  else (s.setCore c (k.setRing r { g with claim := g.claim + 1 }), BitVec.ofNat 64 (g.base + 64 * (g.claim.toNat % g.size)))

/-- msg.take with FREE = 1 (06 R139): HEAD passes the entry, whose reservation returns (13 R328). -/
def State.msgFree (s : State) (c r : Nat) : State × Word :=
  let k := s.core c
  let g := k.ring r
  if g.head = g.claim then (s, ones)
  else
    let s := s.setCore c (k.setRing r { g with head := g.head + 1, senders := g.senders.drop 1, granted := g.granted + 1 })
    match g.senders with
    | x :: _ => (s.returnCredit x, 0)
    | [] => (s, 0)

/-! ## Work pools (06 R142 to R144) -/

def State.pool (s : State) (c p : Nat) : Pool := (s.cluster (clusterOf c)).pools.get Pool.free p

def State.setPool (s : State) (c p : Nat) (v : Pool) : State :=
  let k := s.cluster (clusterOf c)
  s.setCluster (clusterOf c) { k with pools := k.pools.set p v }

/-- The gang of a cell owns pool p (06 R142). -/
def Cell.ownsPool (cell : Cell) (p : Nat) : Bool := cell.cellinfo.getLsbD (48 + p)

/-- pool.put (06 R143): a parked taker gets the item, or it is stored. A pool that is closed answers 2, also where it is full (notes/assumptions/94.md). -/
def State.poolPut (s : State) (c p : Nat) (v : Word) : State × Word :=
  let q := s.pool c p
  let item := v &&& 0x7FFFFFFFFFFFFFFF
  if !q.isOpen then (s, 2)
  else
    match q.takers with
    | (c', i') :: r => (((s.setPool c p { q with takers := r }).acquire c' 2).wake c' i' rMsg item, 0)
    | [] => if 2048 ≤ q.items.length then (s, 1) else (s.setPool c p { q with items := q.items ++ [item] }, 0)

/-- pool.take (06 R143, R144, R148). -/
def State.poolTake (s : State) (c i p : Nat) : State × WaitRes :=
  let q := s.pool c p
  match q.items with
  | v :: r => ((s.setPool c p { q with items := r }).acquire c 2, .now v)
  | [] =>
    if !q.isOpen then (s.acquire c 2, .now ones)
    else (s.setPool c p { q with takers := q.takers ++ [(c, i)] }, .park (.pool p))

/-- pool.close (06 R143, R144). -/
def State.poolClose (s : State) (c p : Nat) (reopen : Bool) : State :=
  let q := s.pool c p
  if reopen then s.setPool c p { q with isOpen := true }
  else
    q.takers.foldl (fun s t => (s.acquire t.1 2).wake t.1 t.2 rMsg ones) (s.setPool c p { q with isOpen := false, takers := [] })

/-! ## Joins (06 R130) -/

/-- strand.join of handle h by slot i. -/
def State.join (s : State) (c i : Nat) (h : Word) : State × WaitRes :=
  match (s.core c).named h with
  | .current j => if j = i then (s, .now ones) else (s, .park (.join j (s.slot c j).serial.toNat))
  | .ended v => (s, .now v)
  | _ => (s, .now ones)

/-- Every strand that waits for the instance in slot j is released (06 R129, R130). -/
def State.releaseJoin (s : State) (c j : Nat) (serial : BitVec 24) (v : Word) : State :=
  s.wakeAll c rStrand (((s.core c).slotsWhere (fun sl => match sl.park with
    | some (.join j' n) => j' == j && n == serial.toNat
    | _ => false)).map (fun i => (i, v)))

/-! ## The quiescence detector (06 R145 to R147) -/

/-- The launch with a number. -/
def State.launchAt (s : State) (l : Nat) : Option Launch := if s.launches.has l then s.launches.find? (fun e => e.1 == l) |>.map (·.2) else none

/-- The panorama with an identifier. -/
def State.panAt (s : State) (p : Nat) : Option Panorama := s.pans.find? (fun e => e.1 == p) |>.map (·.2)

def State.mapLaunch (s : State) (l : Nat) (f : Launch → Launch) : State :=
  { s with launches := s.launches.map (fun e => if e.1 = l then (e.1, f e.2) else e) }

def State.mapPan (s : State) (p : Nat) (f : Panorama → Panorama) : State :=
  { s with pans := s.pans.map (fun e => if e.1 = p then (e.1, f e.2) else e) }

/-- The request of one access to another device (13 R321, R322); id names the strand, the engine command or the attach that waits. -/
def State.request (s : State) (c id : Nat) (space member core : Nat) (acc : Access) (ticket : Option Nat) : RemoteReq :=
  let cell := s.cell c
  { srcDev := s.device.toNat, srcCore := c, srcSlot := id, srcPart := cell.part, panid := panId cell.paninfo
    srcMember := panMember cell.paninfo, space := space, member := member, core := core, acc := acc, ticket := ticket, post := none }

/-- The device of a panorama's detector instance is that of member 0 (06 R145; notes/assumptions/21.md). -/
def Panorama.home (q : Panorama) : Option Nat := (q.members.find? (fun e => e.1 == 0)).map (fun e => e.2.device)

/-- A q.arm of a cell arms its panorama's instance (06 R146). -/
def armsPan (cell : Cell) (t : Word) : Bool := t.getLsbD 0 && panValid cell.paninfo

/-- The device that a q.arm asks: none where the instance is this device's. -/
def State.armedAt (s : State) (cell : Cell) (t : Word) : Option Nat :=
  if armsPan cell t then ((s.panAt (panId cell.paninfo)).bind Panorama.home).filter (fun d => d != s.device.toNat) else none

/-- The numbers of a panorama's detector instance go to the devices of its other members (06 R145 to R147). -/
def State.tellDetector (s : State) (p : Nat) : State :=
  match s.panAt p with
  | none => s
  | some q =>
    let d := q.detector
    (q.members.foldl (fun l e => if e.2.device = s.device.toNat then l else insertNat e.2.device l) []).foldl (fun s dev =>
      s.emit (.remoteRequest { srcDev := s.device.toNat, srcCore := 0, srcSlot := 0, srcPart := q.part, panid := p, srcMember := 0, space := 7, member := dev, core := 0
                               acc := ⟨.load, 0, 8, if d.everDeclared then 1 else 0, BitVec.ofNat 128 (d.gen.toNat + d.declared.toNat * 2 ^ 32), 0⟩
                               ticket := none, post := none })) s

/-- The detector instance that a cell's q operations use: the panorama's after a q.arm with t[0] = 1 (06 R146), else the launch's. -/
def State.detectorOf (s : State) (cell : Cell) (pan : Bool) : Detector :=
  if pan && panValid cell.paninfo then (s.panAt (panId cell.paninfo)).elim Detector.fresh (·.detector)
  else (s.launchAt cell.launch).elim Detector.fresh (·.detector)

/-- q.wait for generation n (06 R147). It waits on the instance that the generation was armed on; a panorama member's panorama instance is
taken when this device knows it to be armed (notes/assumptions/21.md). -/
def State.quietDone (s : State) (cell : Cell) (n : Nat) : Option (BitVec 32) :=
  let pan := panValid cell.paninfo && (s.detectorOf cell true).gen != 0
  let d := s.detectorOf cell pan
  if d.everDeclared && decide ((d.declared - BitVec.ofNat 32 n).toNat < 2 ^ 31) then some d.declared else none

def State.quietWait (s : State) (c n : Nat) : State × WaitRes :=
  let cell := s.cell c
  match s.quietDone cell n with
  | some g => (s.acquire c (if panValid cell.paninfo then 4 else 3), .now (g.setWidth 64))
  | none => (s, .park (.quiet n))

/-! ## Sleep (06 R132) -/

/-- strand.sleep for n cycles of slot i. -/
def State.sleep (s : State) (c i n : Nat) : State × WaitRes :=
  let sl := s.slot c i
  if sl.wake then (s.setSlot c i { sl with wake := false }, .now 1)
  else if n = 0 then (s, .now 0)
  else if n = 0xFFFFFFFF then (s, .park (.sleep none))
  else (s, .park (.sleep (some ((s.core c).cycles + n))))

/-! ## Re-entering a recorded wait (02 R48, R56; 06 R148; 08 R203, R211) -/

/-- The result port of a wait by its WAITDESC code. -/
def waitPortOf (code : Nat) : Nat :=
  match code with
  | 1 => rSem
  | 2 => rBar
  | 5 => rStrand
  | 7 => rStrand
  | _ => rMsg

/-- The wait that a WAITDESC records, entered afresh for slot i. -/
def State.reenter (s : State) (c i : Nat) (d : Word) : State × WaitRes :=
  let object := bitsOf d.toNat 16 16
  let arg := bitsOf d.toNat 32 32
  match bitsOf d.toNat 0 4 with
  | 1 =>
    let j := object % 1024
    if ((s.core c).sem j).arrival ≠ decide (bitsOf object 10 1 = 1) then (s, .now ones) else s.semWait c i j arg
  | 2 => s.barWait c (bitsOf object 5 1 == 1) (object % 32) (bitsOf object 6 3) (BitVec.ofNat 32 arg)
  | 3 => s.msgWait c (object % 8) arg
  | 4 => if (s.cell c).ownsPool (object % 16) then s.poolTake c i (object % 16) else (s, .now ones)
  | 5 => s.join c i (BitVec.ofNat 64 (object % 256 + (arg % 2 ^ 24) * 256))
  | 6 => s.quietWait c arg
  | _ => s.sleep c i arg

/-- Return from a stop (14 R365): the strand resumes, re-entering its recorded wait; false when WAITDESC is refused. -/
def State.resume (s : State) (c i : Nat) : State × Bool :=
  let sl := s.slot c i
  let code := bitsOf sl.waitdesc.toNat 0 4
  if 8 ≤ code ∨ bitsOf sl.waitdesc.toNat 4 12 ≠ 0 then (s, false)
  else if code = 0 then (s.resumeReady c i, true)
  else
    let d := sl.waitdesc
    let r := (s.resumeReady c i).reenter c i d
    match r.2 with
    | .now v => (r.1.setSlot c i ((r.1.slot c i).setRes (waitPortOf code) v), true)
    | .park p => (r.1.setSlot c i { r.1.slot c i with st := p.state, park := some p }, true)

end Sys2Proof.Machine
end

