-- ==== Sys2Proof/Machine/Life.lean ====
section
/-! DEFINITION. Stops, and the ends of strands, cells, gangs and launches (01 R20, 02 R57, 06 R129, R135, 13 R337, 14 R354 to R372,
16 R409, R410). -/

namespace Sys2Proof.Machine

/-! ## Withdrawing a waiting access (07 R157, R182) -/

/-- A controller's list without the accesses of a strand. -/
def Retry.without (r : Retry) (c i : Nat) : Retry :=
  { r with entries := r.entries.filter (fun x => match x.who with
      | .strand c' i' => !(c' == c && i' == i)
      | .remote _ => true) }

/-- The waiting access of a strand is removed from its controller (07 R157). Accesses that waited behind it only are served then (notes/assumptions/85.md). -/
def State.withdrawFe (s : State) (c i : Nat) : State :=
  match (s.slot c i).held with
  | some h =>
    match h.why with
    | .feLocal _ => s.serveCore c ((s.core c).retry.without c i)
    | .feAt (.core d) => s.serveCore d ((s.core d).retry.without c i)
    | .feAt (.stack n) => s.serveStack n ((s.stack n).retry.without c i)
    | _ => s
  | none => s

/-! ## A stop of one strand (02 R57) -/

/-- A held word whose reply comes first: the stop is taken when the word has resolved (02 R57, 06 R148, 13 R347). -/
def Hold.resolvesFirst : Hold → Bool
  | .remote _ => true
  | .pool => true
  | .detector => true
  | .mnt => true
  | .stopping _ _ => true
  | .logSpace => true
  | .repair _ => true
  | .feLocal _ => true
  | .feAt _ => true
  | .fePeer _ => true
  | .engine _ => false
  | .page _ => false
  | .peerPage _ => false
  | .gmma _ => true
  | .panWait => false
  | .panReply => true
  | .fence => false
  | .drain => false

/-- A waiting access is asked back from its controller, and so are what a word has asked another device for: a page there, or an attach (02 R57, 13 R347). -/
def Hold.withdrawable : Hold → Bool
  | .feLocal _ => true
  | .feAt _ => true
  | .fePeer _ => true
  | .peerPage _ => true
  | .panWait => true
  | _ => false

/-- A stop is requested of a strand (02 R57, R58). A word in the pipeline retires or faults first. -/
def State.stop (s : State) (c i : Nat) : State :=
  let sl := s.slot c i
  let pend := s.setSlot c i { sl with stopReq := true }
  match sl.st with
  | .free => s
  | .trapped => s
  | .stopped => s
  | _ =>
    match sl.held with
    | some h =>
      if h.why.withdrawable then pend.push (.feWithdraw c i)
      else if h.why.resolvesFirst then pend
      else s.toStopped c i
    | none => if sl.st = .issued then pend else s.toStopped c i

/-! ## The end of a strand (06 R129) -/

/-- Records of a slot that have not been handed to a handler or claimed leave the mailbox; one place freed lets a held record be
written (14 R352, R354). -/
def State.dropRecord (s : State) (c i : Nat) : State :=
  let cl := clusterOf c
  let k := s.cluster cl
  let mine (r : MailRec) : Bool := r.core == c && r.slot == i && !r.handed && !r.claimed
  if k.mailbox.any mine then
    let s := s.setCluster cl { k with mailbox := k.mailbox.filter (fun r => !mine r) }
    ((s.core c).slotsWhere (fun sl => sl.trap.isSome)).foldl (fun s j => s.push (.mailboxRecordWrite c j)) s
  else s

/-- A slot that no strand is in any more: its registers and ports keep their values until the next creation, and a pending result is discarded (06 R118, R128,
R129). -/
def Slot.emptied (sl : Slot) : Slot :=
  { sl with
    st := .free, res := sl.res.map (fun e => (e.1, { e.2 with pending := false })), waitdesc := 0, level := 0, base := 0, age := 0, yield := false, wake := false
    step := false, skipBreak := false, stopReq := false, squashes := 0, readyAt := 0, issuedAt := 0, seen := [], units := [], fetch := none, held := none, park := none
    trap := none, killBy := none }

/-- The slot of an ended strand: FREE, with its serial counter and its exit record (06 R118). -/
def Slot.ended (sl : Slot) (v : Word) : Slot := { sl.emptied with exitSerial := sl.serial, exitValue := v }

/-- A strand ends with an exit value: it leaves every wait, its record is withdrawn, its joiners are released (06 R129, R135). What
follows for the cell is State.afterEnd. -/
def State.endStrand (s : State) (c i : Nat) (v : Word) : State :=
  let s := ((((s.leaving c i).withdrawFe c i).leaveWait c i).leaveLine c i).dropRecord c i
  let s := (s.traceStrand c i 4 4 [1]).1
  let sl := s.slot c i
  let s := { s.setSlot c i (sl.ended v) with current := if s.current = some (c, i) then none else s.current }
  ((s.answerStops c i).releaseJoin c i sl.serial v).checkSaved c

/-! ## The end of a cell, a gang and a launch (01 R20, 06 R129, 16 R409) -/

/-- No engine of the core holds a command of its cell, and the die's collective engine holds none of the core's. -/
def State.quietCore (s : State) (c : Nat) : Bool :=
  let k := s.core c
  k.cpy.cmds.isEmpty && k.mx.cmds.isEmpty && k.vx.cmds.isEmpty && k.fab.cmds.isEmpty
    && (s.die (dieOf c)).col.cmds.all (fun m => m.core != c)

/-- A member of the panorama with an identifier. -/
def State.member (s : State) (p m : Nat) : Option Member :=
  match s.panAt p with
  | some q => q.members.find? (fun e => e.1 == m) |>.map (·.2)
  | none => none

def State.mapMember (s : State) (p m : Nat) (f : Member → Member) : State :=
  s.mapPan p (fun q => { q with members := q.members.map (fun e => if e.1 = m then (e.1, f e.2) else e) })

/-- Whether the core of an ended cell may be returned: always, but for a panorama member that has not departed (01 R20, 13 R337). -/
def State.mayReturn (s : State) (cell : Cell) : Bool :=
  if panValid cell.paninfo then
    match s.member (panId cell.paninfo) (panMember cell.paninfo) with
    | some m => m.state == 3
    | none => true
  else true

/-- Merges the unmerged log entries of a core into the D bits and clears its filter (07 R172, R173). -/
def State.mergeLog (s : State) (c : Nat) : State :=
  let k := s.core c
  let entry (j : Nat) : Nat := k.store.read (0x17F000 + 8 * (j % 512)) 8
  let es := (upFrom k.logMerged (k.logCount - k.logMerged)).map entry
  let s := es.foldl (fun s e => s.setDirtyBit (bitsOf e 28 4) (bitsOf e 0 26 * 2 ^ 16)) s
  s.setCore c { s.core c with logMerged := k.logCount, logFilter := [] }

/-- Accesses of others that wait at a core that is returned are sent again by their sources (01 R15, 07 R157). -/
def State.turnAway (s : State) (l : List Waiter) : State :=
  l.foldl (fun s x => match x.who with
    | .remote r => s.emit (.remoteReply r.srcDev r.srcCore r.srcSlot (.nack 0))
    | .strand c i =>
      match (s.slot c i).held with
      | some h => (s.setSlot c i { s.slot c i with held := some { h with reply := some (.nack 0) } }).push (.feRetryResend c i)
      | none => s) s

/-- The records of a core leave the mailbox: firmware has disposed of them with its cell (14 R352). -/
def State.clearMail (s : State) (c : Nat) : State :=
  let k := s.cluster (clusterOf c)
  s.setCluster (clusterOf c) { k with mailbox := k.mailbox.filter (fun r => r.core != c) }

/-- The core holds no cell any more: its lines are written back and its log is merged (06 R129, 07 R161, R173, 14 R371). The core
keeps its cycle count, its creation counter, its error counters, its B plane and its reservation cache; its store, accumulators, tables, semaphores and the registers of
its slots hold their values until the next load clears them (07 R154). left is the cell that they are of. -/
def State.vacateCore (s : State) (c : Nat) : State :=
  let s := (s.cleanLines c (fun _ => true)).mergeLog c
  let k := s.core c
  (s.setCore c { Core.idle with
    cycles := k.cycles, created := k.created, ue := k.ue, ce := k.ce, gated := k.gated, plane := k.plane, credits := k.credits
    left := k.cell, store := k.store, acc := k.acc, accBad := k.accBad, accFound := k.accFound, tables := k.tables
    sems := k.sems.map (fun e => (e.1, { e.2 with waiters := [] }))
    slots := k.slots.map (fun e => (e.1, if e.2.occupied then e.2.emptied else e.2)) }).clearMail c |>.turnAway k.retry.entries

/-- What returns here is reported to the devices whose PANLAUNCHes wait for this one (16 R415). -/
def State.tellWaiting (s : State) : State := s.panWaits.foldl (fun s e => s.emit (.plain 15 6 [e.1, e.2])) s

/-- The core of an ended cell is returned (06 R129). -/
def State.returnCore (s : State) (c : Nat) : State := (s.vacateCore c).tellWaiting.push .dispatchDecision

/-- A change of a gang of a launch. -/
def State.mapGang (s : State) (l g : Nat) (f : Gang → Gang) : State :=
  s.mapLaunch l (fun la => { la with gangs := la.gangs.map (fun e => if e.1 = g then (e.1, f e.2) else e) })

/-- The gangs of a launch that have loaded, or all of an ending launch, have ended. -/
def Launch.over (l : Launch) : Bool := l.gangs.all (fun e => e.2.ended)

/-- A channel that no gang owns any more: its counters keep their values until the next gang takes it (08 R204). -/
def Channel.freed (h : Channel) : Channel := { h with owner := none, mask := [], early := [] }

/-- The channels and pools of a gang are freed. -/
def State.freeOwned (s : State) (l g : Nat) : State :=
  { s with clusters := s.clusters.map (fun e => (e.1, { e.2 with
      channels := e.2.channels.map (fun x => if x.2.owner = some (l, g) then (x.1, x.2.freed) else x)
      pools := e.2.pools.filter (fun x => x.2.owner != some (l, g)) })) }

/-- A gang is over when none of its cores holds one of its cells (01 R20): its channels and pools are freed, and the last gang ends
the launch (16 R409). -/
def State.checkGang (s : State) (l g : Nat) : State :=
  match s.launchAt l with
  | none => s
  | some la =>
    match la.gangs.find? (fun e => e.1 == g) with
    | none => s
    | some (_, ga) =>
      let holds (c : Nat) : Bool := match (s.core c).cell with
        | some cell => cell.launch == l && cell.gang == g
        | none => false
      if ga.ended || !ga.loaded || ga.cores.any holds || !ga.saved.isEmpty then s
      else
        let s := (s.freeOwned l g).tellWaiting
        let la' := { la with gangs := la.gangs.map (fun e => if e.1 = g then (e.1, { e.2 with ended := true, cluster := none }) else e) }
        let s := s.mapLaunch l (fun _ => la')
        if la'.over then (s.push (.launchCompletion l)).push .dispatchDecision else s.push .dispatchDecision

/-- Returns the core of an ended cell as soon as its accepted commands have completed and posted (06 R129). -/
def State.tryReturn (s : State) (c : Nat) : State :=
  match (s.core c).cell with
  | none => s
  | some cell =>
    if cell.ended && s.quietCore c && s.mayReturn cell then (s.returnCore c).checkGang cell.launch cell.gang else s

/-- The reservations of discarded intake entries return to their senders (01 R20, 13 R328). -/
def State.returnCredits (s : State) (ms : List Msg) : State := ms.foldl (fun s m => s.returnCredit (creditOf m s.device.toNat)) s

/-- Discards the intake of an ended cell, returning each entry's reservation (01 R20, 13 R328). -/
def State.discardIntake (s : State) (c : Nat) : State :=
  let k := s.core c
  (s.setCore c { k with intake := [] }).returnCredits k.intake

/-- The intake entries of the saved cells of a gang. -/
def Gang.savedIntake (ga : Gang) : List Msg := ga.saved.flatMap (fun e => e.2.intake)

/-- A cell ends (01 R20): its intake is discarded and it leaves its channels. The end of a panorama gang's last strand acts as
pan.exit, and its core is returned when the member departs (13 R335, R337). -/
def State.endCell (s : State) (c : Nat) : State :=
  let s := (s.mapCell c (fun cell => { cell with ended := true })).discardIntake c
  let s := s.leaveChannels c
  let cell := s.cell c
  let s := if panValid cell.paninfo then
      let p := panId cell.paninfo
      let n := panMember cell.paninfo
      let alive := s.cores.any (fun e => match e.2.cell with
        | some k => panValid k.paninfo && panId k.paninfo == p && panMember k.paninfo == n && !k.ended
        | none => false)
      if alive then s else (s.mapMember p n (fun m => if m.state = 1 then { m with state := 2 } else m)).push (.memberDeparture p n)
    else s
  s.tryReturn c

/-- What follows the end of the strand in slot i: an entry of the intake is delivered in the next cycle, into that slot where the strand was the cell's last
(notes/assumptions/82.md), or the cell of the last strand ends (06 R129). -/
def State.afterEnd (s : State) (c i : Nat) : State :=
  let k := s.core c
  match k.cell with
  | none => s
  | some cell =>
    let last := !cell.ended && !k.slots.any (fun e => e.2.occupied)
    if cell.preempt ≠ .running then s
    else if !k.intake.isEmpty then
      (if last && decide (i < 255) then s.setCore c { k with intakeSlot := some i } else s).pushOnce (.intakeDelivery c)
    else if last then s.endCell c
    else s

/-- A strand ends and its cell with it where it was the last (06 R129, R135). -/
def State.finishStrand (s : State) (c i : Nat) (v : Word) : State := (s.endStrand c i v).afterEnd c i

/-- A strand ends by strand.kill, which is a reset of level 0 (06 R135, 18 R454). -/
def State.killStrand (s : State) (c i : Nat) (v : Word) : State := (s.filmReset 0 c 0).finishStrand c i v

/-- Every strand of a cell ends with a value (14 R356, 16 R410). -/
def State.endAll (s : State) (c : Nat) (v : Word) : State :=
  ((s.core c).slotsWhere (fun sl => sl.occupied)).foldl (fun s i => s.endStrand c i v) s

/-- A cell is ended by firmware or by its handler's disposition, a reset of level 1 (01 R20, 14 R356, 18 R454). -/
def State.killCell (s : State) (c : Nat) : State :=
  let s := s.filmReset 0 c 1
  let s := (s.mapCell c (fun cell => { cell with preempt := .running })).endAll c ones
  let s := s.setCore c { s.core c with handling := none, posts := [] }
  (s.clearMail c).endCell c

/-- The cores that hold a live cell of a launch. -/
def State.coresOf (s : State) (l : Nat) : List Nat :=
  (s.cores.filter (fun e => match e.2.cell with
    | some cell => cell.launch == l && !cell.ended
    | none => false)).map (·.1)

/-- The early end of a launch by firmware (16 R410): every strand and cell ends; its undispatched and its saved gangs end with it. The end of
each gang is a reset of level 3 (18 R454). -/
def State.endLaunch (s : State) (l detail : Nat) (info0 info1 : Word) : State :=
  match s.launchAt l with
  | none => s
  | some la =>
    if la.ending.isSome then s
    else
      let out := la.gangs.filter (fun e => !(e.2.loaded && e.2.saved.isEmpty))
      let s := s.mapLaunch l (fun la => { la with
        ending := some (detail, info0, info1)
        gangs := la.gangs.map (fun e =>
          if e.2.loaded && e.2.saved.isEmpty then e
          else (e.1, { e.2 with ended := true, cluster := none, saved := [], savedChannels := [], savedPools := [], loaded := true })) })
      let s := out.foldl (fun s e => (s.freeOwned l e.1).returnCredits e.2.savedIntake) s
      let s := match la.pan with
        | some p => (s.mapMember p la.member (fun m => { m with state := 2, holders := [] })).push (.memberDeparture p la.member)
        | none => s
      let s := (la.gangs.filterMap (fun e => e.2.cluster)).foldl (fun s n => s.filmReset 1 n 3) s
      let s := (s.coresOf l).foldl (fun s c => s.killCell c) s
      let la' := (s.launchAt l).getD la
      (if la'.over then s.push (.launchCompletion l) else s).push .dispatchDecision

/-! ## When an engine has finished a command (06 R129, 14 R366) -/

/-- Engine units in the order of sys.drain's mask (14 R366). -/
def State.unitQuiet (s : State) (c : Nat) (unit : Nat) : Bool :=
  let k := s.core c
  match unit with
  | 0 => k.cpy.cmds.isEmpty
  | 1 => k.mx.cmds.isEmpty
  | 2 => k.vx.cmds.isEmpty
  | 3 => k.fab.cmds.all (fun m => m.first == 2)
  | _ => (s.die (dieOf c)).col.cmds.all (fun m => m.core != c)

/-- The cores of this device that a sys.drain at a core covers: in a save handler, those of every cell pre-empted with it (14 R366, R369). -/
def State.drainCores (s : State) (c : Nat) : List Nat :=
  let cell := s.cell c
  if cell.preempt = .saving then
    (s.cores.filter (fun e => match e.2.cell with
      | some k => !k.ended && ((k.launch == cell.launch && k.gang == cell.gang)
          || (panValid cell.paninfo && panValid k.paninfo && panId k.paninfo == panId cell.paninfo))
      | none => false)).map (·.1)
  else [c]

/-- The engines that a mask selects are drained at the cores that a sys.drain covers (14 R366). -/
def State.drained (s : State) (c : Nat) (mask : Nat) : Bool :=
  let units := (List.range 5).filter (fun u => mask % 32 == 0 || bitsOf mask u 1 == 1)
  (s.drainCores c).all (fun d => units.all (fun u => s.unitQuiet d u))

/-- The launches of a panorama's members on this device. -/
def Panorama.launches (q : Panorama) : List Nat := q.members.filterMap (fun e => e.2.launch)

/-- A panorama has members elsewhere. -/
def Panorama.abroad (q : Panorama) : Bool := q.members.any (fun e => e.2.launch.isNone)

/-- The package core at which a saved cell lay. -/
def savedAt (k : Core) : Nat := bitsOf k.cellD.cellinfo.toNat 8 3 * 96 + bitsOf k.cellD.cellinfo.toNat 0 7

/-- A message of a saved cell travels on, kept by its cluster under a number from 2^32 up (14 R366). -/
def courierSeq : Nat := 2 ^ 32

/-- A cell's refused messages pass to its cluster manager with their credits (14 R366). -/
def State.sendCouriers (s : State) (c : Nat) : State :=
  let k := s.cluster (clusterOf c)
  let ms := ((s.core c).fab.cmds.filter (fun m => m.first == 2)).map (fun m => { m with seq := m.seq + courierSeq })
  let s := s.setCluster (clusterOf c) { k with couriers := k.couriers ++ ms }
  let s := s.setCore c { s.core c with fab := { (s.core c).fab with cmds := (s.core c).fab.cmds.filter (fun m => m.first != 2) } }
  ms.foldl (fun s m => s.pushOnce (.refusedArrivalRetry c m.seq)) s

/-- The refused messages of a drained fabric unit pass to the manager. -/
def State.passRefused (s : State) (c mask : Nat) : State :=
  if mask % 32 == 0 || bitsOf mask 3 1 == 1 then (s.drainCores c).foldl (fun s d => s.sendCouriers d) s else s

/-- A save handler's sys.drain covers members of a panorama on other devices (14 R376). -/
def State.drainsFar (s : State) (c : Nat) : Bool :=
  let cell := s.cell c
  cell.preempt == .saving && panValid cell.paninfo && (s.panAt (panId cell.paninfo)).elim false (·.abroad)

/-- The cores of this device that a panorama's cells being saved hold (14 R376). -/
def State.panDrainCores (s : State) (p : Nat) : List Nat :=
  (s.cores.filter (fun e => match e.2.cell with
    | some k => !k.ended && panValid k.paninfo && panId k.paninfo == p
    | none => false)).map (·.1)

/-- The drains that other devices have asked for are answered when the engines of the panorama's members here are quiet (14 R376). -/
def State.answerFarDrains (s : State) : State :=
  s.pans.foldl (fun s e =>
    let cs := s.panDrainCores e.1
    let units (mask : Nat) : List Nat := (List.range 5).filter (fun u => mask % 32 == 0 || bitsOf mask u 1 == 1)
    let done := e.2.drainAsks.filter (fun a => cs.all (fun d => (units a.2).all (fun u => s.unitQuiet d u)))
    if done.isEmpty then s
    else
      let s := s.mapPan e.1 (fun q => { q with drainAsks := q.drainAsks.filter (fun a => !done.contains a) })
      let s := if done.any (fun a => (units a.2).contains 3) then cs.foldl (fun s d => s.sendCouriers d) s else s
      done.foldl (fun s a => s.emit (.plain 14 9 [e.1, a.1])) s) s

/-- The strands whose sys.drain word is held and whose engines are drained retire (14 R366); a word that waits for other devices has their answer (14 R376). -/
def State.answerDrains (s : State) : State :=
  s.answerFarDrains.cores.foldl (fun s e =>
    ((s.core e.1).slotsWhere (fun sl => match sl.held with
      | some h => h.why == .drain
      | none => false)).foldl (fun s i =>
        match (s.slot e.1 i).held with
        | some h =>
          match resolvingMove h.moves with
          | some m =>
            if s.drained e.1 m.val.toNat && (!s.drainsFar e.1 || h.answers.has 0) then
              (s.passRefused e.1 m.val.toNat).finishHeld e.1 i h (fun _ sl => sl.setRes rSys 0)
            else s
          | none => s
        | none => s) s) s.answerFarDrains

end Sys2Proof.Machine
end

