-- ==== Sys2Proof/Machine/Lsu.lean ====
section
/-! DEFINITION. How a resolving operation ends, and the load, store and atomic units (07 R151 to R182). -/

namespace Sys2Proof.Machine

/-- What a resolving operation knows of its word: the core, the slot, the move that triggers it, the word's offset, the following
offset and its first 64 bits. -/
structure Ctx where
  core : Nat
  slot : Nat
  m : MoveVal
  here : Word
  next : Word
  word : Word
  deriving DecidableEq, Repr

/-- How a resolving operation ends. done holds the state with the word committed; hold holds the state with the word not committed,
the reason, the slot state, and a reply that is already there. -/
inductive Trig where
  | done (s : State)
  | fault (f : FaultInfo)
  | hold (s : State) (why : Hold) (st : SlotState) (reply : Option Reply)
  deriving DecidableEq, Repr

/-! ## The checks of an access (07 R152, R177, R178) -/

/-- The rights of an access: RD where it reads, WR and CN = 0 where it writes, AT for an amo (07 R152). -/
def Seg.allows (g : Seg) (rd wr at_ : Bool) : Bool := (!rd || g.rd) && (!wr || (g.wr && !g.cn)) && (!at_ || g.at_)

/-- A range of a core store touches the log area of a core that logs (07 R158). -/
def State.logArea (s : State) (c a n : Nat) : Bool := (s.core c).logging && decide (0x17F000 < a + n)

/-- The package core of a cluster-space location (07 R151). -/
def clusterTarget (c l : Nat) : Nat := clusterOf c * 96 + bitsOf l 21 7

/-- The checks of lsu and amo after CheckMode, in the order of 07 R178; it answers the space and the location. -/
def State.accessCheck (s : State) (c : Nat) (sl : Slot) (ea : Word) (n : Nat) (rd wr at_ : Bool) : Except FaultInfo (Nat × Nat) :=
  let cell := s.cell c
  let g := sl.seg (segNo ea)
  let f := offOf ea
  if !(g.space == 1 || g.space == 2 || g.space == 4) || !g.allows rd wr at_ then .error (faultAt cSegRights ea)
  else if g.limit < f + n then .error (faultAt cSegLimit ea)
  else
    match g.locate (panMembers cell.paninfo) f n with
    | none => .error (faultAt cSegLimit ea)
    | some l =>
      let tgt := if g.space = 2 then clusterTarget c l else c
      if l % n ≠ 0 then .error (faultAt cMisaligned ea)
      else if g.space = 2 && !(match (s.core tgt).cell with | some k => k.launch == cell.launch | none => false) then
        .error (faultAt cSegRights ea)
      else if g.space ≠ 4 && s.logArea tgt (l % 2 ^ 21) n then .error (faultAt cSegRights ea)
      else
        match s.watchHit cell.part sl.gsi g.space l n rd wr with
        | some w => .error ⟨cBreakpoint, 128 + w, some ea, 0⟩
        | none => .ok (g.space, l)

/-! ## Accesses to memory (07 R164, R169, R175) -/

/-- The outcome of an access to device memory at its controller. -/
inductive DevRes where
  | fault (code : Nat)
  | page
  | held (stack : Nat)
  | res (r : AccRes)
  deriving DecidableEq, Repr

/-- The access reads: a load or an amo. -/
def accReads (a : Access) : Bool :=
  match a.op with
  | .store => false
  | _ => true

/-- An access to virtual address acc.addr of a partition, at the stack controller of its word (07 R164, R169, R175), where a region under repair holds it
(15 R382). -/
def State.deviceAccess (s : State) (cl part : Nat) (x : Waiter) (ticket : Option Nat) : State × DevRes :=
  let t := s.translate cl part x.acc.addr (accReads x.acc) (accWrites x.acc)
  match t.2 with
  | .fault code => (t.1, .fault code)
  | .park => (t.1, .page)
  | .ok phys disc _ =>
    if disc && !accWrites x.acc then (t.1, .res (.done 0 0))
    else
      match (t.1.heldAt phys).or (if disc then t.1.heldFor part x.acc.addr x.acc.n else none) with
      | some n => (t.1, .held n)
      | none =>
        let s := t.1.cancelDiscard part x.acc.addr
        let r := s.stackAccess { x with acc := { x.acc with addr := phys } } ticket
        (r.1, .res r.2)

/-- A word's access waits for the end of a hold of stack n (15 R382, R383): its strand stays ISSUED. -/
def State.holdWord (s : State) (c i n : Nat) : Trig := .hold (s.delay n (.word c i)) (.repair n) .issued none

/-- The end of an access of a strand's word: the value is delivered, the acquires of its mode are performed (07 R178, R181). -/
def State.accessDone (s : State) (cx : Ctx) (sl : Slot) (mode : Word) (space v : Nat) (fl : FFlags) : Trig :=
  .done ((s.setSlot cx.core cx.slot (deliverAccess cx.m.dst sl v fl)).acquireAfter cx.core mode space)

/-- The result of an access at a controller, for the word that made it (07 R156, R157, R176). -/
def State.accessEnd (s : State) (cx : Ctx) (sl : Slot) (ea mode : Word) (space : Nat) (why : Hold) : AccRes → Trig
  | .done v fl => s.accessDone cx sl mode space v fl
  | .lost => .fault (faultAt cDataLost ea)
  | .parked => .hold s why .waitFe none
  | .nacked t => .hold (s.push (.feRetryResend cx.core cx.slot)) why .waitFe (some (.nack t))

/-- The release that precedes an access (07 R178). -/
def State.releaseBefore (s : State) (c : Nat) (mode : Word) (space : Nat) : State :=
  let s := if modeOrder mode = 2 ∨ modeOrder mode = 3 then s.release c (modeScope mode) else s
  if modeFe mode = 3 then s.release c (spaceScope space) else s

/-- An access of a strand performed at a controller: core space, cluster space, or a device access that is not served by the line
cache (07 R156, R157, R164). -/
def State.controllerAccess (s : State) (cx : Ctx) (sl : Slot) (ea mode : Word) (space l : Nat) (acc : Access) (ticket : Option Nat) : Trig :=
  let c := cx.core
  let who := Requester.strand c cx.slot
  let s := s.releaseBefore c mode space
  if space = 4 then
    let part := (s.cell c).part
    let s := s.expelLine c part l
    if accLogged acc && !(s.core c).logRoom l then .hold s .logSpace .issued none
    else
      let r := s.deviceAccess (clusterOf c) part ⟨acc, who⟩ ticket
      match r.2 with
      | .fault code => .fault (faultAt code ea)
      | .page => .hold r.1 (.page l) .waitPage none
      | .held n => r.1.holdWord c cx.slot n
      | .res a =>
        let s := match a with
          | .done .. => if accLogged acc then r.1.logWrite c part l else r.1
          | _ => r.1
        let n := match s.walk part l with
          | .leaf e size _ => stackOf (pteFrame e + l % size)
          | .invalid => 0
        s.accessEnd cx sl ea mode space (.feAt (.stack n)) a
  else
    let tgt := if space = 2 then clusterTarget c l else c
    let r := s.coreAccess tgt ⟨{ acc with addr := l % 2 ^ 21 }, who⟩ ticket
    r.1.accessEnd cx sl ea mode space (if tgt = c then .feLocal (l % 2 ^ 21 / 8) else .feAt (.core tgt)) r.2

/-! ## The line cache (07 R160, R161) -/

/-- The words of a line that are dirty in the cache, over the 64 bytes of memory: what a load that misses returns (07 R161, R165). -/
def overlay (l : Option CacheLine) (mem : Block) : Block :=
  match l with
  | some l => mergeWords l.dirty mem l.data
  | none => mem

/-- The 64 bytes of memory under a translated address; a discarded page reads zero (07 R175). -/
def State.memLine (s : State) (phys : Nat) (disc : Bool) : Block := if disc then 0 else s.memory.block (phys / 64 * 64)

/-- The line after a fill from memory (07 R160, R161). -/
def fillLine (old : Option CacheLine) (part va : Nat) (mem : Block) (cn wok : Bool) : CacheLine :=
  match old with
  | some l => { l with valid := 255, data := mergeWords l.dirty mem l.data, filled := true, cn := cn && (l.cn || !l.filled), wok := wok }
  | none => { part := part, va := lineOf va, valid := 255, dirty := 0, filled := true, cn := cn, wok := wok, data := mem }

/-- A plain device load (07 R160, R161, R178). Words that it reads from memory past a present line leave that line, so that no later load is older (08 R186). -/
def State.cachedLoad (s : State) (cx : Ctx) (sl : Slot) (ea mode : Word) (l n : Nat) (cn : Bool) : Trig :=
  let c := cx.core
  let part := (s.cell c).part
  let hint := bitsOf mode.toNat 8 2
  let s := if modeOrder mode = 1 then s.acquire c (modeScope mode) else s
  let mask := wordMask l n
  let old := (s.core c).findLine part l
  let hit := match old with
    | some k => k.valid &&& mask == mask
    | none => false
  match hit, old with
  | true, some k => (s.placeLine c k true).accessDone cx sl mode 4 (blkField k.data (l % 64) n) 0
  | _, _ =>
    let t := s.translate (clusterOf c) part l true false
    match t.2 with
    | .fault code => .fault (faultAt code ea)
    | .park => .hold t.1 (.page l) .waitPage none
    | .ok phys disc wok =>
      match (if disc then none else t.1.heldAt phys) with
      | some n => t.1.holdWord c cx.slot n
      | none =>
      let s := t.1
      let clean := match old with
        | some k => k.dirty &&& mask == mask
        | none => false
      if !disc && !clean && s.memory.lost 32 phys n then .fault (faultAt cDataLost ea)
      else
        let mem := s.memLine phys disc
        let v := blkField (overlay old mem) (l % 64) n
        let bad := !disc && s.memory.lost 32 (phys / 64 * 64) 64
        let s := if bad then s.countStack (phys / 64 * 64) 64 else s
        let s := if hint = 2 || bad then s.dropWords c part l mask else s.placeLine c (fillLine old part l mem cn wok) (hint = 0)
        s.accessDone cx sl mode 4 v 0

/-- Writes n bytes of v through to memory, in the way of a write-back (07 R179), with the present line's words updated and left clean (07 R160): a word that was dirty is
written back whole, and one that the store covers is valid. The line's page permits the write. -/
def State.writeThrough (s : State) (c part l n v : Nat) : State :=
  let s := match (s.core c).findLine part l with
    | some k =>
      let mask := wordMask l n
      let k' := { k with
        data := patchBlock k.data (l % 64) n v, dirty := k.dirty &&& ~~~mask, valid := if n < 8 then k.valid else k.valid ||| mask, wok := true }
      (s.placeLine c k' true).writeBack { k' with dirty := k.dirty &&& mask }
    | none => s
  s.lateWrite (.bytes part l n v)

/-- A plain store written into a line of the cache, filled where a partial word was not valid (07 R161); a release store leaves its words clean (07 R162). -/
def State.storeLine (s : State) (c part l n v : Nat) (mem : Option Block) (mru clean : Bool) : State :=
  let mask := wordMask l n
  let old := (s.core c).findLine part l
  let base := match old with
    | some k => k
    | none => { part := part, va := lineOf l, valid := 0, dirty := 0, filled := false, cn := false, wok := true, data := 0 }
  let base := match mem with
    | some m => fillLine old part l m false true
    | none => { base with wok := true }
  s.placeLine c { base with
    data := patchBlock base.data (l % 64) n v, valid := base.valid ||| mask, dirty := if clean then base.dirty else base.dirty ||| mask } mru

/-- The store of a word whose permission is there (07 R160 to R162): by its HINT written through, or into the cache, and, for a release at gang scope or wider, through
as well. mem is the fill. -/
def State.performStore (s : State) (c part l n v hint : Nat) (through : Bool) (mem : Option Block) : State :=
  if hint = 2 then s.writeThrough c part l n v
  else
    let s := s.storeLine c part l n v mem (hint == 0) through
    if through then s.lateWrite (.bytes part l n v) else s

/-- A plain device store (07 R160 to R162, R178, R179). A line that is present and may be written takes the store at once; another asks for the permission of its page first,
and waits where its fill, or the end of a discard, meets a region under repair. Where the fill of its line meets another granule that is uncorrectable, the merged word alone
becomes valid (notes/assumptions/87.md). -/
def State.cachedStore (s : State) (cx : Ctx) (sl : Slot) (ea mode : Word) (l n v : Nat) : Trig :=
  let c := cx.core
  let part := (s.cell c).part
  let hint := bitsOf mode.toNat 8 2
  let s := if modeOrder mode = 2 then s.release c (modeScope mode) else s
  let through := modeOrder mode == 2 && decide (2 ≤ modeScope mode)
  let mask := wordMask l n
  let old := (s.core c).findLine part l
  let wok := match old with
    | some k => k.wok
    | none => false
  let held := match old with
    | some k => k.valid &&& mask == mask
    | none => false
  let fill := decide (n < 8) && !held && hint != 2
  if !(s.core c).logRoom l then .hold s .logSpace .issued none
  else if wok && !fill then ((s.logWrite c part l).performStore c part l n v hint through none).accessDone cx sl mode 4 0 0
  else
    let t := s.translate (clusterOf c) part l false true
    match t.2 with
    | .fault code => .fault (faultAt code ea)
    | .park => .hold t.1 (.page l) .waitPage none
    | .ok phys disc _ =>
      match (if fill || disc then t.1.heldFor part l n else none) with
      | some k => t.1.holdWord c cx.slot k
      | none =>
      let s := t.1.cancelDiscard part l
      if fill && !disc && s.memory.lost 32 (phys / 8 * 8) 8 then .fault (faultAt cDataLost ea)
      else
        let s := s.logWrite c part l
        if fill && s.memory.lost 32 (phys / 64 * 64) 64 then
          let word := blkField (patchBlock (s.memLine phys disc) (l % 64) n v) (l % 64 / 8 * 8) 8
          let s := (s.countStack (phys / 64 * 64) 64).storeLine c part (l / 8 * 8) 8 word none (hint == 0) through
          (if through then s.lateWrite (.bytes part l n v) else s).accessDone cx sl mode 4 0 0
        else (s.performStore c part l n v hint through (if fill then some (s.memLine phys disc) else none)).accessDone cx sl mode 4 0 0

/-! ## The lsu and amo units (07 R177 to R181) -/

/-- CheckMode of lsu (07 R177). -/
def lsuModeOk (k : Nat) (m : Word) : Bool :=
  decide (modeFe m < 6) && decide (modeScope m < 5) && bitsOf m.toNat 8 2 != 3
    && (if lsuStores k then modeOrder m == 0 || modeOrder m == 2 else decide (modeOrder m < 2))

/-- The lsu operation of the word (07 R178); a resent access carries the ticket of its NACK (07 R157). -/
def lsuOp (cx : Ctx) (sl : Slot) (s : State) (ticket : Option Nat) : Trig :=
  let k := opOf cx.m.dst
  let mode := sl.operand 0x4C
  let n := lsuBytes k
  let ea := accessEa cx.m.dst cx.m.val sl
  let fe := modeFe mode
  let st := lsuStores k
  if !lsuModeOk k mode then .fault (bare cIllegalWord)
  else
    match s.accessCheck cx.core sl ea n (!st) (st || feChanges fe) false with
    | .error f => .fault f
    | .ok (space, l) =>
      let data : BitVec 128 := (sl.operand 0x4E) ++ (sl.operand 0x4D)
      if space = 4 && fe == 0 then
        if st then s.cachedStore cx sl ea mode l n (data.toNat % 2 ^ (8 * n))
        else s.cachedLoad cx sl ea mode l n (sl.seg (segNo ea)).cn
      else s.controllerAccess cx sl ea mode space l ⟨if st then .store else .load, l, n, fe, data, 0⟩ ticket

/-- CheckMode of amo (07 R180). -/
def amoModeOk (m : Word) : Bool := decide (modeFe m < 6) && decide (modeScope m < 5)

/-- The amo operation of the word (07 R181). -/
def amoOp (cx : Ctx) (sl : Slot) (s : State) (ticket : Option Nat) : Trig :=
  let k := opOf cx.m.dst
  let mode := sl.operand 0x50
  let n := amoWidth mode
  let ea := sl.operand 0x4F
  if !amoModeOk mode then .fault (bare cIllegalWord)
  else
    match s.accessCheck cx.core sl ea n true true true with
    | .error f => .fault f
    | .ok (space, l) =>
      s.controllerAccess cx sl ea mode space l ⟨.amo k, l, n, modeFe mode, cx.m.val.setWidth 128, sl.operand 0x51⟩ ticket

end Sys2Proof.Machine
end

