-- ==== Sys2Proof/Machine/Engine.lean ====
section
/-! DEFINITION. What the engines share: command slots, the acceptance of a block, where elements lie, their reads and writes, and the
completion of a command (02 R49, R55, 10 R241 to R262). -/

namespace Sys2Proof.Machine

/-! ## Slots (02 R49, R55) -/

/-- An accepted command, or a part of another core's group command, that takes a slot of the core's engine; the own core's part uses the
slot of its command (11 R278). -/
def Cmd.takesSlot (c : Nat) (m : Cmd) : Bool :=
  match m.parent with
  | some (d, _) => d != c
  | none => true

/-- A word of fab.ld, fab.st or fab.amo that waits for its reply holds a fabric slot, while a repair delays its access too (13 R319, 15 R382). -/
def Slot.holdsFab (sl : Slot) : Bool :=
  match sl.held with
  | some h =>
    (match resolvingMove h.moves with
      | some m => blockOf m.dst == 0x1B && decide (opOf m.dst ≤ 2)
      | none => false)
    && (match h.why with
      | .remote _ => true
      | .fePeer _ => true
      | .feLocal _ => true
      | .feAt _ => true
      | .repair _ => true
      | _ => false)
  | none => false

/-- The fabric slots of a core in use (13 R319). -/
def Core.fabUsed (k : Core) : Nat := k.fab.cmds.length + (k.slotsWhere Slot.holdsFab).length

/-- The free command slots of an engine: 0 copy, 1 matrix, 2 vector, 3 fabric, 4 collective of the die (02 R49). A remote access
holds a fabric slot until its reply (13 R319). -/
def State.freeSlots (s : State) (c unit : Nat) : Nat :=
  let k := s.core c
  match unit with
  | 0 => 64 - k.cpy.cmds.length
  | 1 => 32 - (k.mx.cmds.filter (Cmd.takesSlot c)).length
  | 2 => 32 - k.vx.cmds.length
  | 3 => 16 - k.fabUsed
  | _ => 64 - (s.die (dieOf c)).col.cmds.length

/-- An entry of the line that still waits for a unit. -/
def Core.inLine (k : Core) (unit : Nat) (e : Nat × Nat) : Bool :=
  e.2 == unit && (match (k.slot e.1).held with
    | some h => h.why == .engine unit
    | none => false)

/-- A trigger of slot i must wait: no slot is free, or a word that issued before it waits (02 R55). -/
def State.mustWait (s : State) (c i unit : Nat) : Bool :=
  s.freeSlots c unit == 0 || ((s.core c).slotWait.takeWhile (fun e => e.1 != i)).any ((s.core c).inLine unit)

/-- Strand i stands at the head of the line, or no more in it. -/
def State.headLine (s : State) (c i : Nat) (on : Bool) (unit : Nat) : State :=
  let k := s.core c
  let rest := k.slotWait.filter (fun e => e.1 != i)
  s.setCore c { k with slotWait := if on then (i, unit) :: rest else rest }

/-- The word joins the line for a slot. -/
def State.joinLine (s : State) (c i unit : Nat) : State :=
  let k := s.core c
  if k.slotWait.any (fun e => e.1 == i) then s else s.setCore c { k with slotWait := k.slotWait ++ [(i, unit)] }

/-- A word that waits for a slot holds before anything of it is checked (10 R244). -/
def slotHold (cx : Ctx) (s : State) (unit : Nat) : Trig :=
  .hold (s.joinLine cx.core cx.slot unit) (.engine unit) .issued none

/-- Slots of a unit have become free: a grant is due to the cores where a word waits for one. -/
def State.slotFreed (s : State) (c unit : Nat) : State :=
  let cores := if unit = 4 then (s.cores.filter (fun e => dieOf e.1 == dieOf c)).map (·.1) else [c]
  cores.foldl (fun s d =>
    if (s.core d).slotWait.any ((s.core d).inLine unit) && !s.agenda.contains (.engineSlotGrant d unit) then
      s.push (.engineSlotGrant d unit) else s) s

/-! ## Acceptance (10 R243, R244) -/

/-- The completion post of an operand port in the layout of cpy.o (10 R243). -/
def portNoPost (o : Word) : Bool := o.getLsbD 10
def portSem (o : Word) : Nat := bitsOf o.toNat 0 10
def portN (o : Word) : Nat := if bitsOf o.toNat 16 32 = 0 then 1 else bitsOf o.toNat 16 32

/-- The checks of a block address, and the block (10 R244). -/
def State.blockAt (s : State) (c : Nat) (sl : Slot) (t post : Word) : Except FaultInfo (Nat × Block) :=
  let g := sl.seg (segNo t)
  let k := s.core c
  if g.space ≠ 1 || !g.rd then .error (faultAt cSegRights t)
  else if g.limit < offOf t + 64 then .error (faultAt cSegLimit t)
  else
    match g.locate 0 (offOf t) 64 with
    | none => .error (faultAt cSegLimit t)
    | some l =>
      if l % 64 ≠ 0 then .error (faultAt cMisaligned t)
      else if !portNoPost post && decide (k.cellD.sems ≤ portSem post) then .error (bare cSemRange)
      else if k.store.lost 8 l 64 then .error (faultAt cDataLost t)
      else .ok (l, k.store.block l)

/-- Bits lo + w − 1 to lo of a block. -/
def blkBits (b : Block) (lo w : Nat) : Nat := bitsOf b.toNat lo w

/-- A generic address in a block. -/
def blkWord (b : Block) (byte : Nat) : Word := BitVec.ofNat 64 (blkField b byte 8)

/-- A command as accepted, with nothing done. -/
def Cmd.fresh (cx : Ctx) (sl : Slot) (part seq loc : Nat) (blk : Block) (port : Word) : Cmd :=
  { seq := seq, op := cx.m.dst, slot := cx.slot, serial := sl.serial, gsi := sl.gsi, core := cx.core, part := part, loc := loc
    blk := blk, port := port, segL := sl.segL, segH := sl.segH, rm := 0, smap := 0, dmap := 0, tables := [], first := 0, last := 0
    pend := [], woken := false, entry := [], transit := none, sleeping := [], wrote := [], active := false, finished := false, matched := false, mask := [], flags := 0
    fault := 0, dropped := 0, oob := 0, lost := [], parent := none, waiting := [], parts := 0, row0 := 0, col0 := 0, object := (0, 0, 0) }

/-- Segment k of a command. -/
def Cmd.seg (m : Cmd) (k : Nat) : Seg := segOf (m.segL.get 0 k) (m.segH.get 0 k)

/-- The sequence counter after an acceptance. -/
def Engine.accept (e : Engine) (m : Cmd) : Engine := { e with cmds := e.cmds ++ [m], seq := e.seq + 1 }

def Engine.map (e : Engine) (p : Cmd → Bool) (f : Cmd → Cmd) : Engine := { e with cmds := e.cmds.map (fun m => if p m then f m else m) }

/-- The limit of a segment, and the extent in the spaces listed at the lowest and at the highest byte, for offsets lo to hi − 1 (10 R250, 11 R274). -/
def Seg.holds (g : Seg) (known : List Nat) (members : Nat) (lo hi : Int) : Bool :=
  decide (0 ≤ lo) && decide (hi ≤ g.limit)
    && (if known.contains g.space then
      (g.locate members lo.toNat (min 1 (hi - lo)).toNat).isSome && (g.locate members (max lo (hi - 1)).toNat (min 1 (hi - lo)).toNat).isSome else true)

/-- The check of an operand that lies at offsets lo to hi − 1 of the segment of a generic address: space, right and log area, limit and
extent, then the offset's alignment (10 R250, 11 R274, R283). The extent of a copy's elements in cluster space is tested at each piece, that of every other operand
here. -/
def State.operandFault (s : State) (c : Nat) (sl : Slot) (ga : Word) (spaces known : List Nat) (wr : Bool) (lo hi : Int) (align : Nat) :
    Option FaultInfo :=
  let g := sl.seg (segNo ga)
  if !spaces.contains g.space || !g.allows (!wr) wr false then some (faultAt cSegRights ga)
  else if !g.holds known (panMembers (s.cell c).paninfo) lo hi then some (faultAt cSegLimit ga)
  else if g.space = 1 && s.logArea c (g.base + lo.toNat) (hi - lo).toNat then some (faultAt cSegRights ga)
  else if align ≠ 0 ∧ offOf ga % align ≠ 0 then some (faultAt cMisaligned ga)
  else none

/-- The first failure of a list of checks. -/
def firstFault : List (Option FaultInfo) → Option FaultInfo
  | [] => none
  | some f :: _ => some f
  | none :: r => firstFault r

/-! ## Where elements lie (10 R250, R262, 13 R321) -/

/-- Where the bytes of an element lie. remote names another device; slot and part of the request are filled in by the sender. -/
inductive Place where
  | core (core addr : Nat)
  | plane (addr : Nat)
  | device (va : Nat) (cached : Bool)
  | remote (device space member core addr : Nat)
  deriving DecidableEq, Repr

/-- The gang of a cell may access a member: its own, or one that it holds (13 R337). -/
def State.attachedTo (s : State) (cell : Cell) (m : Nat) : Bool :=
  m == panMember cell.paninfo
    || (match s.panAt (panId cell.paninfo) with
      | some q => q.attached.contains (panMember cell.paninfo, m)
      | none => false)

/-- The place of a panorama-window location, after the check that its member is attached (13 R321). -/
def State.placePan (s : State) (cell : Cell) (l : Nat) : Except Nat Place :=
  let m := l / 2 ^ 28
  let k := bitsOf l 21 7
  match s.member (panId cell.paninfo) m with
  | none => .error cDeparted
  | some mb =>
    if mb.device ≠ s.device.toNat then
      (if s.router.unreachable.contains mb.device then .error cUnreachable else .ok (.remote mb.device 3 m k (l % 2 ^ 21)))
    else
      let tgt := mb.cluster * 96 + k
      match (s.core tgt).cell with
      | some t =>
        if panValid t.paninfo && panId t.paninfo == panId cell.paninfo && panMember t.paninfo == m then .ok (.core tgt (l % 2 ^ 21))
        else .error cSegRights
      | none => .error cSegRights

/-- The place of a domain-space location (13 R318, R321). On the own device the peer partition is the source's own, and the engine's accesses agree with the own line cache
(07 R164). -/
def State.placeDomain (s : State) (part l : Nat) : Except Nat Place :=
  let d := l / 2 ^ 42
  if d = s.device.toNat then .ok (.device (l % 2 ^ 42) true)
  else if s.router.unreachable.contains d then .error cUnreachable
  else if (s.part part).bind.has d then .ok (.remote d 5 ((s.part part).bind.get 0 d) 0 (l % 2 ^ 42))
  else .error cSegRights

/-- An operand at offsets lo to hi − 1 of a segment touches the log area of core c, through either space (07 R174; notes/assumptions/86.md). -/
def Seg.meetsLog (g : Seg) (c : Nat) (lo hi : Int) : Bool :=
  let a : Int := if g.space = 2 then ((c % 96 * 2 ^ 21 : Nat) : Int) else 0
  (g.space == 1 || g.space == 2) && decide (a + 0x17F000 < (g.base : Int) + hi) && decide ((g.base : Int) + lo < a + 0x180000)

/-- The place of n bytes at offset f of a segment, for an engine of core c, with the checks that are made at each piece (10 R262). A piece in the log area is
refused on every core, the own one included (notes/assumptions/86.md). -/
def State.place (s : State) (c : Nat) (g : Seg) (f n : Nat) : Except Nat Place :=
  let cell := s.cell c
  match g.locate (panMembers cell.paninfo) f n with
  | none => .error cSegLimit
  | some l =>
    match g.space with
    | 1 => .ok (.core c l)
    | 2 =>
      let tgt := clusterTarget c l
      match (s.core tgt).cell with
      | some t =>
        if t.launch ≠ cell.launch || s.logArea tgt (l % 2 ^ 21) n then .error cSegRights else .ok (.core tgt (l % 2 ^ 21))
      | none => .error cSegRights
    | 3 =>
      if !panValid cell.paninfo then .error cSegRights
      else if !s.attachedTo cell (l / 2 ^ 28) then .error cDeparted
      else s.placePan cell l
    | 4 => .ok (.device l true)
    | 5 => s.placeDomain cell.part l
    | _ => .ok (.plane l)

/-- The identity of an attach of member own of a panorama to a member elsewhere, above those of strands and engine commands. -/
def attachId (p own m : Nat) : Nat := 2 ^ 34 + (p * 512 + own) * 512 + m

/-! ## Reads and writes of elements (10 R257, R258, R262) -/

/-- The mask of the bytes of a range that lie in uncorrectable granules: bit j for byte j. -/
def lostBytes (g : Nat) (m : Mem) (a n : Nat) : Nat :=
  (List.range n).foldl (fun acc j => if m.bad.contains ((a + j) / g) then acc + 2 ^ j else acc) 0

/-- What an engine read of an element gives. lost is the mask of its uncorrectable bytes; held meets a region under repair (15 R382). -/
inductive Got where
  | val (v lost : Nat)
  | page (va : Nat)
  | held (stack : Nat)
  | fail (code : Nat)
  | far (device space member core addr : Nat)
  deriving DecidableEq, Repr

/-- What an engine write of an element comes to. log waits for log space (07 R173). -/
inductive Put where
  | done
  | page (va : Nat)
  | held (stack : Nat)
  | log
  | fail (code : Nat)
  | far (device space member core addr : Nat)
  deriving DecidableEq, Repr

/-- The bytes that a core's line cache holds dirty replace those of memory (07 R164). -/
def Core.overDirty (k : Core) (part va n v lost : Nat) : Nat × Nat :=
  (List.range n).foldl (fun acc j =>
    match k.findLine part (va + j) with
    | some l =>
      if l.dirty.getLsbD ((va + j) % 64 / 8) then
        (acc.1 - bitsOf acc.1 (8 * j) 8 * 2 ^ (8 * j) + blkField l.data ((va + j) % 64) 1 * 2 ^ (8 * j),
         acc.2 - bitsOf acc.2 j 1 * 2 ^ j)
      else acc
    | none => acc) (v, lost)

/-- An engine of core c reads n bytes; full/empty bits are ignored (10 R257, R262). A read of another core's store wakes it (18 R453). -/
def State.get (s : State) (c : Nat) (p : Place) (n : Nat) : State × Got :=
  match p with
  | .core d a =>
    let m := (s.core d).store
    ((if d = c then s else s.arouse d).countCore d a n, .val (m.read a n) (lostBytes 8 m a n))
  | .plane a =>
    let m := (s.core c).plane
    (s.countPlane c a n, .val (m.read a n) (lostBytes 8 m a n))
  | .device va cached =>
    let part := (s.cell c).part
    let t := s.translate (clusterOf c) part va true false
    match t.2 with
    | .fault code => (t.1, .fail code)
    | .park => (t.1, .page va)
    | .ok phys disc _ =>
      match (if disc then none else t.1.heldRange phys n) with
      | some k => (t.1, .held k)
      | none =>
      let v := if disc then 0 else t.1.memory.read phys n
      let lost := if disc then 0 else lostBytes 32 t.1.memory phys n
      let r := if cached then (t.1.core c).overDirty part va n v lost else (v, lost)
      (if r.2 = 0 then t.1 else t.1.countStack phys n, .val r.1 r.2)
  | .remote d sp m k a => (s, .far d sp m k a)

/-- The pieces of n bytes at a that lie in one 8-byte word each: offset and length. -/
def wordPieces (a n : Nat) : List (Nat × Nat) :=
  (upFrom (a / 8) ((a + n + 7) / 8 - a / 8)).map (fun w => (max a (8 * w) - a, min (a + n) (8 * w + 8) - max a (8 * w)))

/-- The stores that write the bytes of v outside a mask, with the full/empty bits of every written word set as FEW states: offset,
length and value (10 R257, R258). An element of at most 16 bytes of which nothing is lost is stored whole (07 R165, 10 R262). -/
def storePieces (a n v lost : Nat) : List (Nat × Nat × Nat) :=
  if lost = 0 ∧ a % n = 0 ∧ (n = 1 ∨ n = 2 ∨ n = 4 ∨ n = 8 ∨ n = 16) then [(0, n, v % 2 ^ (8 * n))]
  else (wordPieces a n).flatMap (fun p =>
    if bitsOf lost p.1 p.2 = 0 then [(p.1, p.2, bitsOf v (8 * p.1) (8 * p.2))]
    else (upFrom p.1 p.2).filterMap (fun j => if bitsOf lost j 1 = 1 then none else some (j, 1, bitsOf v (8 * j) 8)))

/-- The full/empty mode of an engine write (10 R245). -/
def fewMode (few : Nat) : Nat := match few with | 1 => 4 | 2 => 5 | _ => 0

/-- Engine writes to a core store (10 R257). -/
def State.putCore (s : State) (c d a n v lost few : Nat) : State :=
  (storePieces a n v lost).foldl (fun s p =>
    (s.coreAccess d ⟨⟨.store, a + p.1, p.2.1, fewMode few, BitVec.ofNat 128 p.2.2, 0⟩, .strand c 0⟩ none).1) s

/-- The matching bytes of the own line cache's valid words, each word for itself, take a written value (07 R164). -/
def Core.patchLines (k : Core) (part va n v : Nat) : Core :=
  { k with lines := k.lines.map (fun l =>
      if l.part = part ∧ l.va = lineOf va then
        (wordPieces va n).foldl (fun l p =>
          if l.valid.getLsbD ((va + p.1) % 64 / 8) then { l with data := patchBlock l.data ((va + p.1) % 64) p.2 (bitsOf v (8 * p.1) (8 * p.2)) } else l) l
      else l) }

/-- Engine writes to a page that is resident and may be written (07 R164, R172, R175). -/
def State.putDevice (s : State) (c va n v lost few : Nat) (cached : Bool) : State :=
  let part := (s.cell c).part
  let s := (storePieces va n v lost).foldl (fun s p =>
    let s := (s.deviceAccess (clusterOf c) part ⟨⟨.store, va + p.1, p.2.1, fewMode few, BitVec.ofNat 128 p.2.2, 0⟩, .strand c 0⟩ none).1
    if cached then s.setCore c ((s.core c).patchLines part (va + p.1) p.2.1 p.2.2) else s) s
  s.logWrite c part va

/-- Writes to a B plane (10 R257). -/
def State.putPlane (s : State) (c a n v lost : Nat) : State :=
  let k := s.core c
  s.setCore c { k with plane := (storePieces a n v lost).foldl (fun m p => m.write 8 (a + p.1) p.2.1 p.2.2) k.plane }

/-- An engine of core c writes the bytes of v outside a mask (10 R257, R258, R262). -/
def State.put (s : State) (c : Nat) (p : Place) (n v lost few : Nat) : State × Put :=
  match p with
  | .core d a => (s.putCore c d a n v lost few, .done)
  | .plane a => (s.putPlane c a n v lost, .done)
  | .device va cached =>
    let part := (s.cell c).part
    let t := s.translate (clusterOf c) part va false true
    match t.2 with
    | .fault code => (t.1, .fail code)
    | .park => (t.1, .page va)
    | .ok phys _ _ =>
      match (t.1.heldRange phys n).or (t.1.heldFor part va n) with
      | some k => (t.1, .held k)
      | none =>
      if !(t.1.core c).logRoom va then (t.1, .log) else (t.1.putDevice c va n v lost few cached, .done)
  | .remote d sp m k a => (s, .far d sp m k a)

/-- What a write of a whole element covers: the memory, the address there and the length. -/
def State.writtenAt (s : State) (c : Nat) (p : Place) (n : Nat) : List (Nat × Nat × Nat) :=
  match p with
  | .core d a => [(d, a, n)]
  | .plane a => [(1000, a, n)]
  | .device va _ =>
    match s.walk (s.cell c).part va with
    | .leaf e size _ => [(3000, pteFrame e + va % size, n)]
    | .invalid => []
  | .remote .. => []

/-- The writes of a piece of core c's engines have covered whole granules (07 R176; notes/assumptions/87.md). -/
def State.heal (s : State) (c : Nat) (wrote : List (Nat × Nat × Nat)) : State :=
  let at_ (tag : Nat) : List (Nat × Nat) := (wrote.filter (fun w => w.1 == tag)).map (·.2)
  let s := { s with memory := s.memory.heal 32 (at_ 3000) }
  let s := s.setCore c { s.core c with plane := (s.core c).plane.heal 8 (at_ 1000) }
  ((wrote.map (·.1)).filter (fun t => decide (t < 1000))).foldl (fun s d =>
    s.setCore d { s.core d with store := (s.core d).store.heal 8 (at_ d) }) s

/-- The bytes of a mask that are set, below n. -/
def countBits (mask n : Nat) : Nat := (List.range n).foldl (fun acc j => acc + bitsOf mask j 1) 0

/-- The smallest recorded fault code; 0 is none. -/
def minFault (a b : Nat) : Nat := if a = 0 then b else if b = 0 then a else min a b

/-- A command abandons its work with a fault code (10 R262). -/
def Cmd.abandon (m : Cmd) (code : Nat) : Cmd :=
  { m with fault := minFault m.fault code, first := m.last, pend := [], transit := none, sleeping := [] }

/-- Granules of an operand that were not counted yet are counted with g bytes each, once for each command (11 R287, 12 R308). tag names
the memory. -/
def Cmd.drop (m : Cmd) (tag g : Nat) (bytes : List Nat) : Cmd :=
  let new := (bytes.map (fun a => tag * 2 ^ 48 + a / g)).foldl (fun l k => if l.contains k || m.lost.contains k then l else k :: l) []
  { m with lost := new ++ m.lost, dropped := m.dropped + g * new.length }

/-! ## Formats and streams of the engines (09 R222, 11 R267) -/

/-- Bits of one element of a format in memory (11 R267). -/
def elemBits (fmt : Nat) : Nat := if fmt = 2 then 32 else fmtBits fmt

/-- The draw number n of a command's stream (09 R221, R222). -/
def drawAt (seed : BitVec 32) : Nat → BitVec 32
  | 0 => lfsrStep seed
  | n + 1 => drawAt (lfsrStep seed) n

/-- Maps with the stream of a command: each element takes its step, or none. -/
def mapSeed {α β : Type} (f : α → BitVec 32 → β × BitVec 32) : List α → BitVec 32 → List β × BitVec 32
  | [], q => ([], q)
  | x :: xs, q =>
    let r := f x q
    let rs := mapSeed f xs r.2
    (r.1 :: rs.1, rs.2)

/-- A rounding field: the mode, or the strand's mode for code 7 (09 R224). -/
def engineMode (rm : Nat) (sl : Slot) : Nat := if rm = 7 then sl.fmode.toNat else rm

/-- Codes 5 and 6 of a rounding field are invalid (11 R273, 12 R296). -/
def rmOk (rm : Nat) : Bool := decide (rm ≤ 4) || rm == 7

/-- The code of an F19 value held as an F32 pattern is in bits 31:13; other codes are their low bits (09 R216). -/
def elemCode (fmt bits : Nat) : Nat := if fmt = 2 then bits / 2 ^ 13 % 2 ^ 19 else bits

/-- A code as it is held in memory (09 R216). -/
def heldCode (fmt code : Nat) : Nat := if fmt = 2 then code * 2 ^ 13 else code

/-! ## Completion (10 R259, 11 R285, 12 R306) -/

/-- Writes status bytes of a block; the full/empty bits are unchanged (10 R259). -/
def State.putStatus (s : State) (c loc byte n v : Nat) : State :=
  let k := s.core c
  s.setCore c { k with store := k.store.write 8 (loc + byte) n v }

/-- The completion post of a command (10 R243, R259). -/
def State.postDone (s : State) (c : Nat) (port : Word) : State :=
  if portNoPost port then s else s.postFrom c (portSem port) (portN port) true

/-- The status word of mx, vx and col commands (11 R284, 12 R305, 13 R343). -/
def Cmd.status (m : Cmd) : Nat := m.flags.toNat + 2 ^ 5 + m.fault * 2 ^ 8 + min m.dropped 65535 * 2 ^ 16

/-- What follows the end of a command: slot grants, drains, and the return of an ended cell's core (06 R129, 14 R366). -/
def State.afterCmd (s : State) (c unit : Nat) : State := ((s.slotFreed c unit).answerDrains).tryReturn c

end Sys2Proof.Machine
end

