-- ==== Sys2Proof/Machine/Cpy.lean ====
section
/-! DEFINITION. The copy engine: acceptance, and the elements of a command (10 R241 to R264). -/

namespace Sys2Proof.Machine

/-! ## Tensor maps (10 R248, R249, R251) -/

/-- Fields of a tensor map (10 R248). -/
def mapBase (b : Block) : Word := blkWord b 0
def mapSize (b : Block) : Nat := 2 ^ blkBits b 64 3
def mapRank (b : Block) : Nat := blkBits b 67 3
def mapExtent (b : Block) (d : Nat) : Nat := blkBits b (128 + 64 * d) 24
def mapStride (b : Block) (d : Nat) : Int := signExt 40 (blkBits b (152 + 64 * d) 40)

/-- The element count of a map. -/
def mapCount (b : Block) : Nat := (List.range (mapRank b)).foldl (fun n d => n * mapExtent b d) 1

/-- The fields of R248 and the multiples of R249; the command's byte count is judged with its maps. -/
def mapOk (b : Block) : Bool :=
  let r := mapRank b
  decide (blkBits b 64 3 ≤ 4) && decide (1 ≤ r) && decide (r ≤ 5) && blkBits b 70 58 == 0 && blkBits b 448 64 == 0
    && (List.range 5).all (fun d =>
      if d < r then mapExtent b d != 0 && mapStride b d % (mapSize b : Int) == 0 else blkBits b (128 + 64 * d) 64 == 0)
    && offOf (mapBase b) % mapSize b == 0

/-- The lowest and the highest element offset of a map (10 R250). -/
def mapLow (b : Block) : Int :=
  (List.range (mapRank b)).foldl (fun o d => o + min 0 (((mapExtent b d : Int) - 1) * mapStride b d)) (offOf (mapBase b) : Int)
def mapHigh (b : Block) : Int :=
  (List.range (mapRank b)).foldl (fun o d => o + max 0 (((mapExtent b d : Int) - 1) * mapStride b d)) (offOf (mapBase b) : Int)

/-- The offset that the logical index e contributes over the first n dimensions (10 R249). -/
def mapIndex (b : Block) (e n : Nat) : Int :=
  ((List.range n).foldl (fun (acc : Int × Nat) d => (acc.1 + ((acc.2 % mapExtent b d : Nat) : Int) * mapStride b d, acc.2 / mapExtent b d))
    ((0 : Int), e)).1

/-- The offset of element e in logical order. -/
def mapOffset (b : Block) (e : Nat) : Int := (offOf (mapBase b) : Int) + mapIndex b e (mapRank b)

/-- Elements of one row of an indexed map (10 R254). -/
def mapRow (b : Block) : Nat := (List.range (mapRank b - 1)).foldl (fun n d => n * mapExtent b d) 1

/-- The offset of element j of row v (10 R254). -/
def mapRowOffset (b : Block) (v j : Nat) : Int :=
  (offOf (mapBase b) : Int) + mapIndex b j (mapRank b - 1) + (v : Int) * mapStride b (mapRank b - 1)

/-- The extent of the last dimension of a map. -/
def mapRows (b : Block) : Nat := mapExtent b (mapRank b - 1)

/-- What the fetch of a map comes to. -/
inductive MapRes where
  | ok (s : State) (b : Block)
  | fault (f : FaultInfo)
  | page (s : State) (va : Nat)
  | held (s : State) (stack : Nat)

/-- Keeps a map in the descriptor cache (10 R241, R251). -/
def State.keepMap (s : State) (c : Nat) (e : MapEntry) : State :=
  let k := s.core c
  s.setCore c { k with maps := (e :: k.maps.filter (fun x => !(x.part == e.part && x.space == e.space && x.core == e.core && x.loc == e.loc))).take 32 }

/-- FetchMap: the checks of a map's address, and the map from the cache or from memory (10 R244, R250, R251). Both halves of a map are read in one step
(notes/assumptions/100.md). -/
def State.fetchMap (s : State) (c : Nat) (sl : Slot) (ga : Word) : MapRes :=
  let g := sl.seg (segNo ga)
  let cell := s.cell c
  let f := offOf ga
  if !([1, 2, 4].contains g.space) || !g.rd then .fault (faultAt cSegRights ga)
  else if g.limit < f + 64 then .fault (faultAt cSegLimit ga)
  else
    match g.locate (panMembers cell.paninfo) f 64 with
    | none => .fault (faultAt cSegLimit ga)
    | some l =>
      if l % 64 ≠ 0 then .fault (faultAt cMisaligned ga)
      else
        let kc := if g.space = 2 then clusterTarget c l else 0
        match (s.core c).maps.find? (fun x => x.part == cell.part && x.space == g.space && x.core == kc && x.loc == l) with
        | some e => .ok (s.keepMap c e) e.data
        | none =>
          match s.place c g f 64 with
          | .error code => .fault (faultAt code ga)
          | .ok p =>
            let r := s.get c p 64
            match r.2 with
            | .val v lost =>
              if lost ≠ 0 then .fault (faultAt cDataLost ga)
              else .ok (r.1.keepMap c ⟨cell.part, g.space, kc, l, BitVec.ofNat 512 v⟩) (BitVec.ofNat 512 v)
            | .page va => .page r.1 va
            | .held n => .held r.1 n
            | .fail code => .fault (faultAt code ga)
            | .far .. => .fault (faultAt cSegRights ga)

/-! ## The block (10 R245 to R247) -/

/-- Fields of a copy block (10 R245, R246). -/
def cpyArrive (b : Block) : Bool := blkBits b 8 1 == 1
def cpySerial (b : Block) : Bool := blkBits b 9 1 == 1
def cpyFew (b : Block) : Nat := blkBits b 10 2
def cpyAsem (b : Block) : Nat := blkBits b 16 10
def cpySmap (b : Block) : Word := blkWord b 8
def cpyDmap (b : Block) : Word := blkWord b 16
def cpyCount (b : Block) : Nat := blkBits b 256 25
def cpyWide (b : Block) : Nat := if blkBits b 288 1 = 1 then 8 else 4
def cpyMask (b : Block) : Nat := blkBits b 192 96

/-- CheckBlock of operation k (10 R246, R247). -/
def cpyBlockOk (k : Nat) (b : Block) : Bool :=
  let a0 := blkField b 24 8 == 0
  let b0 := blkField b 32 8 == 0
  let c0 := blkField b 40 8 == 0
  blkField b 0 1 == k && cpyFew b != 3 && blkBits b 12 4 == 0 && blkBits b 26 38 == 0
    && (match k with
      | 0 => a0 && b0 && c0
      | 1 => cpySmap b == 0 && c0
      | 2 => c0 && decide (1 ≤ cpyCount b) && decide (cpyCount b ≤ 2 ^ 24) && blkBits b 281 7 == 0 && blkBits b 289 31 == 0
      | 3 => c0 && decide (1 ≤ cpyCount b) && decide (cpyCount b ≤ 2 ^ 24) && blkBits b 281 7 == 0 && blkBits b 289 31 == 0
      | 4 => a0 && b0 && c0
      | _ => c0 && cpyMask b != 0 && blkBits b 288 32 == 0)

/-- The core field of a cluster-window element offset, bits 27:21 of its location, for the map's segment (07 R151). -/
def coreField (g : Seg) (o : Int) : Int := ((g.base : Int) + o) / 2 ^ 21 % 128

/-- The elements of a command: entries times row elements for a gather or scatter. -/
def cpyTotal (k : Nat) (smap dmap : Block) : Nat := if k = 3 then mapCount smap else mapCount dmap

/-- CheckMaps of operation k, with its maps (10 R247, R249, R250, R252 to R255). FEW with a destination in plane space is judged here, where the map's space is known
(notes/assumptions/100.md). -/
def cpyMapsOk (k : Nat) (sl : Slot) (b smap dmap : Block) : Bool :=
  let dst := sl.seg (segNo (mapBase dmap))
  let src := sl.seg (segNo (mapBase smap))
  mapOk dmap && (k == 1 || mapOk smap) && decide (cpyTotal k smap dmap * mapSize dmap ≤ 2 ^ 40)
    && !(k != 1 && src.space == 6) && !(k != 4 && dst.space == 6) && !(cpyFew b != 0 && dst.space == 6)
    && (match k with
      | 1 => true
      | 2 => mapSize smap == mapSize dmap && mapCount dmap == cpyCount b * mapRow smap
      | 3 => mapSize smap == mapSize dmap && mapCount smap == cpyCount b * mapRow dmap
      | _ => mapSize smap == mapSize dmap && mapCount smap == mapCount dmap)
    && (k != 5 || (dst.space == 2 && coreField dst (mapLow dmap) == coreField dst (mapHigh dmap)))

/-- Where the operands of operation k lie: generic address, lowest and highest offset (10 R250). -/
def cpySpans (k : Nat) (b smap dmap : Block) : List (Word × Int × Int) :=
  let idx := blkWord b 24
  (if k = 2 ∨ k = 3 then [(idx, (offOf idx : Int), ((offOf idx + cpyCount b * cpyWide b : Nat) : Int))] else [])
    ++ (if k = 1 then [] else [(mapBase smap, mapLow smap, mapHigh smap + mapSize smap)])
    ++ [(mapBase dmap, mapLow dmap, mapHigh dmap + mapSize dmap)]

/-- CheckRanges of operation k (10 R250); the index list is checked here, after CheckMaps (notes/assumptions/100.md). -/
def State.cpyRanges (s : State) (c k : Nat) (sl : Slot) (b smap dmap : Block) : Option FaultInfo :=
  let idx := blkWord b 24
  let ig := sl.seg (segNo idx)
  let w := cpyWide b
  let src := mapBase smap
  let dst := mapBase dmap
  firstFault [
    if k = 2 ∨ k = 3 then
      (match s.operandFault c sl idx [1, 2, 4] [1, 2, 4] false (offOf idx) (offOf idx + cpyCount b * w : Nat) 0 with
        | some f => some f
        | none => if (ig.base + offOf idx) % w ≠ 0 then some (faultAt cMisaligned idx) else none)
    else none,
    if k = 1 then none
    else s.operandFault c sl src [1, 2, 3, 4, 5] [1, 4] false (mapLow smap) (mapHigh smap + mapSize smap) 0,
    s.operandFault c sl dst (if k = 4 then [6] else [1, 2, 3, 4, 5]) [1, 4, 6] true (mapLow dmap) (mapHigh dmap + mapSize dmap) 0]

/-! ## Acceptance (10 R244, R256) -/

/-- The maps that an operation uses, fetched in order. -/
def State.cpyFetch (s : State) (c k : Nat) (sl : Slot) (b : Block) : MapRes × Block :=
  let d (s : State) (smap : Block) : MapRes × Block := (s.fetchMap c sl (cpyDmap b), smap)
  if k = 1 then d s 0
  else
    match s.fetchMap c sl (cpySmap b) with
    | .ok s smap => d s smap
    | r => (r, 0)

/-- A copy trigger with a block (10 R244). -/
def cpyAccept (cx : Ctx) (sl : Slot) (s : State) : Trig :=
  let c := cx.core
  let k := opOf cx.m.dst
  let o := sl.operand 0x5A
  if s.mustWait c cx.slot 0 then slotHold cx s 0
  else
    match s.blockAt c sl cx.m.val o with
    | .error f => .fault f
    | .ok (l, b) =>
      if !cpyBlockOk k b then .fault (faultAt cCmdInvalid cx.m.val)
      else
        match s.cpyFetch c k sl b with
        | (.fault f, _) => .fault f
        | (.page s va, _) => .hold s (.page va) .waitPage none
        | (.held s n, _) => s.holdWord c cx.slot n
        | (.ok s dmap, smap) =>
          if !cpyMapsOk k sl b smap dmap then .fault (faultAt cCmdInvalid cx.m.val)
          else
            match s.cpyRanges c k sl b smap dmap with
            | some f => .fault f
            | none =>
              let dsp := (sl.seg (segNo (mapBase dmap))).space
              let cell := s.cell c
              if cpyArrive b && (dsp == 1 || dsp == 4 || dsp == 5 || dsp == 6) && decide (cell.sems ≤ cpyAsem b) then .fault (bare cSemRange)
              else
                let e := (s.core c).cpy
                let m := { Cmd.fresh cx sl cell.part e.seq.toNat l b o with smap := smap, dmap := dmap, last := cpyTotal k smap dmap }
                let s := s.setCore c { s.core c with cpy := e.accept m }
                .done ((((s.setSlot c cx.slot (sl.setRes rCpy (e.seq.setWidth 64))).noteActivity cell.launch)).pushOnce (.cpyActivate c))

/-- cpy.mapinval (10 R256). -/
def mapinvalOp (cx : Ctx) (sl : Slot) (s : State) : Trig :=
  let c := cx.core
  let t := cx.m.val
  let g := sl.seg (segNo t)
  let cell := s.cell c
  let go (keep : MapEntry → Bool) : Trig :=
    let s := s.setCore c { s.core c with maps := (s.core c).maps.filter keep }
    .done (s.setSlot c cx.slot (sl.setRes rCpy 0))
  if t = ones then go (fun _ => false)
  else if g.space = 0 ∨ g.space = 6 ∨ g.space = 7 then .fault (faultAt cSegRights t)
  else if g.limit < offOf t + 64 then .fault (faultAt cSegLimit t)
  else
    let l := g.base + offOf t
    let kc := if g.space = 2 then clusterTarget c l else 0
    if l % 64 ≠ 0 then .fault (faultAt cMisaligned t)
    else go (fun x => !(x.part == cell.part && x.space == g.space && x.core == kc && x.loc == l))

/-- The copy operations (10 R242). -/
def cpyOp (cx : Ctx) (sl : Slot) (s : State) : Trig :=
  if opOf cx.m.dst = 6 then mapinvalOp cx sl s else cpyAccept cx sl s

/-! ## The elements of an active command (10 R252 to R262) -/

/-- Where the source and the destination of an element lie; entry is the index-list entry of a gather or scatter. none in a source is a
value that needs no read; none in a destination is no write. -/
structure Elem where
  src : Option Int
  lit : Nat
  dst : Option Int
  deriving DecidableEq, Repr

/-- Element e of operation k under index-list entry v (10 R252 to R255). -/
def Cmd.elem (m : Cmd) (e v : Nat) : Elem :=
  match opOf m.op with
  | 1 => ⟨none, blkBits m.blk 192 128 % 2 ^ (8 * mapSize m.dmap), some (mapOffset m.dmap e)⟩
  | 2 => ⟨if v < mapRows m.smap then some (mapRowOffset m.smap v (e % mapRow m.smap)) else none, 0, some (mapOffset m.dmap e)⟩
  | 3 => ⟨some (mapOffset m.smap e), 0, if v < mapRows m.dmap then some (mapRowOffset m.dmap v (e % mapRow m.dmap)) else none⟩
  | _ => ⟨some (mapOffset m.smap e), 0, some (mapOffset m.dmap e)⟩

/-- The row elements of a gather or scatter. -/
def Cmd.rowLen (m : Cmd) : Nat := if opOf m.op = 2 then mapRow m.smap else mapRow m.dmap

/-- An arrival post of n bytes (10 R260): to the issuing core, or to the core written. That of a member's core on another device goes with the write, and is
made there. -/
def State.arrive (s : State) (m : Cmd) (at_ : Place) (n : Nat) : State × Cmd :=
  if !cpyArrive m.blk || n == 0 then (s, m)
  else
    let g := m.seg (segNo (mapBase m.dmap))
    match g.space, at_ with
    | 3, .remote .. => (s, m)
    | _, .core tgt _ =>
      if (g.space = 2 ∨ g.space = 3) && decide ((s.cell tgt).sems ≤ cpyAsem m.blk) then (s, { m with fault := minFault m.fault cSemRange })
      else (s.postFrom tgt (cpyAsem m.blk) n (tgt == m.core), m)
    | _, _ => (s.postFrom m.core (cpyAsem m.blk) n true, m)

/-- What one attempt at an element comes to. -/
inductive Did where
  | done (s : State) (m : Cmd)
  | later (s : State) (m : Cmd) (entry : Option Nat)
  | sent (s : State) (m : Cmd)
  | gone (s : State) (m : Cmd)

/-- The request of an element's access to another device, with the arrival post that follows a write to a member's core; its reply comes back to the command
(10 R260). -/
def State.sendElem (s : State) (m : Cmd) (device space member core addr : Nat) (op : AccessOp) (n v few : Nat) : State :=
  let stores := op == .store
  let acc : Access := ⟨op, (if space = 5 then device * 2 ^ 42 else 0) + addr, n, if stores then fewMode few else 0, BitVec.ofNat 128 v, 0⟩
  let post := if stores && cpyArrive m.blk && space == 3 then some (cpyAsem m.blk, n) else none
  s.emit (.remoteRequest { s.request m.core (256 + m.seq) space member core acc none with post := post })

/-- The cores of a multicast's mask (10 R255). -/
def Cmd.targets (m : Cmd) : List Nat := (List.range 96).filter (fun k => bitsOf (cpyMask m.blk) k 1 == 1)

/-- A multicast writes the log area of core c: its mask names the core, in place of the core field, and the bytes lie there (07 R174, 10 R255). -/
def Cmd.castAtLog (m : Cmd) (c : Nat) : Bool :=
  let lo := (((m.seg (segNo (mapBase m.dmap))).base : Int) + mapLow m.dmap) % 2 ^ 21
  m.targets.contains (c % 96) && decide (lo < 0x180000) && decide (0x17F000 < lo + (mapHigh m.dmap - mapLow m.dmap) + mapSize m.dmap)

/-- The place of a multicast's element on target core k (10 R255). -/
def State.castPlace (s : State) (m : Cmd) (g : Seg) (o n k : Nat) : Except Nat Place :=
  s.place m.core { g with base := 0 } (k * 2 ^ 21 + (g.base + o) % 2 ^ 21) n

/-- A multicast is abandoned: the location is outside the extent, or the log area of a target with a cell of the launch is touched (07 R174, 10 R255, R262). -/
def State.castFault (s : State) (m : Cmd) (g : Seg) (o n : Nat) : Option Nat :=
  let l := g.base + o
  if 2 ^ 28 ≤ l ∨ 0x180000 < l % 2 ^ 21 + n then some cSegLimit
  else if m.targets.any (fun k =>
      let tgt := clusterOf m.core * 96 + k
      (s.core tgt).cell.any (fun t => t.launch == (s.cell m.core).launch) && s.logArea tgt (l % 2 ^ 21) n) then some cSegRights
  else none

/-- Writes an element's bytes to one place, with the arrival post (10 R257, R260). -/
def State.putElem (s : State) (m : Cmd) (p : Place) (n v lost : Nat) : State × Cmd × Put :=
  let r := s.put m.core p n v lost (cpyFew m.blk)
  match r.2 with
  | .done =>
    let m := if lost = 0 then { m with wrote := r.1.writtenAt m.core p n ++ m.wrote } else m
    let a := r.1.arrive m p (n - countBits lost n)
    (a.1, a.2, .done)
  | x => (r.1, m, x)

/-- The part of an element that another device is sent when some of it is lost: all of it, one half of 16 bytes, or nothing. -/
def goodPart (n lost : Nat) : Option (Nat × Nat) :=
  if lost = 0 then some (0, n)
  else if n = 16 ∧ bitsOf lost 0 8 = 0 then some (0, 8)
  else if n = 16 ∧ bitsOf lost 8 8 = 0 then some (8, 8)
  else none

/-- The write of an element whose value has been read (10 R252 to R262). A multicast skips a target that holds no cell of the launch,
and counts a dropped byte once. -/
def State.cpyWrite (s : State) (m : Cmd) (e : Nat) (entry : Option Nat) (dst : Option Int) (v lost : Nat) : Did :=
  let n := mapSize m.dmap
  match dst with
  | none => .done s m
  | some o =>
    let m := { m with dropped := m.dropped + countBits lost n }
    let g := m.seg (segNo (mapBase m.dmap))
    if opOf m.op = 5 then
      match s.castFault m g o.toNat n with
      | some code => .gone s (m.abandon code)
      | none =>
        let r := m.targets.foldl (fun (acc : State × Cmd) k =>
          match acc.1.castPlace acc.2 g o.toNat n k with
          | .ok p => let x := acc.1.putElem acc.2 p n v lost; (x.1, x.2.1)
          | .error code => (acc.1, { acc.2 with fault := minFault acc.2.fault code })) (s, m)
        .done r.1 r.2
    else
      match s.place m.core g o.toNat n with
      | .error code => .gone s (m.abandon code)
      | .ok p =>
        let r := s.putElem m p n v lost
        match r.2.2 with
        | .done => .done r.1 r.2.1
        | .page va => .later (r.1.pushOnce (.pageWake m.part va)) { r.2.1 with dropped := m.dropped - countBits lost n } entry
        | .held _ => .later r.1 { r.2.1 with dropped := m.dropped - countBits lost n } entry
        | .log => .later (r.1.pushOnce (.logMerge m.core)) { r.2.1 with dropped := m.dropped - countBits lost n } entry
        | .fail code => .gone r.1 (r.2.1.abandon code)
        | .far d sp mb k a =>
          match goodPart n lost with
          | none => .done r.1 r.2.1
          | some (i, w) =>
            .sent (r.1.sendElem m d sp mb k (a + i) .store w (bitsOf v (8 * i) (8 * w)) (cpyFew m.blk))
              { r.2.1 with transit := some ⟨e, entry, some (v, lost), none, d⟩ }

/-- Entry v of the index list is in use for element e; an entry outside the rows is counted once (10 R254). -/
def Cmd.useEntry (m : Cmd) (e v : Nat) : Cmd :=
  let rows := if opOf m.op = 2 then mapRows m.smap else mapRows m.dmap
  { m with entry := m.entry.set (e / m.rowLen) v, oob := if rows ≤ v then min (m.oob + 1) (2 ^ 24 - 1) else m.oob }

/-- What the read of an index-list entry comes to. -/
inductive EntryRes where
  | ok (s : State) (m : Cmd) (v : Nat)
  | lost (s : State) (m : Cmd)
  | stop (d : Did)

/-- The index-list entry of element e, read once for its row (10 R254). -/
def State.cpyEntry (s : State) (m : Cmd) (e : Nat) (entry : Option Nat) : EntryRes :=
  let k := opOf m.op
  if !(k == 2 || k == 3) then .ok s m 0
  else
    match entry with
    | some v => .ok s m v
    | none =>
      if m.entry.has (e / m.rowLen) then .ok s m (m.entry.get 0 (e / m.rowLen))
      else
        let idx := blkWord m.blk 24
        let w := cpyWide m.blk
        match s.place m.core (m.seg (segNo idx)) (offOf idx + e / m.rowLen * w) w with
        | .error code => .stop (.gone s (m.abandon code))
        | .ok p =>
          let r := s.get m.core p w
          match r.2 with
          | .val v lost => if lost ≠ 0 then .lost r.1 m else .ok r.1 (m.useEntry e v) v
          | .page va => .stop (.later (r.1.pushOnce (.pageWake m.part va)) m none)
          | .held _ => .stop (.later r.1 m none)
          | .fail code => .stop (.gone r.1 (m.abandon code))
          | .far .. => .stop (.gone r.1 (m.abandon cSegRights))

/-- An element of a scatter's earlier entry waits that may name the same row: that row ends with the data of the later entry (10 R254). -/
def Cmd.rowWaits (m : Cmd) (e v : Nat) : Bool :=
  (m.pend.map (·.1) ++ (m.sleeping ++ m.transit.toList).map (·.elem)).any (fun x =>
    decide (x / m.rowLen < e / m.rowLen) && (!m.entry.has (x / m.rowLen) || m.entry.get 0 (x / m.rowLen) == v))

/-- One attempt at element e of a command (10 R252 to R262). An uncorrectable index entry leaves its elements unwritten, and DROPPED counts their bytes
(notes/assumptions/22.md). -/
def State.cpyElem (s : State) (m : Cmd) (e : Nat) (entry : Option Nat) : Did :=
  match s.cpyEntry m e entry with
  | .stop d => d
  | .lost s m => .done s { m with dropped := m.dropped + mapSize m.dmap }
  | .ok s m v =>
    let x := m.elem e v
    let n := mapSize m.dmap
    if opOf m.op = 3 && m.rowWaits e v then .later s m (some v)
    else
    match x.dst, x.src with
    | none, _ => .done s m
    | some o, none => s.cpyWrite m e (some v) (some o) x.lit 0
    | some o, some i =>
      match s.place m.core (m.seg (segNo (mapBase m.smap))) i.toNat n with
      | .error code => .gone s (m.abandon code)
      | .ok p =>
        let g := s.get m.core p n
        match g.2 with
        | .val w lost => g.1.cpyWrite m e (some v) (some o) w lost
        | .page va => .later (g.1.pushOnce (.pageWake m.part va)) m (some v)
        | .held _ => .later g.1 m (some v)
        | .fail code => .gone g.1 (m.abandon code)
        | .far d sp mb kk a =>
          .sent (g.1.sendElem m d sp mb kk a .load n 0 0) { m with transit := some ⟨e, some v, none, none, d⟩ }

/-- The elements listed, one after another. An element that must wait joins the pending ones, and so does the rest of a piece after an
element that is sent to another device. -/
def State.cpyElems (s : State) (m : Cmd) : List (Nat × Option Nat) → State × Cmd
  | [] => (s, m)
  | (e, v) :: r =>
    match s.cpyElem m e v with
    | .done s m => State.cpyElems s m r
    | .later s m v => State.cpyElems s { m with pend := m.pend ++ [(e, v)] } r
    | .sent s m => (s, { m with pend := r ++ m.pend, woken := m.woken || !r.isEmpty })
    | .gone s m => (s, m)

/-- The bytes of a lost reply's halves. -/
def halvesMask (n halves : Nat) : Nat :=
  (List.range n).foldl (fun acc j => if bitsOf halves (j / 8) 1 = 1 then acc + 2 ^ j else acc) 0

/-- An element whose value has been read is written, or sent again. -/
def State.cpyRewrite (s : State) (m : Cmd) (t : Transit) (v lost : Nat) : State × Cmd :=
  match s.cpyWrite m t.elem t.entry (m.elem t.elem (t.entry.getD 0)).dst v lost with
  | .done s m => (s, m)
  | .later s m v => (s, { m with pend := (t.elem, v) :: m.pend })
  | .sent s m => (s, m)
  | .gone s m => (s, m)

/-- The access of an element is made again, with the value that it has read, if it has (08 R193). -/
def State.cpyAgain (s : State) (m : Cmd) (t : Transit) : State × Cmd :=
  match t.val with
  | some (v, lost) => s.cpyRewrite { m with dropped := m.dropped - countBits lost (mapSize m.dmap) } t v lost
  | none => s.cpyElems m [(t.elem, t.entry)]

/-- The reply of an element in transit (10 R262, 13 R322, R323). After a page reply the element sleeps until the target's wake. A write that is answered with 1
has been performed, and its arrival post was refused at the target (10 R260); the issuing core has the post of a write to domain space. -/
def State.cpyReply (s : State) (m : Cmd) (t : Transit) (rep : Reply) : State × Cmd :=
  let m0 := { m with transit := none }
  let n := mapSize m.dmap
  let g := m.seg (segNo (mapBase m.dmap))
  match rep, t.val with
  | .wake, _ => (s, { m with transit := some { t with reply := none } })
  | .page, _ => (s, { m0 with sleeping := m.sleeping ++ [{ t with reply := none }] })
  | .nack _, _ => s.cpyAgain m0 t
  | .fault code, _ => (s, m0.abandon code)
  | .value v _, none => s.cpyRewrite m0 t v.toNat 0
  | .lost v h, none => s.cpyRewrite m0 t v.toNat (halvesMask n h)
  | .lost .., some _ => (s, m0)
  | .value a _, some (_, lost) =>
    let m0 := { m0 with fault := if a = 0 then m0.fault else minFault m0.fault cSemRange, woken := m0.woken || !m0.pend.isEmpty }
    if g.space = 3 then (s, m0) else s.arrive m0 (.device 0 true) (n - countBits lost n)

/-- The command may take new elements. -/
def Cmd.mayTake (m : Cmd) : Bool := decide (m.first < m.last)

/-- Waiting elements of a command may be tried again. -/
def Cmd.mayRetry (m : Cmd) : Bool := m.woken && !m.pend.isEmpty

/-- Waiting elements in logical order, so that a scatter's earlier entries come first (10 R254). -/
def sortElems (l : List (Nat × Option Nat)) : List (Nat × Option Nat) :=
  let ins (x : Nat × Option Nat) (l : List (Nat × Option Nat)) : List (Nat × Option Nat) := l.takeWhile (fun y => decide (y.1 ≤ x.1)) ++ x :: l.dropWhile (fun y => decide (y.1 ≤ x.1))
  l.foldl (fun acc x => ins x acc) []

/-- Every piece of a command has been performed or abandoned (10 R259). -/
def Cmd.through (m : Cmd) : Bool := decide (m.last ≤ m.first) && m.pend.isEmpty && m.transit.isNone && m.sleeping.isEmpty

/-- A command has something to do: a reply, an element whose wake has come, waiting elements after a wake, elements not yet tried, or its end. -/
def Cmd.ready (m : Cmd) : Bool :=
  m.active && !m.finished
    && (match m.transit with
      | some t => t.reply.isSome
      | none => m.sleeping.any (fun t => t.reply.isSome) || m.mayRetry || m.mayTake || m.through)

/-- The next elements of a command: at most 64 bytes, in logical order (10 R241). -/
def Cmd.piece (m : Cmd) : List (Nat × Option Nat) × Cmd :=
  let n := max 1 (min (64 / mapSize m.dmap) (m.last - m.first))
  let k := opOf m.op
  if k = 2 ∨ k = 3 then
    let n := min n (m.rowLen - m.first % m.rowLen)
    ((upFrom m.first n).map (fun e => (e, none)), { m with first := m.first + n })
  else ((upFrom m.first n).map (fun e => (e, some 0)), { m with first := m.first + n })

/-- One piece of a command (10 R241, R262). Pieces are issued in logical order, and are performed in an order that is left open: a piece may be performed at a
later turn, but for those of a scatter (10 R254; notes/assumptions/23.md). -/
def State.cpyStep (s : State) (m : Cmd) : State × Cmd :=
  match m.transit with
  | some t =>
    match t.reply with
    | some rep => s.cpyReply m t rep
    | none => (s, m)
  | none =>
    match m.sleeping.find? (fun t => t.reply.isSome) with
    | some t => s.cpyAgain { m with sleeping := m.sleeping.filter (fun x => x != t) } t
    | none =>
      let x := Config.choice s.draws
      let s := if m.mayTake then { s with draws := s.draws + 1 } else s
      if m.mayRetry && (!m.mayTake || x % 2 == 0) then s.cpyElems { m with pend := [], woken := false } (sortElems m.pend)
      else if m.mayTake then
        let p := m.piece
        if opOf m.op != 3 && x / 2 % 2 == 1 then (s, { p.2 with pend := p.2.pend ++ p.1, woken := true }) else s.cpyElems p.2 p.1
      else (s, m)

/-- STATUS1 and STATUS0 of a copy, and STATUS of a message (10 R259, 13 R326). DROPPED saturates (notes/assumptions/100.md). -/
def Cmd.status0 (m : Cmd) : Nat := m.flags.toNat + 2 ^ 8 + m.fault * 2 ^ 16 + m.seq * 2 ^ 32
def Cmd.status1 (m : Cmd) : Nat := min m.dropped (2 ^ 40 - 1) + m.oob * 2 ^ 40

end Sys2Proof.Machine
end

