-- ==== Sys2Proof/Machine/Mx.lean ====
section
/-! DEFINITION. The matrix engine: acceptance, passes over the array and accumulator transfers (11 R265 to R289). -/

namespace Sys2Proof.Machine

/-! ## Blocks (11 R272, R273, R281, R282) -/

/-- Fields of a pass block (11 R272). -/
structure Pass where
  op : Nat
  rm : Nat
  occen : Bool
  afmt : Nat
  bfmt : Nat
  ascf : Nat
  bscf : Nat
  acc : Nat
  tbla : Nat
  tblb : Nat
  gc : Nat
  gr : Nat
  m : Nat
  n : Nat
  k : Nat
  asstride : Nat
  aaddr : Word
  astride : Nat
  boff : Nat
  asc : Word
  bsc : Word
  occ : Word
  seed : Nat

/-- The pass block (11 R272). -/
def passOf (b : Block) : Pass :=
  { op := blkField b 0 1, rm := blkBits b 8 3, occen := blkBits b 11 1 == 1, afmt := blkBits b 16 4, bfmt := blkBits b 20 4
    ascf := blkBits b 24 2, bscf := blkBits b 26 2, acc := blkBits b 32 4, tbla := blkBits b 36 2, tblb := blkBits b 38 2
    gc := blkBits b 40 4, gr := blkBits b 44 4, m := blkBits b 48 10, n := blkBits b 64 10, k := blkBits b 80 20
    asstride := blkField b 14 2, aaddr := blkWord b 16, astride := blkField b 24 4, boff := blkBits b 224 22
    asc := blkWord b 32, bsc := blkWord b 40, occ := blkWord b 48, seed := blkField b 56 4 }

/-- Blocks of 32 along K (11 R274). -/
def Pass.nb (p : Pass) : Nat := (p.k + 31) / 32

/-- Parts along a side of the grid (11 R277). -/
def grid64 (n : Nat) : Nat := (n + 63) / 64

/-- A format of A or B (11 R273). -/
def passFmt (f : Nat) : Bool := !(f == 1 || f == 0xD || f == 0xE || f == 0xF)

/-- GEOM fields (06 R120). -/
def geomOrgCol (g : Word) : Nat := bitsOf g.toNat 0 4
def geomOrgRow (g : Word) : Nat := bitsOf g.toNat 4 4
def geomWidth (g : Word) : Nat := bitsOf g.toNat 8 4
def geomHeight (g : Word) : Nat := bitsOf g.toNat 12 4

/-- CELLINFO.RANK (06 R119). -/
def cellRank (w : Word) : Nat := bitsOf w.toNat 16 7

/-- CheckBlock of a pass (11 R273). -/
def passOk (k : Nat) (geom : Word) (b : Block) : Bool :=
  let p := passOf b
  let lim := if k = 0 then 64 else 512
  p.op == k && rmOk p.rm && blkBits b 12 4 == 0 && passFmt p.afmt && passFmt p.bfmt && p.ascf != 3 && p.bscf != 3
    && blkBits b 28 4 == 0 && (k == 1 || blkBits b 40 8 == 0) && blkBits b 58 6 == 0 && blkBits b 74 6 == 0 && blkBits b 100 12 == 0
    && blkBits b 246 10 == 0
    && decide (1 ≤ p.m) && decide (p.m ≤ lim) && decide (1 ≤ p.n) && decide (p.n ≤ lim) && decide (1 ≤ p.k)
    && p.astride % 8 == 0 && p.boff % 64 == 0 && decide (p.boff + p.k * 8 * elemBits p.bfmt ≤ 0x400000)
    && (k == 0 || (decide (p.gc + grid64 p.n ≤ geomWidth geom) && decide (p.gr + grid64 p.m ≤ geomHeight geom)))

/-- The operands of a pass: generic address, length and alignment (11 R274). -/
def passOperands (b : Block) : List (Word × Nat × Nat) :=
  let p := passOf b
  [(p.aaddr, (p.m - 1) * p.astride + (p.k * elemBits p.afmt + 7) / 8, 8)]
    ++ (if p.ascf = 0 then [] else [(p.asc, (p.m - 1) * p.asstride + p.nb, 0)])
    ++ (if p.bscf = 0 then [] else [(p.bsc, 64 * (p.nb - 1) + min 64 p.n, 0)])
    ++ (if p.occen then [(p.occ, (grid64 p.m * p.nb + 7) / 8, 0)] else [])

/-- CheckRanges of a pass (11 R274). -/
def State.passRanges (s : State) (c : Nat) (sl : Slot) (b : Block) : Option FaultInfo :=
  firstFault ((passOperands b).map (fun x =>
    s.operandFault c sl x.1 [1, 2] [1, 2] false (offOf x.1) (offOf x.1 + x.2.1 : Nat) x.2.2))

/-- Fields of a transfer block (11 R281). -/
structure Transfer where
  op : Nat
  rm : Nat
  sat : Bool
  few : Nat
  fmt : Nat
  acc : Nat
  tiles : Nat
  m : Nat
  n : Nat
  trow : Nat
  tcol : Nat
  addr : Word
  stride : Nat
  seed : Nat

/-- The transfer block (11 R281). -/
def transferOf (b : Block) : Transfer :=
  { op := blkField b 0 1, rm := blkBits b 8 3, sat := blkBits b 11 1 == 1, few := blkBits b 12 2, fmt := blkBits b 16 4
    acc := blkBits b 32 4, tiles := blkField b 6 2, m := blkBits b 64 7, n := blkBits b 80 7, trow := blkBits b 96 6
    tcol := blkBits b 104 6, addr := blkWord b 16, stride := blkField b 24 4, seed := blkField b 56 4 }

/-- CheckBlock of a transfer (11 R281, R282). -/
def transferOk (k : Nat) (b : Block) : Bool :=
  let t := transferOf b
  let rz := blkBits b 14 2 == 0 && blkBits b 20 12 == 0 && blkBits b 36 12 == 0 && blkBits b 71 9 == 0 && blkBits b 87 9 == 0
    && blkBits b 102 2 == 0 && blkBits b 110 18 == 0 && blkBits b 224 224 == 0
  t.op == k && rz
    && (if k = 2 then
          t.tiles != 0 && blkBits b 8 6 == 0 && t.fmt == 0 && t.acc == 0 && t.m == 0 && t.n == 0 && t.addr == 0 && t.stride == 0
        else
          t.tiles == 0 && rmOk t.rm && (k == 4 || blkBits b 11 3 == 0) && t.few != 3
            && [0, 2, 3, 4, 5, 6, 9, 0xA, 0xB, 0xC].contains t.fmt
            && decide (1 ≤ t.m) && decide (t.m ≤ 64) && decide (1 ≤ t.n) && decide (t.n ≤ 64)
            && decide (t.trow + t.m ≤ 64) && decide (t.tcol + t.n ≤ 64) && t.stride % (elemBits t.fmt / 8) == 0)

/-- The bytes of a transfer's window from its ADDR (11 R280). -/
def Transfer.span (t : Transfer) : Nat := (t.m - 1) * t.stride + t.n * (elemBits t.fmt / 8)

/-- CheckRanges of a transfer (11 R283). -/
def State.transferRanges (s : State) (c : Nat) (sl : Slot) (k : Nat) (b : Block) : Option FaultInfo :=
  let t := transferOf b
  if k = 2 then none
  else s.operandFault c sl t.addr [1, 2, 4] [1, 2, 4] (k == 4) (offOf t.addr) (offOf t.addr + t.span : Nat) (elemBits t.fmt / 8)

/-! ## Acceptance (11 R271, R278) -/

/-- The cores of a group command's grid with their places in it: core, row and column of the part (11 R277). -/
def gridCores (c : Nat) (geom : Word) (p : Pass) : List (Nat × Nat × Nat) :=
  (List.range (grid64 p.m)).flatMap (fun i => (List.range (grid64 p.n)).map (fun j =>
    (clusterOf c * 96 + 12 * (geomOrgRow geom + p.gr + i) + geomOrgCol geom + p.gc + j, i, j)))

/-- The next piece of work of the engine is due. -/
def State.mxKick (s : State) (c : Nat) : State := (s.pushOnce (.mxPassStart c)).pushOnce (.mxTransferStart c)

/-- A part enters the engine of its core, which numbers no command for it (11 R265, R278). -/
def State.mxEnter (s : State) (m : Cmd) (target i j : Nat) : State :=
  let k := s.core target
  let part : Cmd := { m with core := target, parent := some (m.core, m.seq), waiting := [], parts := 0, flags := 0, fault := 0, dropped := 0, lost := [], row0 := i, col0 := j, tables := k.tables }
  (s.setCore target { k with mx := { k.mx with cmds := k.mx.cmds ++ [part] } }).mxKick target

/-- A change of an own command of a core's matrix engine. -/
def State.mapMx (s : State) (c seq : Nat) (f : Cmd → Cmd) : State :=
  let k := s.core c
  s.setCore c { k with mx := k.mx.map (fun m => m.parent.isNone && m.seq == seq) f }

/-- mx.gmma after its own acceptance: the part of the issuing core enters, the other parts are asked of their cores, and the word is held
until all have answered (11 R278). -/
def gmmaSpread (cx : Ctx) (sl : Slot) (s : State) (m : Cmd) : Trig :=
  let c := cx.core
  let p := passOf m.blk
  let grid := gridCores c (s.cell c).geom p
  let own := grid.filter (fun g => g.1 == c)
  let others := (grid.filter (fun g => g.1 != c)).map (·.1)
  let s := own.foldl (fun s g => s.mxEnter m c g.2.1 g.2.2) s
  let s := s.mapMx c m.seq (fun m => { m with waiting := others, parts := own.length })
  let s := others.foldl (fun s d => s.push (.mxPartAccept c m.seq d)) s
  if others.isEmpty then .done (s.setSlot c cx.slot (sl.setRes rMx (BitVec.ofNat 64 m.seq)))
  else .hold s (.gmma m.seq) .issued none

/-- The matrix operations (11 R270, R271). -/
def mxOp (cx : Ctx) (sl : Slot) (s : State) : Trig :=
  let c := cx.core
  let k := opOf cx.m.dst
  let o := sl.operand 0x5B
  let cell := s.cell c
  if s.mustWait c cx.slot 1 then slotHold cx s 1
  else
    match s.blockAt c sl cx.m.val o with
    | .error f => .fault f
    | .ok (l, b) =>
      if !(if k ≤ 1 then passOk k cell.geom b else transferOk k b) then .fault (faultAt cCmdInvalid cx.m.val)
      else
        match (if k ≤ 1 then s.passRanges c sl b else s.transferRanges c sl k b) with
        | some f => .fault f
        | none =>
          let e := (s.core c).mx
          let m := { Cmd.fresh cx sl cell.part e.seq.toNat l b o with
            rm := engineMode (blkBits b 8 3) sl, tables := (s.core c).tables
            last := if k = 3 ∨ k = 4 then (transferOf b).m * (transferOf b).n else 1 }
          let s := ((s.setCore c { s.core c with mx := e.accept m }).noteActivity cell.launch).mxKick c
          if k = 1 then gmmaSpread cx sl s m else .done (s.setSlot c cx.slot (sl.setRes rMx (e.seq.setWidth 64)))

/-! ## Reads of the array (11 R267 to R269, R275) -/

/-- What a read for the array gives: the bits, the granules of it that are lost as (core or plane tag, byte address), or a failure. -/
structure Raw where
  bits : Nat
  bad : List (Nat × Nat)
  fail : Nat

/-- Bits of a core store or of the plane, from bit lo of the byte at a. -/
def rawOf (tag : Nat) (mem : Mem) (a lo w : Nat) : Raw :=
  let n := (lo + w + 7) / 8
  ⟨bitsOf (mem.read a n) lo w, if mem.lost 8 a n then ((granules 8 a n).filter (fun g => mem.bad.contains g)).map (fun g => (tag, 8 * g)) else [], 0⟩

/-- Reads w bits at bit offset x past a generic address, as the core that runs the part sees it (11 R269, R274, R287). -/
def State.raw (s : State) (m : Cmd) (ga : Word) (x w : Nat) : Raw :=
  match s.place m.core (m.seg (segNo ga)) (offOf ga + x / 8) ((x % 8 + w + 7) / 8) with
  | .ok (.core d a) => rawOf d (s.core d).store a (x % 8) w
  | .ok _ => ⟨0, [], cSegRights⟩
  | .error code => ⟨0, [], code⟩

/-- One element of A or B as it reaches the array. -/
structure Fed where
  val : FVal
  flags : FFlags
  raw : Raw

/-- A lost or failed read is not used. -/
def Fed.usable (f : Fed) : Bool := f.raw.bad.isEmpty && f.raw.fail == 0

/-- Conversion to F19, once for an element that is read (11 R275). -/
def feed (tables : Table Word) (fmt tbl mode : Nat) (r : Raw) (q : BitVec 32) : Fed × BitVec 32 :=
  if fmt = 7 ∨ fmt = 8 then (⟨Fmt.f19.value ((tables.get 0 (256 * tbl + r.bits)).toNat % 2 ^ 19), 0, r⟩, q)
  else if fmt = 0 ∨ fmt = 0xB ∨ fmt = 0xC then
    let q' := seedAfter mode q
    let x := codeValue fmt r.bits
    let y := roundTo Fmt.f19 mode false q'.toNat x.1
    (⟨Fmt.f19.value y.code, y.flags, r⟩, q')
  else
    let x := codeValue fmt (elemCode fmt r.bits)
    (⟨x.1, x.2, r⟩, q)

/-! ## The sum of a block (11 R276) -/

/-- A product of two F19 values, exact. A NaN product is of a NaN operand or of 0 × ∞. -/
def prodVal (p : FVal × FVal) : FVal := (mulVal p.1 p.2).1

/-- 0 × ∞ in either order. -/
def zeroTimesInf : FVal × FVal → Bool
  | (.inf _, y) => y.isZero
  | (x, .inf _) => x.isZero
  | _ => false

/-- The magnitude of a finite product truncated to a multiple of 2^lo, with its sign (11 R276). -/
def truncAt (lo : Int) : FVal → Int
  | .fin n m e =>
    let a : Nat := if lo ≤ e then m * 2 ^ (e - lo).toNat else m / 2 ^ (lo - e).toNat
    if n then -(a : Int) else a
  | _ => 0

/-- floor(log2 |p|) of a non-zero finite value. -/
def topExp : FVal → Option Int
  | .fin _ m e => if m = 0 then none else some (e + Nat.log2 m)
  | _ => none

/-- The larger of an optional and an integer. -/
def maxExp (a : Option Int) (b : Option Int) : Option Int :=
  match a, b with
  | none, b => b
  | a, none => a
  | some a, some b => some (max a b)

/-- BlockValue before the scales (11 R276). -/
def blockSum (l : List (FVal × FVal)) : FVal × FFlags :=
  let ps := l.map prodVal
  if l.any zeroTimesInf || (ps.contains (.inf false) && ps.contains (.inf true)) then (.nan false, NV)
  else if l.any (fun p => p.1.isNaN || p.2.isNaN) then
    (.nan false, if l.any (fun p => p.1.isSNaN || p.2.isSNaN) then NV else 0)
  else if ps.contains (.inf false) then (.inf false, 0)
  else if ps.contains (.inf true) then (.inf true, 0)
  else
    match ps.foldl (fun a p => maxExp a (topExp p)) none with
    | none => (.fin (ps.all (fun p => p.isNeg)) 0 0, 0)
    | some e =>
      let lo := e - 39
      let t := ps.foldl (fun a p => a + truncAt lo p) (0 : Int)
      (.fin (decide (t < 0)) t.natAbs lo, 0)

/-- The value of a scale code of a scale field (09 R227, 11 R272). -/
def scaleVal (scf code : Nat) : FVal × FFlags := if scf = 1 then (e8m0Value code, 0) else e4m3sValue code

/-- BlockValue with its scales (09 R228, 11 R276). -/
def blockValue (l : List (FVal × FVal)) (sa sb : Option (FVal × FFlags)) : Nat × FFlags :=
  let scaleBy (v : FVal × FFlags) (s : Option (FVal × FFlags)) : FVal × FFlags :=
    match s with
    | none => v
    | some x =>
      let p := mulVal v.1 x.1
      (p.1, v.2 ||| p.2 ||| x.2)
  let v := scaleBy (scaleBy (blockSum l) sa) sb
  let r := roundTo Fmt.f32 0 false 0 v.1
  (r.code, v.2 ||| r.flags)

/-! ## A pass (11 R276, R277, R279, R287) -/

/-- An element of a tile. -/
def accIndex (tile r c : Nat) : Nat := 4096 * tile + 64 * r + c

/-- The part of a pass that a command stands for: its rows and columns, its first row, its row group, and its seed (11 R277). -/
structure Part where
  rows : Nat
  cols : Nat
  m0 : Nat
  group : Nat
  seed : BitVec 32

def State.partOf (s : State) (m : Cmd) (p : Pass) : Part :=
  let seed := BitVec.ofNat 32 p.seed
  { rows := min 64 (p.m - 64 * m.row0), cols := min 64 (p.n - 64 * m.col0), m0 := 64 * m.row0, group := m.row0
    seed := if p.op = 1 then seed ^^^ BitVec.ofNat 32 (cellRank (s.cell m.core).cellinfo * 2 ^ 24) else seed }

/-- What a pass has gathered: the accumulators, flags, lost granules and the smallest failure. -/
structure PassRun where
  acc : Table (BitVec 32)
  flags : FFlags
  bad : List (Nat × Nat)
  fail : Nat

/-- The blocks of one element in order: each is added unless something of it cannot be used. An abandoned pass stops each element at a
block that is left open, before the first that could not be read (11 R287; log 24). -/
def addBlocks (acc : BitVec 32) (stop : Nat) : List (Option (Nat × FFlags) × Bool) → Nat → BitVec 32 × FFlags
  | [], _ => (acc, 0)
  | (v, broken) :: r, b =>
    if stop ≤ b || broken then (acc, 0)
    else
      match v with
      | none => addBlocks acc stop r (b + 1)
      | some (code, fl) =>
        let x := fAdd Fmt.f32 0 false 0 (Fmt.f32.value acc.toNat) (Fmt.f32.value code)
        let y := addBlocks (BitVec.ofNat 32 x.code) stop r (b + 1)
        (y.1, fl ||| x.flags ||| y.2)

/-- The unskipped blocks of a part, with the granules and failures of the mask's bytes; an uncorrectable byte reads as ones (11 R279, R287). -/
def State.passBlocks (s : State) (m : Cmd) (p : Pass) (pt : Part) : List Nat × List Raw :=
  if !p.occen then (List.range p.nb, [])
  else
    let rs := (List.range p.nb).map (fun b => (b, s.raw m p.occ (pt.group * p.nb + b) 1))
    ((rs.filter (fun r => r.2.fail == 0 && (r.2.bits == 1 || !r.2.bad.isEmpty))).map (·.1), rs.map (·.2))

/-- K positions of a block (11 R276). -/
def blockKs (p : Pass) (b : Nat) : List Nat := upFrom (32 * b) (min 32 (p.k - 32 * b))

/-- One whole part of a pass: the state and the command afterwards (11 R275 to R277, R287). -/
def State.runPass (s : State) (m : Cmd) : State × Cmd :=
  let p := passOf m.blk
  let pt := s.partOf m p
  let k := s.core m.core
  let (bs, occ) := s.passBlocks m p pt
  let eA := elemBits p.afmt
  let eB := elemBits p.bfmt
  let rowsA := mapSeed (fun r q => mapSeed (fun b q =>
      mapSeed (fun x q => feed m.tables p.afmt p.tbla m.rm (s.raw m p.aaddr ((pt.m0 + r) * p.astride * 8 + x * eA) eA) q) (blockKs p b) q) bs q)
    (List.range pt.rows) pt.seed
  let colsB := mapSeed (fun b q => mapSeed (fun x q => mapSeed (fun n q =>
      feed m.tables p.bfmt p.tblb m.rm (rawOf (1000 + m.core) k.plane (p.boff + x * 8 * eB + n * eB / 8) (n * eB % 8) eB) q)
        (List.range pt.cols) q) (blockKs p b) q) bs rowsA.2
  let scaleA (r b : Nat) : Option Raw := if p.ascf = 0 then none else some (s.raw m p.asc (((pt.m0 + r) * p.asstride + b) * 8) 8)
  let scaleB (n b : Nat) : Option Raw := if p.bscf = 0 then none else some (s.raw m p.bsc ((64 * b + n) * 8) 8)
  let fedA := rowsA.1.flatten.flatten
  let fedB := colsB.1.flatten.flatten
  let scalesA := (List.range pt.rows).flatMap (fun r => bs.filterMap (scaleA r))
  let scalesB := (List.range pt.cols).flatMap (fun n => bs.filterMap (scaleB n))
  let raws := occ ++ (fedA ++ fedB).map (·.raw) ++ scalesA ++ scalesB
  let fail := raws.foldl (fun a r => minFault a r.fail) 0
  let convFlags := (fedA ++ fedB).foldl (fun a f => if f.usable then a ||| f.flags else a) (0 : FFlags)
  let usable (x : Option Raw) : Bool := match x with | some r => r.bad.isEmpty && r.fail == 0 | none => true
  let failed (x : Option Raw) : Bool := match x with | some r => r.fail != 0 | none => false
  let one (r n : Nat) (stop : Nat) : BitVec 32 × FFlags :=
    let i := accIndex p.acc r n
    let vs := (List.zip bs (List.zip (rowsA.1.getD r []) colsB.1)).map (fun x =>
      let b := x.1
      let as := x.2.1
      let cs := x.2.2.filterMap (fun l => l[n]?)
      let sa := scaleA r b
      let sb := scaleB n b
      let ok := as.all Fed.usable && cs.all Fed.usable && usable sa && usable sb
      let broken := as.any (fun f => f.raw.fail != 0) || failed sa || failed sb
      (if ok then
        some (blockValue (List.zip (as.map (·.val)) (cs.map (·.val))) (sa.map (fun z => scaleVal p.ascf z.bits)) (sb.map (fun z => scaleVal p.bscf z.bits)))
       else none, broken))
    addBlocks (k.acc.get 0 i) stop vs 0
  let cells := (List.range pt.rows).flatMap (fun r => (List.range pt.cols).map (fun n => (r, n)))
  let run := cells.foldl (fun (x : PassRun) rc =>
    let i := accIndex p.acc rc.1 rc.2
    if k.accBad.contains i then { x with bad := x.bad ++ [(2000 + m.core, 4 * i)] }
    else
      let stop := if fail = 0 then p.nb else Config.choice (s.draws + 64 * rc.1 + rc.2) % (p.nb + 1)
      let v := one rc.1 rc.2 stop
      { x with acc := x.acc.set i v.1, flags := x.flags ||| v.2 }) ⟨k.acc, convFlags, [], 0⟩
  let s := { s.setCore m.core { k with acc := run.acc } with draws := if fail = 0 then s.draws else s.draws + 4096 }
  let bad := raws.flatMap (·.bad)
  let s := bad.foldl (fun s g => if g.1 < 1000 then s.countCore g.1 g.2 8 else s.countPlane (g.1 - 1000) g.2 8) s
  let s := s.countAcc m.core (run.bad.map (fun g => g.2 / 4))
  let m := bad.foldl (fun m g => m.drop g.1 8 [g.2]) m
  let m := run.bad.foldl (fun m g => m.drop g.1 4 [g.2]) m
  (s, { m with flags := m.flags ||| run.flags, fault := minFault m.fault fail, finished := true, first := m.last })

/-! ## Accumulator transfers (11 R280, R287) -/

/-- mx.zero (11 R280). -/
def State.runZero (s : State) (m : Cmd) : State × Cmd :=
  let t := (transferOf m.blk).tiles
  let k := s.core m.core
  let gone (i : Nat) : Bool := bitsOf t (i / 4096) 1 == 1
  (s.setCore m.core { k with acc := k.acc.filter (fun e => !gone e.1), accBad := k.accBad.filter (fun i => !gone i), accFound := k.accFound.filter (fun i => !gone i) },
    { m with finished := true, first := m.last })

/-- The tile element of window element e, and its memory offset (11 R280). -/
def Transfer.index (t : Transfer) (e : Nat) : Nat := accIndex t.acc (t.trow + e / t.n) (t.tcol + e % t.n)
def Transfer.offset (t : Transfer) (e : Nat) : Nat := offOf t.addr + e / t.n * t.stride + e % t.n * (elemBits t.fmt / 8)

/-- The draw of window element e under RSR: each Round of a store takes a step, and each i32 element of a load (11 R280). -/
def Cmd.transferDraw (m : Cmd) (e : Nat) : Nat :=
  if m.rm = 4 then (drawAt (BitVec.ofNat 32 (transferOf m.blk).seed) e).toNat else 0

/-- The granules of a place that are lost in a read of n bytes: tag, size and bytes. -/
def lostAt (p : Place) (n lost : Nat) : Nat × Nat × List Nat :=
  let js := (List.range n).filter (fun j => bitsOf lost j 1 == 1)
  match p with
  | .core d a => (d, 8, js.map (a + ·))
  | .plane a => (1000, 8, js.map (a + ·))
  | .device va _ => (3000, 32, js.map (va + ·))
  | .remote _ _ _ _ a => (3001, 32, js.map (a + ·))

/-- One element of mx.load (11 R280, R287). -/
def State.loadElem (s : State) (m : Cmd) (e : Nat) : Did :=
  let t := transferOf m.blk
  let n := elemBits t.fmt / 8
  match s.place m.core (m.seg (segNo t.addr)) (t.offset e) n with
  | .error code => .gone s (m.abandon code)
  | .ok p =>
    let r := s.get m.core p n
    match r.2 with
    | .val v lost =>
      if lost ≠ 0 then
        let b := lostAt p n lost
        .done r.1 (m.drop b.1 b.2.1 b.2.2)
      else
        let x := codeValue t.fmt (elemCode t.fmt v)
        let y := roundTo Fmt.f32 m.rm false (m.transferDraw e) x.1
        let k := r.1.core m.core
        .done (r.1.setCore m.core { k with acc := k.acc.set (t.index e) (BitVec.ofNat 32 y.code), accBad := removeNat (t.index e) k.accBad, accFound := removeNat (t.index e) k.accFound })
          { m with flags := m.flags ||| x.2 ||| y.flags }
    | .page va => .later (r.1.pushOnce (.pageWake m.part va)) m none
    | .held _ => .later r.1 m none
    | .fail code => .gone r.1 (m.abandon code)
    | .far .. => .gone r.1 (m.abandon cSegRights)

/-- One element of mx.store (11 R280, R287). -/
def State.storeElem (s : State) (m : Cmd) (e : Nat) : Did :=
  let t := transferOf m.blk
  let n := elemBits t.fmt / 8
  let k := s.core m.core
  if k.accBad.contains (t.index e) then .done (s.countAcc m.core [t.index e]) (m.drop (2000 + m.core) 4 [4 * t.index e])
  else
    match s.place m.core (m.seg (segNo t.addr)) (t.offset e) n with
    | .error code => .gone s (m.abandon code)
    | .ok p =>
      let y := roundCode t.fmt m.rm t.sat (m.transferDraw e) (Fmt.f32.value (k.acc.get 0 (t.index e)).toNat)
      let r := s.put m.core p n (heldCode t.fmt y.code) 0 t.few
      match r.2 with
      | .done => .done r.1 { m with flags := m.flags ||| y.flags, wrote := r.1.writtenAt m.core p n ++ m.wrote }
      | .page va => .later (r.1.pushOnce (.pageWake m.part va)) m none
      | .held _ => .later r.1 m none
      | .log => .later (r.1.pushOnce (.logMerge m.core)) m none
      | .fail code => .gone r.1 (m.abandon code)
      | .far .. => .gone r.1 (m.abandon cSegRights)

/-- The elements listed, in order; one that must wait joins the pending ones. -/
def State.transferElems (s : State) (m : Cmd) : List Nat → State × Cmd
  | [] => (s, m)
  | e :: r =>
    match (if opOf m.op = 3 then s.loadElem m e else s.storeElem m e) with
    | .done s m => State.transferElems s m r
    | .later s m _ => State.transferElems s { m with pend := m.pend ++ [(e, none)] } r
    | .sent s m => (s, m)
    | .gone s m => (s, m)

/-- A run of a transfer over its window, or over its waiting elements (11 R280, R287). -/
def State.runTransfer (s : State) (m : Cmd) : State × Cmd :=
  if opOf m.op = 2 then s.runZero m
  else
    let es := if m.first < m.last then upFrom m.first (m.last - m.first) else m.pend.map (·.1)
    let r := s.transferElems { m with first := m.last, pend := [], woken := false } es
    (r.1, { r.2 with finished := r.2.pend.isEmpty })

/-! ## Order (11 R265, R285) -/

/-- A command that uses the array at this core: a pass of its own or a part (11 R265). -/
def Cmd.isPass (m : Cmd) : Bool := m.parent.isSome || opOf m.op == 0

/-- A command that uses the transfer path (11 R265). -/
def Cmd.isTransfer (m : Cmd) : Bool := decide (2 ≤ opOf m.op)

/-- The tiles that a command names at this core, as a mask (11 R285). -/
def Cmd.tiles (m : Cmd) : Nat :=
  if m.isTransfer then (if opOf m.op = 2 then (transferOf m.blk).tiles else 2 ^ (transferOf m.blk).acc)
  else if m.isPass then 2 ^ (passOf m.blk).acc
  else 0

/-- The command that is next on a path, unless an earlier unfinished command names one of its tiles (11 R285). -/
def nextOn (p : Cmd → Bool) : List Cmd → Nat → Option Cmd
  | [], _ => none
  | m :: r, busy =>
    if m.finished then nextOn p r busy
    else if p m then (if m.tiles &&& busy = 0 then some m else none)
    else nextOn p r (busy ||| m.tiles)

/-- The same command: a part by its parent, an own command by its number. -/
def Cmd.same (a b : Cmd) : Bool := a.parent == b.parent && a.seq == b.seq

/-- Puts a command back into its core's matrix engine. -/
def State.putMx (s : State) (m : Cmd) : State :=
  let k := s.core m.core
  s.setCore m.core { k with mx := k.mx.map (fun x => x.same m) (fun _ => m) }

end Sys2Proof.Machine
end

