-- ==== Sys2Proof/Machine/Vx.lean ====
section
/-! DEFINITION. The vector engine: acceptance, the values of the operations, and the chunks of a command (12 R290 to R310). -/

namespace Sys2Proof.Machine

/-! ## The block (12 R293, R294, R296) -/

/-- An operand of a vector command: byte address, signed row distance, format. -/
structure Opnd where
  addr : Nat
  stride : Int
  fmt : Nat

/-- Fields of a vector block (12 R293). -/
structure Vec where
  op : Nat
  rm : Nat
  sat : Bool
  few : Nat
  sub : Nat
  tbl : Nat
  scf : Nat
  yimm : Bool
  cols : Nat
  rows : Nat
  imm : Nat
  x : Opnd
  y : Opnd
  z : Opnd
  d : Opnd
  sc : Opnd
  seed : BitVec 32

def vecOf (b : Block) : Vec :=
  let at_ (a s f : Nat) : Opnd := ⟨blkField b a 4, signExt 32 (blkField b s 4), blkBits b f 4⟩
  { op := blkField b 0 1, rm := blkBits b 8 3, sat := blkBits b 11 1 == 1, few := blkBits b 12 2, sub := blkBits b 32 4
    tbl := blkBits b 36 2, scf := blkBits b 38 2, yimm := blkBits b 40 1 == 1, cols := blkField b 6 2, rows := blkField b 8 2
    imm := blkField b 12 4, x := at_ 16 32 16, y := at_ 20 36 20, z := at_ 24 40 24, d := at_ 28 44 28
    sc := { at_ 48 52 0 with fmt := 0xE }, seed := BitVec.ofNat 32 (blkField b 56 4) }

/-- Which operands an operation uses (12 R294). -/
def vxUsesY (k : Nat) : Bool := decide (k ≤ 5) || k == 7 || k == 12 || k == 13
def vxUsesZ (k : Nat) : Bool := k == 3 || k == 13
def vxUsesD (k : Nat) : Bool := k != 21
def vxUsesSc (k : Nat) : Bool := k == 18 || k == 19

/-- T8 or T4. -/
def tableFmt (f : Nat) : Bool := f == 7 || f == 8

/-- The arithmetic formats (12 R297). -/
def arithFmt (f : Nat) : Bool := [0, 2, 3, 4, 5, 6, 9, 0xA, 0xB, 0xC].contains f

/-- The formats of quantised data (12 R303). -/
def quantFmt (f : Nat) : Bool := [3, 4, 5, 6, 7, 8, 9, 0xA, 0xB].contains f

/-- The formats that dequantisation delivers (12 R303). -/
def wideFmt (f : Nat) : Bool := decide (f = 0) || f == 2 || f == 3 || f == 4

/-- The formats of an operation (12 R297 to R303). -/
def vxFmtOk (k : Nat) (v : Vec) : Bool :=
  match k with
  | 12 => arithFmt v.x.fmt && arithFmt v.y.fmt && v.d.fmt == 0xA
  | 13 => arithFmt v.x.fmt && arithFmt v.y.fmt && v.z.fmt == 0xA && arithFmt v.d.fmt
  | 17 => arithFmt v.x.fmt && v.d.fmt == 0
  | 18 => arithFmt v.x.fmt && quantFmt v.d.fmt
  | 19 => quantFmt v.x.fmt && wideFmt v.d.fmt
  | 21 => v.x.fmt == 2
  | 22 => arithFmt v.x.fmt && tableFmt v.d.fmt
  | 23 => tableFmt v.x.fmt && wideFmt v.d.fmt
  | _ => arithFmt v.x.fmt && arithFmt v.y.fmt && arithFmt v.z.fmt && arithFmt v.d.fmt

/-- An operation's use of the TBL field (12 R294). -/
def vxUsesTbl (k : Nat) (v : Vec) : Bool :=
  k == 21 || k == 22 || k == 23 || (vxUsesSc k && (tableFmt v.x.fmt || tableFmt v.d.fmt))

/-- The rows and columns of D (12 R295). -/
def Vec.shape (v : Vec) : Nat × Nat :=
  if v.op = 14 ∨ v.op = 15 then (v.rows, 1)
  else if v.op = 16 then (1, v.cols)
  else if v.op = 17 then (v.rows, (v.cols + 31) / 32)
  else (v.rows, v.cols)

/-- An operand that is not used is zero (12 R294). -/
def Opnd.zero (o : Opnd) : Bool := o.addr == 0 && o.stride == 0 && o.fmt == 0

/-- CheckBlock (12 R294, R296). -/
def vxBlockOk (k : Nat) (b : Block) : Bool :=
  let v := vecOf b
  let high (byte : Nat) : Bool := blkBits b (8 * byte + 21) 11 == 0
  v.op == k && rmOk v.rm && v.few != 3 && blkBits b 14 2 == 0 && blkBits b 41 7 == 0 && blkBits b 80 16 == 0
    && decide (1 ≤ v.cols) && decide (v.cols ≤ 32768) && decide (1 ≤ v.rows) && decide (v.rows ≤ 4096)
    && high 16 && high 20 && high 24 && high 28 && high 48
    && (if vxUsesY k then (if v.yimm then v.y.zero else v.imm == 0) else !v.yimm && v.imm == 0 && v.y.zero)
    && (vxUsesZ k || v.z.zero) && (vxUsesD k || (v.d.zero && v.few == 0))
    && (if vxUsesSc k then v.scf == 1 || v.scf == 2 else v.scf == 0 && v.sc.addr == 0 && v.sc.stride == 0)
    && (if k = 12 then decide (v.sub ≤ 4) else v.sub == 0)
    && (vxUsesTbl k v || v.tbl == 0)
    && (k != 21 || (v.rm == 0 && !v.sat && v.seed == 0 && v.cols == 256 && v.rows == 1))
    && !(v.d.stride == 0 && vxUsesD k && decide (1 < v.shape.1))
    && !(v.d.fmt == 8 && v.cols % 2 == 1)
    && vxFmtOk k v

/-- The range and alignment of an operand of rows × cols elements (12 R295). -/
def State.vxOperand (s : State) (c : Nat) (o : Opnd) (rows cols : Nat) : Option FaultInfo :=
  let bits := elemBits o.fmt
  let reach : Int := ((rows : Int) - 1) * o.stride
  let lo : Int := (o.addr : Int) + min 0 reach
  let hi : Int := (o.addr : Int) + max 0 reach + ((cols * bits + 7) / 8 : Nat)
  let ea := BitVec.ofNat 64 o.addr
  if lo < 0 ∨ 0x180000 < hi then some (faultAt cSegLimit ea)
  else if s.logArea c lo.toNat (hi - lo).toNat then some (faultAt cSegRights ea)
  else if 8 ≤ bits ∧ (o.addr % (bits / 8) ≠ 0 ∨ o.stride % (bits / 8 : Nat) ≠ 0) then some (faultAt cMisaligned ea)
  else none

/-- CheckRanges: X, Y, Z, the scales and D (12 R295). -/
def State.vxRanges (s : State) (c k : Nat) (b : Block) : Option FaultInfo :=
  let v := vecOf b
  firstFault [
    s.vxOperand c v.x v.rows v.cols,
    if vxUsesY k && !v.yimm then s.vxOperand c v.y v.rows (if k = 7 then 1 else v.cols) else none,
    if vxUsesZ k then s.vxOperand c v.z v.rows v.cols else none,
    if vxUsesSc k then s.vxOperand c v.sc v.rows ((v.cols + 31) / 32) else none,
    if vxUsesD k then s.vxOperand c v.d v.shape.1 v.shape.2 else none]

/-! ## Acceptance (12 R292, R303) -/

/-- Table t with the 256 F19 entries held at an address (12 R303). -/
def tableFrom (mem : Mem) (a t : Nat) (tables : Table Word) : Table Word :=
  (List.range 256).foldl (fun tb k => tb.set (256 * t + k) (BitVec.ofNat 64 (mem.read (a + 4 * k) 4 / 2 ^ 13))) tables

/-- The vector operations (12 R291, R292). -/
def vxOp (cx : Ctx) (sl : Slot) (s : State) : Trig :=
  let c := cx.core
  let k := opOf cx.m.dst
  let o := sl.operand 0x5C
  let cell := s.cell c
  if s.mustWait c cx.slot 2 then slotHold cx s 2
  else
    match s.blockAt c sl cx.m.val o with
    | .error f => .fault f
    | .ok (l, b) =>
      let v := vecOf b
      if !vxBlockOk k b then .fault (faultAt cCmdInvalid cx.m.val)
      else
        match s.vxRanges c k b with
        | some f => .fault f
        | none =>
          let core := s.core c
          if k = 21 ∧ core.store.lost 8 v.x.addr 1024 then .fault (faultAt cDataLost (BitVec.ofNat 64 v.x.addr))
          else
            let tables := if k = 21 then tableFrom core.store v.x.addr v.tbl core.tables else core.tables
            let m := { Cmd.fresh cx sl cell.part core.vx.seq.toNat l b o with rm := engineMode v.rm sl, tables := tables }
            let s := (s.setCore c { core with vx := core.vx.accept m, tables := tables }).noteActivity cell.launch
            .done ((s.setSlot c cx.slot (sl.setRes rVx (core.vx.seq.setWidth 64))).pushOnce (.vxCommandStart c))

/-! ## Real results (12 R297 to R303) -/

/-- A result before its rounding: a value, and whether a finite one is larger in magnitude by less than one unit of its last place. -/
structure Real where
  val : FVal
  sticky : Bool
  flags : FFlags

/-- An exact result. -/
def Real.exact (r : FVal × FFlags) : Real := ⟨r.1, false, r.2⟩

/-- Round(v, fmt, mode) of a result (09 R219, R220, 12 R297). -/
def Real.round (v : Real) (fmt mode : Nat) (sat : Bool) (q : Nat) : FRes :=
  let r := match v.val with
    | .fin n m e =>
      match fmtOf fmt with
      | some f => roundFin f mode sat q n m e v.sticky
      | none =>
        match intOf fmt with
        | some (w, sg) => roundIntFin w sg mode q n m e v.sticky
        | none => roundCode fmt mode sat q v.val
    | x => roundCode fmt mode sat q x
  ⟨r.code, r.flags ||| v.flags⟩

/-- The value itself, or a number between it and the next, where only the order against coarser numbers matters. -/
def Real.near (v : Real) : FVal :=
  match v.val, v.sticky with
  | .fin n m e, true => .fin n (2 * m + 1) (e - 1)
  | x, _ => x

/-- A finite value with an odd significand. -/
def oddForm : Nat → Nat → Int → Nat × Int
  | 0, m, e => (m, e)
  | k + 1, m, e => if m % 2 = 0 then oddForm k (m / 2) (e + 1) else (m, e)

/-! ### Transcendentals (12 R299) -/

/-- Fixed-point bits of the approximations. -/
def fixBits : Nat := 1024

/-- ln 2 in fixed point: the sum of 2^fixBits / (k 2^k). -/
def ln2Fix : Nat := (upFrom 1 fixBits).foldl (fun a k => a + 2 ^ (fixBits - k) / k) 0

/-- The exponential series of a fixed-point z in [0, 1), n terms from term k on. -/
def expSeries (z : Nat) : Nat → Nat → Nat → Nat
  | 0, _, _ => 0
  | n + 1, k, term => term + expSeries z n (k + 1) (term * z / 2 ^ fixBits / (k + 1))

/-- 2^x of a finite value (12 R299). An exponent beyond every format is cut off. -/
def exp2Real (n : Bool) (m : Nat) (e : Int) : Real :=
  let g := scaled 200 n m e
  let unit : Int := 2 ^ 200
  let whole : Int := max (-4000) (min 4000 (g.fdiv unit))
  let frac := (g.fmod unit).toNat
  if 4000 ≤ g.fdiv unit ∨ g.fdiv unit ≤ -4000 then ⟨.fin false 1 whole, true, 0⟩
  else if frac = 0 then ⟨.fin false 1 whole, false, 0⟩
  else ⟨.fin false (expSeries (frac * ln2Fix / 2 ^ 200) 200 0 (2 ^ fixBits)) (whole - fixBits), true, 0⟩

/-- Bits of log2 of a fixed-point y in [1, 2), by squaring. -/
def log2Bits : Nat → Nat → Nat → Nat
  | 0, _, acc => acc
  | n + 1, y, acc =>
    let y2 := y * y / 2 ^ fixBits
    if 2 ^ (fixBits + 1) ≤ y2 then log2Bits n (y2 / 2) (2 * acc + 1) else log2Bits n y2 (2 * acc)

/-- log2 of a positive finite value (12 R299). -/
def log2Real (m : Nat) (e : Int) : Real :=
  let l := Nat.log2 m
  let whole : Int := e + l
  if m = 2 ^ l then ⟨intVal whole, false, 0⟩
  else
    let frac := log2Bits 400 (m * 2 ^ fixBits / 2 ^ l) 0
    let t : Int := whole * (2 ^ 400 : Nat) + frac
    if 0 ≤ t then ⟨.fin false t.toNat (-400), true, 0⟩ else ⟨.fin true (-t - 1).toNat (-400), true, 0⟩

/-- The transcendentals with the special cases of 12 R299. -/
def transReal (k : Nat) (x : FVal) : Real :=
  match x with
  | .nan s => ⟨.nan false, false, if s then NV else 0⟩
  | .inf n =>
    if k = 8 then ⟨if n then .fin false 0 0 else .inf false, false, 0⟩
    else if k = 9 then (if n then ⟨.nan false, false, NV⟩ else ⟨.inf false, false, 0⟩)
    else if k = 10 then ⟨.fin n 0 0, false, 0⟩
    else if n then ⟨.nan false, false, NV⟩ else ⟨.fin false 0 0, false, 0⟩
  | .fin n m e =>
    if m = 0 then
      (if k = 8 then ⟨.fin false 1 0, false, 0⟩ else if k = 9 then ⟨.inf true, false, DZ⟩ else ⟨.inf n, false, DZ⟩)
    else if k = 8 then exp2Real n m e
    else if k = 10 then
      let num := 2 ^ divBits
      ⟨.fin n (num / m) (-e - divBits), num % m != 0, 0⟩
    else if n then ⟨.nan false, false, NV⟩
    else if k = 9 then log2Real m e
    else
      let o := oddForm (Nat.log2 m) m e
      let m' := if o.2 % 2 = 0 then o.1 else 2 * o.1
      let e' := if o.2 % 2 = 0 then o.2 else o.2 - 1
      let r := isqrt (2 ^ 1024 / m') 513 0
      ⟨.fin false r (-e' / 2 - 512), !(r * r * m' == 2 ^ 1024), 0⟩

/-- The quotient of vx.quant (12 R303). -/
def quotReal (x s : FVal) : Real :=
  match x, s with
  | .nan sg, _ => ⟨.nan false, false, if sg then NV else 0⟩
  | _, .nan _ => ⟨.nan false, false, 0⟩
  | .inf n, _ => ⟨.inf (n != s.isNeg), false, 0⟩
  | .fin n _ _, .inf n' => ⟨.fin (n != n') 0 0, false, 0⟩
  | .fin n m e, .fin n' m' e' =>
    if m' = 0 then (if m = 0 then ⟨.nan false, false, NV⟩ else ⟨.inf (n != n'), false, DZ⟩)
    else
      let num := m * 2 ^ divBits
      ⟨.fin (n != n') (num / m') (e - e' - divBits), num % m' != 0, 0⟩

/-- The absolute value of 12 R298. -/
def absVal : FVal → FVal × FFlags
  | .nan s => (.nan false, if s then NV else 0)
  | .inf _ => (.inf false, 0)
  | .fin _ m e => (.fin false m e, 0)

/-- The predicates of vx.cmp (12 R300). -/
def cmpPred (sub : Nat) (x y : FVal) : Bool × FFlags :=
  let un := x.isNaN || y.isNaN
  match sub with
  | 0 => (!un && x.eqv y, snan x ||| snan y)
  | 1 => (un || !x.eqv y, snan x ||| snan y)
  | 2 => (!un && x.lt y, if un then NV else 0)
  | 3 => (!un && (x.lt y || x.eqv y), if un then NV else 0)
  | _ => (un, snan x ||| snan y)

/-! ## Reads (12 R295, R297) -/

/-- Element (r, c) of an operand as held. -/
def Core.vxRaw (k : Core) (core : Nat) (o : Opnd) (r c : Nat) : Raw :=
  let bits := elemBits o.fmt
  let a := ((o.addr : Int) + (r : Int) * o.stride).toNat + c * bits / 8
  rawOf core k.store a (c * bits % 8) bits

/-- The value of an input element; an i32 is first rounded to F32 with draw q (12 R297). -/
def vxVal (fmt mode : Nat) (q : BitVec 32) (bits : Nat) : FVal × FFlags :=
  let x := codeValue fmt (elemCode fmt bits)
  if fmt = 0xC then
    let y := roundTo Fmt.f32 mode false q.toNat x.1
    (Fmt.f32.value y.code, y.flags)
  else x

/-- The number of draws that an operand's conversions take, for n elements consumed (12 R304). -/
def inDraws (mode fmt n : Nat) : Nat := if mode = 4 ∧ fmt = 0xC then n else 0

/-- Elements of a list before place i that are marked with b. -/
def rankOf (l : List (Bool × Bool)) (b : Bool) (i : Nat) : Nat := ((l.take i).filter (fun x => x.1 == b)).length

/-- Draws of the whole of X, Y and Z (12 R304). -/
def Cmd.vxDraws (m : Cmd) (v : Vec) : Nat × Nat × Nat :=
  let n := v.rows * v.cols
  let nx := if v.op = 13 then rankOf m.mask true n else n
  let ny := if v.op = 13 then rankOf m.mask false n else if v.op = 7 then v.rows else n
  (inDraws m.rm v.x.fmt nx, if vxUsesY v.op && !v.yimm then inDraws m.rm v.y.fmt ny else 0,
    if v.op = 3 then inDraws m.rm v.z.fmt n else 0)

/-- X(r, c) with its conversion's draw (12 R304). -/
def Cmd.vxX (m : Cmd) (k : Core) (v : Vec) (r c : Nat) : (FVal × FFlags) × Raw :=
  let i := r * v.cols + c
  let raw := k.vxRaw m.core v.x r c
  (vxVal v.x.fmt m.rm (drawAt v.seed (if v.op = 13 then rankOf m.mask true i else i)) raw.bits, raw)

/-- Y(r, c), or IMM (12 R294, R298). -/
def Cmd.vxY (m : Cmd) (k : Core) (v : Vec) (r c : Nat) : (FVal × FFlags) × Raw :=
  if v.yimm then ((Fmt.f32.value v.imm, 0), ⟨0, [], 0⟩)
  else
    let i := r * v.cols + c
    let raw := if v.op = 7 then k.vxRaw m.core v.y r 0 else k.vxRaw m.core v.y r c
    let n := if v.op = 13 then rankOf m.mask false i else if v.op = 7 then r else i
    (vxVal v.y.fmt m.rm (drawAt v.seed ((m.vxDraws v).1 + n)) raw.bits, raw)

/-- Z(r, c) of vx.fma. -/
def Cmd.vxZ (m : Cmd) (k : Core) (v : Vec) (r c : Nat) : (FVal × FFlags) × Raw :=
  let raw := k.vxRaw m.core v.z r c
  (vxVal v.z.fmt m.rm (drawAt v.seed ((m.vxDraws v).1 + (m.vxDraws v).2.1 + (r * v.cols + c))) raw.bits, raw)

/-! ## The elements of D (12 R298 to R303) -/

/-- One computed element of D: its code, its flags and the granules that keep it from being written. -/
structure OutElem where
  code : Nat
  flags : FFlags
  bad : List (Nat × Nat)

/-- A pairwise tree over one chunk (12 R301). -/
def treeFold (comb : FVal → FVal → FVal × FFlags) : Nat → List (Option FVal) → Option FVal × FFlags
  | 0, l => ((l.head?).join, 0)
  | n + 1, l =>
    let h := l.length / 2
    let ps := (List.zip (l.take h) (l.drop h)).map (fun p =>
      match p.1, p.2 with
      | some a, some b => let r := comb a b; (some r.1, r.2)
      | some a, none => (some a, (0 : FFlags))
      | none, b => (b, 0))
    let r := treeFold comb n (ps.map (·.1))
    (r.1, ps.foldl (fun f p => f ||| p.2) r.2)

/-- The sequence of chunk results (12 R301). -/
def chunkFold (comb : FVal → FVal → FVal × FFlags) (l : List FVal) : Nat → Option FVal → FFlags → Option FVal × FFlags
  | 0, acc, fl => (acc, fl)
  | n + 1, acc, fl =>
    let part := l.take 128
    let v := treeFold comb 7 ((part.map some) ++ List.replicate (128 - part.length) none)
    let step : Option FVal × FFlags := match acc, v.1 with
      | some a, some b => let r := comb a b; (some r.1, r.2)
      | a, none => (a, 0)
      | none, b => (b, 0)
    chunkFold comb (l.drop 128) n step.1 (fl ||| v.2 ||| step.2)

/-- Round(a + b, F32, RNE) as a value (12 R301). -/
def combSum (a b : FVal) : FVal × FFlags :=
  let r := fAdd Fmt.f32 0 false 0 a b
  (Fmt.f32.value r.code, r.flags)

/-- The largest magnitude of a block (12 R302): NaN elements are dropped. -/
def blockMax (l : List FVal) : FVal × FFlags :=
  let nums := l.filter (fun x => !x.isNaN)
  let fl := l.foldl (fun f x => f ||| snan x) 0
  match nums with
  | [] => (.nan false, fl)
  | x :: xs => (xs.foldl (fun a y => (pickVal true a (absVal y).1).1) (absVal x).1, fl)

/-- The decode-table entry of a code (09 R232). -/
def tableVal (tables : Table Word) (tbl code : Nat) : FVal := Fmt.f19.value ((tables.get 0 (256 * tbl + code)).toNat % 2 ^ 19)

/-- The scale of an element (12 R303). -/
def Cmd.vxScale (m : Cmd) (k : Core) (v : Vec) (r c : Nat) : (FVal × FFlags) × Raw :=
  let raw := rawOf m.core k.store (((v.sc.addr : Int) + (r : Int) * v.sc.stride).toNat + c / 32) 0 8
  (scaleVal v.scf raw.bits, raw)

/-- The result of Round or Encode for D (12 R297, R303). -/
def Cmd.vxRound (m : Cmd) (v : Vec) (q : Nat) (x : Real) : FRes :=
  if tableFmt v.d.fmt then
    let r := encodeTable (tableView m.tables v.tbl (if v.d.fmt = 7 then 256 else 16)) m.rm v.sat q x.near
    ⟨r.code, r.flags ||| x.flags⟩
  else x.round v.d.fmt m.rm v.sat q

/-- Element (r, c) of D, from the sources as they stand (12 R298 to R303). -/
def Cmd.vxElem (m : Cmd) (k : Core) (v : Vec) (r c : Nat) : OutElem :=
  let n := m.vxDraws v
  let q := (drawAt v.seed (n.1 + n.2.1 + n.2.2 + (r * v.shape.2 + c))).toNat
  let out (x : Real) (fl : FFlags) (bad : List (Nat × Nat)) : OutElem :=
    let y := m.vxRound v q x
    ⟨y.code, y.flags ||| fl, bad⟩
  let x := m.vxX k v r c
  let y := m.vxY k v r c
  let two (f : FVal → FVal → FVal × FFlags) : OutElem := out (.exact (f x.1.1 y.1.1)) (x.1.2 ||| y.1.2) (x.2.bad ++ y.2.bad)
  match v.op with
  | 0 => two (sumVal m.rm)
  | 1 => two (fun a b => sumVal m.rm a b.negate)
  | 2 => two mulVal
  | 3 =>
    let z := m.vxZ k v r c
    let p := mulVal x.1.1 y.1.1
    let t := sumVal m.rm p.1 z.1.1
    out ⟨t.1, false, t.2 ||| p.2⟩ (x.1.2 ||| y.1.2 ||| z.1.2) (x.2.bad ++ y.2.bad ++ z.2.bad)
  | 4 => two (pickVal false)
  | 5 => two (pickVal true)
  | 6 => out (.exact (absVal x.1.1)) x.1.2 x.2.bad
  | 7 => two mulVal
  | 12 =>
    let p := cmpPred v.sub x.1.1 y.1.1
    ⟨if p.1 then 1 else 0, p.2 ||| x.1.2 ||| y.1.2, x.2.bad ++ y.2.bad⟩
  | 13 =>
    let z := m.mask.getD (r * v.cols + c) (false, false)
    let u := if z.1 then x else y
    out (.exact u.1) 0 (u.2.bad ++ (if z.2 then [(m.core, ((v.z.addr : Int) + (r : Int) * v.z.stride).toNat + c)] else []))
  | 14 =>
    let xs := (List.range v.cols).map (fun j => m.vxX k v r j)
    let a := chunkFold combSum (xs.map (·.1.1)) ((v.cols + 127) / 128) none 0
    out ⟨a.1.getD (.fin false 0 0), false, a.2⟩ (xs.foldl (fun f z => f ||| z.1.2) 0) (xs.flatMap (·.2.bad))
  | 15 =>
    let xs := (List.range v.cols).map (fun j => m.vxX k v r j)
    let a := chunkFold (pickVal true) (xs.map (·.1.1)) ((v.cols + 127) / 128) none 0
    out ⟨a.1.getD (.fin false 0 0), false, a.2⟩ (xs.foldl (fun f z => f ||| z.1.2) 0) (xs.flatMap (·.2.bad))
  | 16 =>
    let xs := (List.range v.rows).map (fun i => m.vxX k v i c)
    let a := (xs.drop 1).foldl (fun (acc : FVal × FFlags) z => let t := combSum acc.1 z.1.1; (t.1, acc.2 ||| t.2))
      ((xs.map (·.1.1)).headD (.fin false 0 0), 0)
    out ⟨a.1, false, a.2⟩ (xs.foldl (fun f z => f ||| z.1.2) 0) (xs.flatMap (·.2.bad))
  | 17 =>
    let xs := (upFrom (32 * c) (min 32 (v.cols - 32 * c))).map (fun j => m.vxX k v r j)
    let y := (Real.exact (blockMax (xs.map (·.1.1)))).round v.d.fmt m.rm false q
    ⟨y.code, y.flags ||| xs.foldl (fun f z => f ||| z.1.2) 0, xs.flatMap (·.2.bad)⟩
  | 18 =>
    let sc := m.vxScale k v r c
    out (quotReal x.1.1 sc.1.1) (x.1.2 ||| sc.1.2) (x.2.bad ++ sc.2.bad)
  | 19 =>
    let sc := m.vxScale k v r c
    let u := if tableFmt v.x.fmt then (tableVal m.tables v.tbl x.2.bits, 0) else x.1
    out (.exact (mulVal u.1 sc.1.1)) (u.2 ||| sc.1.2) (x.2.bad ++ sc.2.bad)
  | 20 => out (.exact x.1) 0 x.2.bad
  | 22 => out (.exact x.1) 0 x.2.bad
  | 23 => out (.exact (tableVal m.tables v.tbl x.2.bits, 0)) 0 x.2.bad
  | op => out (transReal op x.1.1) x.1.2 x.2.bad

/-! ## Chunks (12 R290, R306, R308) -/

/-- Chunks of 128 elements in a row of D. -/
def Vec.rowChunks (v : Vec) : Nat := (v.shape.2 + 127) / 128

/-- The address of element (r, c) of D (12 R295). -/
def Vec.dstAt (v : Vec) (r c : Nat) : Nat := ((v.d.addr : Int) + (r : Int) * v.d.stride).toNat + c * elemBits v.d.fmt / 8

/-- Writes one element of D (12 R295). A T4 element is a nibble of its byte. -/
def State.vxWrite (s : State) (m : Cmd) (v : Vec) (r c code : Nat) : State :=
  let bits := elemBits v.d.fmt
  let a := v.dstAt r c
  if bits = 4 then
    let old := ((s.core m.core).store.byte a).toNat
    let new := if c % 2 = 0 then old / 16 * 16 + code % 16 else old % 16 + code % 16 * 16
    s.putCore m.core m.core a 1 new 0 v.few
  else s.putCore m.core m.core a (bits / 8) (heldCode v.d.fmt code) 0 v.few

/-- A command starts (12 R290, R300): Z of vx.sel is read before the first chunk. -/
def State.vxBegin (s : State) (m : Cmd) : Cmd :=
  let v := vecOf m.blk
  let k := s.core m.core
  let mask := if v.op = 13 then
      (List.range (v.rows * v.cols)).map (fun i =>
        let raw := k.vxRaw m.core v.z (i / v.cols) (i % v.cols)
        (raw.bits != 0, !raw.bad.isEmpty))
    else []
  { m with active := true, mask := mask, last := if v.op = 21 then 0 else v.shape.1 * v.rowChunks, finished := v.op == 21 }

/-- One chunk: its elements are computed from the sources as they stand, then written (12 R306, R308). -/
def State.vxStep (s : State) (m : Cmd) : State × Cmd :=
  let v := vecOf m.blk
  let k := s.core m.core
  let r := m.first / v.rowChunks
  let j := m.first % v.rowChunks
  let cs := upFrom (128 * j) (min 128 (v.shape.2 - 128 * j))
  let outs := cs.map (fun c => (c, m.vxElem k v r c))
  let bad := outs.flatMap (·.2.bad)
  let s := bad.foldl (fun s g => s.countCore g.1 g.2 8) s
  let m := bad.foldl (fun m g => m.drop g.1 8 [g.2]) m
  let good := outs.filter (fun o => o.2.bad.isEmpty)
  let s := good.foldl (fun s o => s.vxWrite m v r o.1 o.2.code) s
  let fl := outs.foldl (fun f o => if o.2.bad.isEmpty then f ||| o.2.flags else f) m.flags
  (s, { m with flags := fl, first := m.first + 1, wrote := good.map (fun o => (m.core, v.dstAt r o.1, (elemBits v.d.fmt + 7) / 8)), finished := decide (m.last ≤ m.first + 1) })

end Sys2Proof.Machine
end

