-- ==== Sys2Proof/Machine/Fab.lean ====
section
/-! DEFINITION. The fabric unit: remote accesses, messages and remote spawns with their reservations, and the pan operations (13 R317 to
R337). -/

namespace Sys2Proof.Machine

/-! ## Remote load, store and atomic (13 R319 to R325) -/

/-- CheckMode (13 R320). -/
def fabModeOk (k : Nat) (m : Word) : Bool :=
  let order := modeOrder m
  decide (modeFe m < 6) && decide (modeScope m < 5)
    && (match k with
      | 0 => decide (order < 2)
      | 1 => order == 0 || order == 2
      | _ => decide (2 ≤ bitsOf m.toNat 8 2) && decide (bitsOf m.toNat 11 4 ≤ 10))

/-- Sends an access to another device, and the word is held for the reply; a mode that waits shows its strand in WAIT_FE (13 R322, R323;
log 25). -/
def fabSendAccess (cx : Ctx) (s : State) (device space member core addr : Nat) (acc : Access) (ticket : Option Nat) : Trig :=
  let at_ := (if space = 5 then device * 2 ^ 42 else 0) + addr
  let s := s.emit (.remoteRequest (s.request cx.core cx.slot space member core { acc with addr := at_ } ticket))
  if feWaits acc.fe then .hold s (.fePeer device) .waitFe none else .hold s (.remote device) .issued none

/-- A domain-space access to the own device, at its stack controller; a write sets the page's D bit (07 R173, 13 R318, R322). The line of the own cache is written
back and invalidated first, so that the core's accesses to one location stay in order (08 R186). -/
def State.ownDomain (s : State) (cx : Ctx) (sl : Slot) (ea mode : Word) (va : Nat) (acc : Access) (ticket : Option Nat) : Trig :=
  let part := (s.cell cx.core).part
  let s := s.expelLine cx.core part va
  let r := s.deviceAccess (clusterOf cx.core) part ⟨{ acc with addr := va }, .strand cx.core cx.slot⟩ ticket
  match r.2 with
  | .fault code => .fault (faultAt code ea)
  | .page => .hold r.1 (.page va) .waitPage none
  | .held n => r.1.holdWord cx.core cx.slot n
  | .res a =>
    let n := match r.1.walk part va with
      | .leaf e size _ => stackOf (pteFrame e + va % size)
      | .invalid => 0
    let s := match a with
      | .done .. => if accWrites acc then r.1.setDirtyBit part va else r.1
      | _ => r.1
    s.accessEnd cx sl ea mode 5 (.feAt (.stack n)) a

/-- The access of fab.ld, fab.st or fab.amo, after its checks (13 R322). -/
def State.fabPerform (s : State) (cx : Ctx) (sl : Slot) (ea mode : Word) (space l : Nat) (acc : Access) (ticket : Option Nat) : Trig :=
  let cell := s.cell cx.core
  let s := s.releaseBefore cx.core mode space
  match (if space = 3 then s.placePan cell l else s.placeDomain cell.part l) with
  | .error code => .fault (faultAt code ea)
  | .ok (.core d a) =>
    let r := s.coreAccess d ⟨{ acc with addr := a }, .strand cx.core cx.slot⟩ ticket
    r.1.accessEnd cx sl ea mode space (if d = cx.core then .feLocal (a / 8) else .feAt (.core d)) r.2
  | .ok (.device va _) => s.ownDomain cx sl ea mode va acc ticket
  | .ok (.remote d sp mb k a) => fabSendAccess cx s d sp mb k a acc ticket
  | .ok (.plane _) => .fault (faultAt cSegRights ea)

/-- The checks of a remote access in the order of 13 R322, up to its watchpoints: the space and the location. An access that is sent again was sent before any
detach that has come meanwhile (13 R335). -/
def State.fabCheck (s : State) (c : Nat) (sl : Slot) (ea : Word) (n : Nat) (rd wr at_ again : Bool) : Except FaultInfo (Nat × Nat) :=
  let cell := s.cell c
  let g := sl.seg (segNo ea)
  let f := offOf ea
  if !(g.space == 3 || g.space == 5) || !g.allows rd wr at_ || (g.space == 3 && !panValid cell.paninfo) then .error (faultAt cSegRights ea)
  else if g.limit < f + n then .error (faultAt cSegLimit ea)
  else
    match g.locate (panMembers cell.paninfo) f n with
    | none => .error (faultAt cSegLimit ea)
    | some l =>
      if l % n ≠ 0 then .error (faultAt cMisaligned ea)
      else if g.space = 3 && !again && !s.attachedTo cell (l / 2 ^ 28) then .error (faultAt cDeparted ea)
      else
        match s.watchHit cell.part sl.gsi g.space l n rd wr with
        | some w => .error ⟨cBreakpoint, 128 + w, some ea, 0⟩
        | none => .ok (g.space, l)

/-- fab.ld, fab.st and fab.amo (13 R322). An access that is sent again with a ticket has its slot (13 R319). -/
def fabAccess (cx : Ctx) (sl : Slot) (s : State) (ticket : Option Nat) : Trig :=
  let k := opOf cx.m.dst
  let mode := sl.operand 0x5E
  let n := 2 ^ bitsOf mode.toNat 8 2
  let ea := accessEa cx.m.dst cx.m.val sl
  let fe := modeFe mode
  if ticket.isNone && s.mustWait cx.core cx.slot 3 then slotHold cx s 3
  else if !fabModeOk k mode then .fault (bare cIllegalWord)
  else
    match s.fabCheck cx.core sl ea n (k != 1) (k != 0 || feChanges fe) (k == 2) ticket.isSome with
    | .error f => .fault f
    | .ok (space, l) =>
      let d := sl.operand 0x5F
      let acc : Access :=
        match k with
        | 0 => ⟨.load, l, n, fe, 0, 0⟩
        | 1 => ⟨.store, l, n, fe, d.setWidth 128, 0⟩
        | _ => ⟨.amo (bitsOf mode.toNat 11 4), l, n, fe, cx.m.val.setWidth 128, d⟩
      s.fabPerform cx sl ea mode space l acc ticket

/-! ## Messages and remote spawns (13 R326 to R332) -/

/-- Fields of a message block (13 R326). -/
def msgRing (b : Block) : Nat := blkBits b 8 3
def msgPan (b : Block) : Bool := blkBits b 11 1 == 1
def msgDest (b : Block) : Nat := blkBits b 16 9
def msgCluster (b : Block) : Nat := blkBits b 32 3
def msgCore (b : Block) : Nat := blkBits b 40 7

/-- CheckBlock of fab.send (3) and fab.spawn (4) (13 R326, R327). -/
def msgBlockOk (k : Nat) (paninfo : Word) (b : Block) : Bool :=
  blkField b 0 1 == k && (k == 3 || msgRing b == 0) && blkBits b 12 4 == 0 && blkBits b 25 7 == 0 && blkBits b 35 5 == 0
    && blkBits b 47 17 == 0 && blkBits b 128 320 == 0 && decide (msgDest b < 288)
    && (!msgPan b || (panValid paninfo && decide (msgDest b ≤ panMembers paninfo) && msgCluster b == 0)) && decide (msgCore b < 96)

/-- The object a message needs a reservation for. -/
def Cmd.ring (m : Cmd) : Option Nat := if opOf m.op = 3 then some (msgRing m.blk) else none

/-- The core that holds a cell now, by its launch, gang and rank. -/
def State.coreOf (s : State) (o : Nat × Nat × Nat) : Option Nat :=
  (s.cores.find? (fun e => e.2.cell.any (fun k => k.launch == o.1 && k.gang == o.2.1 && cellRank k.cellinfo == o.2.2))).map (·.1)

/-- The launch, gang and rank of the cell of core c. -/
def State.cellId (s : State) (c : Nat) : Nat × Nat × Nat := ((s.cell c).launch, (s.cell c).gang, cellRank (s.cell c).cellinfo)

/-- The core that holds the cell of a command's sender now. -/
def State.liveCore (s : State) (m : Cmd) : Option Nat :=
  if m.seq < courierSeq then some m.core else s.coreOf (m.row0, m.col0, m.parts)

/-- The cell of a command's sender, wherever it is: on its core, or saved. -/
def State.senderCell (s : State) (m : Cmd) : Cell :=
  match s.liveCore m with
  | some c => s.cell c
  | none =>
    match (s.launchAt m.row0).bind (fun la => la.gangs.find? (fun e => e.1 == m.col0)) with
    | some (_, ga) => ((ga.saved.find? (fun e => e.1 == m.parts)).map (fun e => e.2.cellD)).getD Cell.vacant
    | none => Cell.vacant

/-- The device and the package core that a message goes to, as things stand (13 R318, R329, R332). One that is sent again left before any detach that has come
meanwhile (13 R335). -/
def State.msgTarget (s : State) (m : Cmd) : Except Nat (Nat × Nat) :=
  let cell := s.senderCell m
  let b := m.blk
  let reach (d k : Nat) : Except Nat (Nat × Nat) := if s.router.unreachable.contains d then .error cUnreachable else .ok (d, k)
  if msgPan b then
    if m.first = 0 ∧ !s.attachedTo cell (msgDest b) then .error cDeparted
    else
      match s.member (panId cell.paninfo) (msgDest b) with
      | some mb => reach mb.device (mb.cluster * 96 + msgCore b)
      | none => .error cDeparted
  else if msgDest b ≠ s.device.toNat && !(s.part m.part).bind.has (msgDest b) then .error cSegRights
  else reach (msgDest b) (msgCluster b * 96 + msgCore b)

/-- The message of a command (13 R326, R330). -/
def State.msgOf (s : State) (m : Cmd) (core : Nat) : Msg :=
  let cell := s.senderCell m
  let peer := if msgDest m.blk = s.device.toNat then m.part else (s.part m.part).bind.get 0 (msgDest m.blk)
  { srcDev := s.device.toNat, srcCore := m.core, srcSeq := m.seq, srcPart := m.part, srcGsi := m.gsi
    panid := if msgPan m.blk then panId cell.paninfo else peer, pan := msgPan m.blk, dest := msgDest m.blk, core := core, ring := m.ring
    object := m.object, payload := m.smap }

/-- A change of a command of a core's fabric unit. -/
def State.mapFab (s : State) (c seq : Nat) (f : Cmd → Cmd) : State :=
  let k := s.core c
  s.setCore c { k with fab := k.fab.map (fun m => m.seq == seq) f }

/-- The command with a number in a fabric unit. -/
def State.fabCmd (s : State) (c seq : Nat) : Option Cmd := (s.core c).fab.cmds.find? (fun m => m.seq == seq)

/-- The message leaves under a credit of an object (13 R329). -/
def State.inject (s : State) (m : Cmd) (device core : Nat) (object : Nat × Nat × Nat) : State :=
  let m := { m with first := 1, object := object }
  let msg := s.msgOf m core
  let s := s.mapFab m.core m.seq (fun _ => m)
  if device = s.device.toNat then s.push (if m.ring.isSome then .messageArrival msg else .spawnIntakeArrival msg)
  else s.emit (.message msg)

/-- The object whose credits a unit holds under a key, and the cache without one of them; the entry used is the most recent (13 R328). -/
def takeCredit (l : List Credit) (device core : Nat) (ring : Option Nat) : Option ((Nat × Nat × Nat) × List Credit) :=
  match l.find? (fun e => e.device == device && e.core == core && e.ring == ring) with
  | none => none
  | some e =>
    if e.credits = 0 then none
    else some (e.object, { e with credits := e.credits - 1 } :: l.filter (fun x => !(x.device == device && x.core == core && x.ring == ring)))

/-- The RESERVE of a message for an object (13 R328). -/
def State.reserveOf (s : State) (m : Cmd) (device core : Nat) : ReserveReq :=
  let msg := s.msgOf m core
  { creditOf msg device with credits := 8, ticket := (m.entry.head?).map (·.2) }

/-- Sends a RESERVE to its target. -/
def State.askCredits (s : State) (r : ReserveReq) : State :=
  if r.dstDev = s.device.toNat then s.push (.reserveRequest r) else s.emit (.reserve r)

/-- A message that waits for a credit: it fails, leaves under a credit, or its unit asks for credits (13 R328, R329). woken says that the
unit's RESERVE for it is out. -/
def State.fabAdvance (s : State) (c seq : Nat) : State :=
  match s.fabCmd c seq with
  | none => s
  | some m =>
    if m.first ≠ 0 then s
    else if m.fault ≠ 0 then s.pushOnce (.messageAcknowledge c seq m.fault)
    else
      match s.msgTarget m with
      | .error code => s.pushOnce (.messageAcknowledge c seq code)
      | .ok (d, k) =>
        let core := s.core c
        match takeCredit core.credits d k m.ring with
        | some l => (s.setCore c { core with credits := l.2 }).inject m d k l.1
        | none =>
          let asked := core.fab.cmds.any (fun x => x.woken && x.first == 0 && (match s.msgTarget x with
            | .ok (d', k') => d' == d && k' == k && x.ring == m.ring
            | .error _ => false))
          if asked then s else (s.mapFab c seq (fun m => { m with woken := true })).askCredits (s.reserveOf m d k)

/-- fab.send and fab.spawn (13 R326, R327, R329). -/
def fabMessage (cx : Ctx) (sl : Slot) (s : State) : Trig :=
  let c := cx.core
  let k := opOf cx.m.dst
  let o := sl.operand 0x5E
  let cell := s.cell c
  if s.mustWait c cx.slot 3 then slotHold cx s 3
  else
    match s.blockAt c sl cx.m.val o with
    | .error f => .fault f
    | .ok (l, b) =>
      if !msgBlockOk k cell.paninfo b then .fault (faultAt cCmdInvalid cx.m.val)
      else
        let pa := blkWord b 8
        let g := sl.seg (segNo pa)
        if g.space ≠ 1 || !g.rd then .fault (faultAt cSegRights pa)
        else if g.limit < offOf pa + 64 || (g.locate 0 (offOf pa) 64).isNone then .fault (faultAt cSegLimit pa)
        else
          let a := g.base + offOf pa
          let core := s.core c
          let lost := core.store.lost 8 a 64
          let payload := core.store.block a
          if a % 64 ≠ 0 then .fault (faultAt cMisaligned pa)
          else if !lost && k = 4 && blkBits payload 64 2 = 0 then .fault (faultAt cCmdInvalid cx.m.val)
          else
            let s := if lost then s.countCore c a 64 else s
            let core := s.core c
            let m := { Cmd.fresh cx sl cell.part core.fab.seq.toNat l b o with
              smap := payload, fault := if lost then cDataLost else 0, row0 := cell.launch, col0 := cell.gang, parts := cellRank cell.cellinfo }
            let s := (s.setCore c { core with fab := core.fab.accept m }).noteActivity cell.launch
            let s := s.setSlot c cx.slot (sl.setRes rFab (core.fab.seq.setWidth 64))
            .done ((s.release c 4).fabAdvance c m.seq)

/-- FREE of an object: its capacity less its entries and its credits granted (13 R328). The entries of a ring whose counters its cell's restore has not written yet are
those that it was saved with. -/
def Core.freeFor (k : Core) : Option Nat → Nat
  | some r => let g := k.ring r; g.size - max (g.tail - g.head).toNat g.senders.length - g.granted
  | none => (if k.cellD.spawn then 64 else 0) - k.intake.length - k.intakeGranted

/-- The cell is of a launch that qualifies for a message (13 R318, R329). -/
def State.qualifies (s : State) (cell : Cell) (srcDev srcPart panid dest : Nat) (pan : Bool) : Bool :=
  !cell.ended
    && (if pan then panValid cell.paninfo && panId cell.paninfo == panid && panMember cell.paninfo == dest
        else cell.part == panid
          && (if srcDev = s.device.toNat then cell.part == srcPart else (s.part cell.part).bind.has srcDev && (s.part cell.part).bind.get 0 srcDev == srcPart))

/-- A core, or a saved one, holds the object of a message (13 R329). -/
def State.objectIn (s : State) (k : Core) (srcDev srcPart panid dest : Nat) (pan : Bool) (ring : Option Nat) : Bool :=
  match k.cell with
  | none => false
  | some cell =>
    s.qualifies cell srcDev srcPart panid dest pan
      && (match ring with
        | some r => (k.ring r).size != 0
        | none => cell.spawn)

/-- The object of a message exists at core c for it (13 R329). -/
def State.objectFor (s : State) (c srcDev srcPart panid dest : Nat) (pan : Bool) (ring : Option Nat) : Bool :=
  s.objectIn (s.core c) srcDev srcPart panid dest pan ring

/-- The object of a message lay at core c, in a cell that is saved now (13 R332, 14 R371). -/
def State.objectSaved (s : State) (c srcDev srcPart panid dest : Nat) (pan : Bool) (ring : Option Nat) : Bool :=
  s.launches.any (fun e => e.2.gangs.any (fun g => g.2.saved.any (fun x =>
    savedAt x.2 == c && s.objectIn x.2 srcDev srcPart panid dest pan ring)))

/-- The core of a message's target as it lies now: a panorama member may have been restored elsewhere (13 R332). -/
def State.targetCore (s : State) (pan : Bool) (panid dest core : Nat) : Nat :=
  if !pan then core
  else
    match s.member panid dest with
    | some mb => mb.cluster * 96 + core % 96
    | none => core

/-- A panorama is saved, so that accesses and messages of it are turned back to be tried again (14 R376). -/
def State.frozenPan (s : State) (p : Nat) : Bool := (s.panAt p).elim false (·.frozen)

/-- What lies at a message's target: its object, the saved cell that the object belongs to, or nothing for it (13 R329, R332). -/
inductive Reach where
  | here
  | saved
  | nowhere
  deriving DecidableEq, Repr

def State.reachOf (s : State) (c srcDev srcPart panid dest : Nat) (pan : Bool) (ring : Option Nat) : Reach :=
  if pan && s.frozenPan panid then .saved
  else if s.objectFor c srcDev srcPart panid dest pan ring then .here
  else if s.objectSaved c srcDev srcPart panid dest pan ring then .saved
  else .nowhere

/-- The acknowledgement of a message goes back to its sender; 256 is a refusal that is retried (13 R329, R332). -/
def State.ackTo (s : State) (device core seq fault : Nat) : State :=
  if device = s.device.toNat then s.push (.messageAcknowledge core seq fault) else s.emit (.ack device core seq fault)

/-- An answer to a unit's RESERVE. -/
def State.answerUnit (s : State) (r : ReserveReq) : State :=
  if r.srcDev = s.device.toNat then s.push (.creditReturn r) else s.emit (.grant r)

/-- The tickets of an object: next and outstanding. -/
def Core.tickets (k : Core) : Option Nat → Nat × List Nat
  | some r => ((k.ring r).nextTicket, (k.ring r).outstanding)
  | none => (k.intakeTicket, k.intakeOutstanding)

def Core.setTickets (k : Core) (ring : Option Nat) (n : Nat) (l : List Nat) : Core :=
  match ring with
  | some r => k.setRing r { k.ring r with nextTicket := n, outstanding := l }
  | none => { k with intakeTicket := n, intakeOutstanding := l }

/-- Credits of an object are granted. -/
def Core.grantCredits (k : Core) (ring : Option Nat) (n : Nat) : Core :=
  match ring with
  | some r => k.setRing r { k.ring r with granted := (k.ring r).granted + n }
  | none => { k with intakeGranted := k.intakeGranted + n }

/-- Credits of an object come back to its FREE. -/
def Core.freeCredits (k : Core) (ring : Option Nat) (n : Nat) : Core :=
  match ring with
  | some r => k.setRing r { k.ring r with granted := (k.ring r).granted - n }
  | none => { k with intakeGranted := k.intakeGranted - n }

/-- A RESERVE at its target (13 R328): refused where the object does not exist for it, turned back without a ticket where its cell is saved (13 R332), granted, or
answered with a ticket. -/
def State.reserve (s : State) (r : ReserveReq) : State :=
  let r := { r with core := s.targetCore r.pan r.panid r.dest r.core }
  let c := r.core
  match s.reachOf c r.srcDev r.srcPart r.panid r.dest r.pan r.ring with
  | .nowhere => s.ackTo r.srcDev r.srcCore r.srcSeq cSegRights
  | .saved => s.answerUnit { r with credits := 0, ticket := none }
  | .here =>
    let k := s.core c
    let free := k.freeFor r.ring
    let t := k.tickets r.ring
    let mine := match r.ticket with
      | some x => t.2.head? == some x
      | none => t.2.isEmpty
    if free ≠ 0 && (mine || t.2.isEmpty) then
      let n := min 8 free
      let k := (k.grantCredits r.ring n).setTickets r.ring t.1 (t.2.filter (fun x => some x != r.ticket))
      (s.setCore c k).answerUnit { r with object := s.cellId c, credits := n, ticket := none }
    else
      match r.ticket with
      | some x =>
        if t.2.contains x then s.answerUnit { r with credits := 0 }
        else (s.setCore c (k.setTickets r.ring (t.1 + 1) (t.2 ++ [t.1]))).answerUnit { r with credits := 0, ticket := some t.1 }
      | none => (s.setCore c (k.setTickets r.ring (t.1 + 1) (t.2 ++ [t.1]))).answerUnit { r with credits := 0, ticket := some t.1 }

/-- Credits of an object that a unit gives up go to the target's FREE (13 R328). -/
def State.giveUp (s : State) (r : ReserveReq) : State :=
  let r := { r with ticket := some 0 }
  if r.dstDev = s.device.toNat then s.push (.creditReturn r) else s.emit (.credit r)

/-- The credits of an entry that leaves the cache of core c go to the target, as a message of no command (13 R328). -/
def State.giveEntry (s : State) (c : Nat) (e : Credit) : State :=
  if e.credits = 0 then s
  else s.giveUp { srcDev := s.device.toNat, srcCore := c, srcSeq := 0, srcPart := (s.cell c).part, panid := 0, pan := false, dest := 0
                  dstDev := e.device, core := e.core, ring := e.ring, object := e.object, credits := e.credits, ticket := none }

/-- An entry of a reservation cache for the key of r. -/
def Credit.keyOf (r : ReserveReq) (e : Credit) : Bool := e.device == r.dstDev && e.core == r.core && e.ring == r.ring

/-- Adds credits to a unit's cache of 32 entries of at most 8 credits. What goes beyond, an entry that is replaced, and credits under the key that are of a cell which
lay there before are given up (13 R328). An entry keeps its number while it lasts. -/
def State.addCredits (s : State) (c : Nat) (r : ReserveReq) : State :=
  let k := s.core c
  let old := k.credits.find? (Credit.keyOf r)
  let rest := k.credits.filter (fun e => !Credit.keyOf r e)
  let mine := (old.filter (fun e => e.object == r.object)).elim 0 (·.credits)
  let gone := rest.drop 31 ++ (old.filter (fun e => e.object != r.object)).toList
  let number := match old, rest.drop 31 with
    | some e, _ => e.entry
    | none, e :: _ => e.entry
    | none, [] => ((List.range 32).find? (fun n => rest.all (fun e => e.entry != n))).getD 0
  let new : Credit := { entry := number, device := r.dstDev, core := r.core, ring := r.ring, object := r.object, credits := min 8 (mine + r.credits) }
  let s := s.setCore c { k with credits := new :: rest.take 31 }
  let s := if 8 < mine + r.credits then s.giveUp { r with credits := mine + r.credits - 8 } else s
  gone.foldl (fun s e => s.giveEntry c e) s

/-- The commands of a unit that wait for an object go on (13 R328, R329). -/
def State.fabResume (s : State) (c : Nat) : State :=
  ((s.core c).fab.cmds.filter (fun m => m.first == 0)).foldl (fun s m => s.fabAdvance c m.seq) s

/-- Released credits go to the FREE of their object: the cell where it lies now, or where it is saved (13 R328, R332). One held for a ticket waits for it. -/
def State.freeObject (s : State) (r : ReserveReq) : State :=
  match s.coreOf r.object with
  | some c =>
    let s := s.setCore c ((s.core c).freeCredits r.ring r.credits)
    if ((s.core c).tickets r.ring).2.isEmpty then s
    else s.pushOnce (.ticketHoldExpiry (match r.ring with | some x => .ring c x | none => .intake c))
  | none => s.mapGang r.object.1 r.object.2.1 (fun ga => { ga with
      saved := ga.saved.map (fun e => if e.1 = r.object.2.2 then (e.1, e.2.freeCredits r.ring r.credits) else e) })

/-- What a CREDIT_RETURN does (13 R328): credits released at the target, a ticket for the unit, or credits for the unit. A credit that comes
back to a unit whose cache no longer has the entry is released to the target's FREE; a grant makes the entry, and tells where a panorama member is now
(13 R332). -/
def State.creditBack (s : State) (r : ReserveReq) : State :=
  match r.ticket with
  | some t =>
    if r.credits ≠ 0 then s.freeObject r
    else
      (s.mapFab r.srcCore r.srcSeq (fun m => { m with entry := [(0, t)] })).pushOnce (.reserveResend r.srcCore r.srcSeq)
  | none =>
    let c := r.srcCore
    let k := s.core c
    let waits := k.fab.cmds.any (fun m => m.seq == r.srcSeq && m.woken && m.first == 0)
    let has := k.credits.any (fun e => Credit.keyOf r e && e.object == r.object)
    let s := if r.pan && waits then s.mapMember r.panid r.dest (fun mb => { mb with cluster := clusterOf r.core }) else s
    if r.credits = 0 then (if waits then s.pushOnce (.reserveResend c r.srcSeq) else s)
    else if !waits && !has then s.giveUp r
    else
      let s := (s.mapFab c r.srcSeq (fun m => { m with woken := false, entry := [] })).addCredits c r
      let s := s.fabResume c
      ((s.core c).credits.filter (fun e => e.credits != 0)).foldl (fun s e => s.pushOnce (.creditIdleRelease c e.entry)) s

/-! ## The pan operations (13 R334 to R337) -/

/-- The members that a pan operand names, without the own one (13 R335). -/
def panNamed (cell : Cell) (t : Word) : List Nat :=
  let own := panMember cell.paninfo
  if t.getLsbD 63 then (List.range (panMembers cell.paninfo + 1)).filter (fun m => m != own)
  else (if t.toNat % 512 = own then [] else [t.toNat % 512])

/-- The faults of a pan operation (13 R335). -/
def State.panFault (s : State) (cell : Cell) (t : Word) (k : Nat) : Option FaultInfo :=
  let named := if k = 8 then [t.toNat % 512] else panNamed cell t
  let far (m : Nat) : Bool := match s.member (panId cell.paninfo) m with
    | some mb => s.router.unreachable.contains mb.device
    | none => false
  if !panValid cell.paninfo then some (bare cSegRights)
  else if k ≠ 7 && (k == 8 || !t.getLsbD 63) && decide (panMembers cell.paninfo < t.toNat % 512) then some (bare cSegLimit)
  else if k ≠ 7 && named.any far then some (bare cUnreachable)
  else none

/-- A hold of the own gang on a member begins at the source; nothing changes where it holds it already (13 R335). -/
def State.holdMember (s : State) (p own m : Nat) : State :=
  s.mapPan p (fun q => if q.attached.contains (own, m) then q else { q with attached := q.attached ++ [(own, m)] })

/-- A member of this device answers an attach: none while it is PENDING, else whether it accepts (13 R335). -/
def State.attachLocal (s : State) (p m holder : Nat) (already : Bool) : State × Option Bool :=
  match s.member p m with
  | none => (s, some false)
  | some mb =>
    if mb.state = 0 then (s, none)
    else if mb.state = 1 then ((if already then s else s.mapMember p m (fun x => { x with holders := x.holders ++ [holder] })), some true)
    else (s, some false)

/-- One member's answer to an attach as a record: 0 accepted, 1 refused. -/
def State.attachOne (s : State) (cell : Cell) (ans : Table Nat) (m : Nat) : State × Table Nat :=
  if ans.has m then (s, ans)
  else
    let p := panId cell.paninfo
    let own := panMember cell.paninfo
    match s.member p m with
    | none => (s, ans.set m 1)
    | some mb =>
      if mb.device ≠ s.device.toNat then (s, ans)
      else
        let already := match s.panAt p with
          | some q => q.attached.contains (own, m)
          | none => false
        let r := s.attachLocal p m own already
        match r.2 with
        | none => (r.1, ans)
        | some true => (r.1.holdMember p own m, ans.set m 0)
        | some false => (r.1, ans.set m 1)

/-- The members that have not answered. -/
def unanswered (named : List Nat) (ans : Table Nat) : List Nat := named.filter (fun m => !ans.has m)

/-- The attaches of a gang to members elsewhere are sent, but for those whose answer is still to come (13 R335). -/
def State.askMembers (s : State) (c : Nat) (ms : List Nat) : State :=
  let cell := s.cell c
  let p := panId cell.paninfo
  let own := panMember cell.paninfo
  ms.foldl (fun s m =>
    if (s.panAt p).any (fun q => q.asking.contains (own, m)) then s
    else
      let again := if s.attachedTo cell m then 1 else 0
      (s.mapPan p (fun q => { q with asking := q.asking ++ [(own, m)] })).emit
        (.remoteRequest (s.request c (attachId p own m) 0 m 0 ⟨.load, 0, 8, again, 0, 0⟩ none))) s

/-- pan.attach: the members of this device answer at once or when they leave PENDING, the others are asked (13 R335). -/
def attachOp (cx : Ctx) (sl : Slot) (s : State) : Trig :=
  let cell := s.cell cx.core
  let p := panId cell.paninfo
  let named := panNamed cell cx.m.val
  let r := named.foldl (fun (a : State × Table Nat) m => a.1.attachOne cell a.2 m) (s, [])
  let rest := unanswered named r.2
  if rest.isEmpty then .done (r.1.setSlot cx.core cx.slot (sl.setRes rFab (BitVec.ofNat 64 (r.2.filter (fun e => e.2 != 0)).length)))
  else
    let far := rest.filter (fun m => match s.member p m with
      | some mb => mb.device != s.device.toNat
      | none => false)
    .hold (r.1.askMembers cx.core far) .panWait .issued none

/-- The removal of a hold is due: it goes to its member once the requests sent before it have been answered (13 R335). -/
def State.sendRemoval (s : State) (p m holder : Nat) : State := s.push (.detachRemoval p m holder)

/-- A gang gives up its hold on a member (13 R335, R337). -/
def State.letGo (s : State) (p own m : Nat) : State :=
  match s.panAt p with
  | some q =>
    if q.attached.contains (own, m) then
      (s.mapPan p (fun q => { q with attached := q.attached.filter (fun x => x != (own, m)) })).sendRemoval p m own
    else s
  | none => s

/-- The number of holders of a member; a gang counts once (13 R334). -/
def Member.holderCount (mb : Member) : Nat := (mb.holders.foldl (fun l h => insertNat h l) []).length

/-- The record of pan.state, for a gang (13 R336). -/
def panRecord (mb : Member) (own m : Nat) : Word :=
  BitVec.ofNat 64 (mb.state + (if mb.holders.contains own || own == m then 4 else 0) + mb.holderCount * 2 ^ 8)

/-- The pan operations (13 R335, R336). -/
def panOp (cx : Ctx) (sl : Slot) (s : State) : Trig :=
  let cell := s.cell cx.core
  let k := opOf cx.m.dst
  let t := cx.m.val
  let p := panId cell.paninfo
  let own := panMember cell.paninfo
  let ret (s : State) (v : Word) : Trig := .done (s.setSlot cx.core cx.slot (sl.setRes rFab v))
  match s.panFault cell t k with
  | some f => .fault f
  | none =>
    match k with
    | 5 => attachOp cx sl s
    | 6 =>
      let named := panNamed cell t
      let miss := named.filter (fun m => match s.panAt p with
        | some q => !q.attached.contains (own, m)
        | none => true)
      ret (named.foldl (fun s m => s.letGo p own m) s) (BitVec.ofNat 64 miss.length)
    | 7 =>
      let s := (s.mapMember p own (fun m => if m.state ≤ 1 then { m with state := 2 } else m)).push (.memberDeparture p own)
      ret s (BitVec.ofNat 64 ((s.member p own).elim 0 (·.holderCount)))
    | _ =>
      let m := t.toNat % 512
      match s.member p m with
      | none => ret s 3
      | some mb =>
        if mb.device = s.device.toNat then ret s (panRecord mb own m)
        else .hold (s.emit (.remoteRequest (s.request cx.core cx.slot 2 m 0 ⟨.load, 0, 8, 0, 0, 0⟩ none))) .panReply .issued none

/-- The fab and pan operations (13 R322, R326, R335). -/
def fabOp (cx : Ctx) (sl : Slot) (s : State) (ticket : Option Nat) : Trig :=
  let k := opOf cx.m.dst
  if k ≤ 2 then fabAccess cx sl s ticket else if k ≤ 4 then fabMessage cx sl s else panOp cx sl s

end Sys2Proof.Machine
end

