-- ==== Sys2Proof/Machine/Col.lean ====
section
/-! DEFINITION. The collective engine of a die: acceptance, buckets and their sums (13 R338 to R346). -/

namespace Sys2Proof.Machine

/-- Fields of a collective block (13 R339). -/
structure Coll where
  op : Nat
  dim : Nat
  gate : Bool
  bpost : Bool
  fmt : Nat
  root : Nat
  tag : Nat
  src : Word
  dst : Word
  count : Nat
  bucket : Nat
  gsem : Nat
  bsem : Nat
  gstep : Nat

def collOf (b : Block) : Coll :=
  { op := blkField b 0 1, dim := blkBits b 8 2, gate := b.getLsbD 10, bpost := b.getLsbD 11, fmt := blkBits b 12 4
    root := blkBits b 16 3, tag := blkField b 4 4, src := blkWord b 8, dst := blkWord b 16, count := blkBits b 192 40
    bucket := blkField b 32 4, gsem := blkBits b 288 10, bsem := blkBits b 304 10, gstep := blkField b 40 4 }

/-- The ring length of a dimension (13 R311). -/
def ringLen (dim : Nat) : Nat := if dim = 2 then 8 else 6

/-- This device's position along a dimension (13 R311, R340). -/
def ringPos (device dim : Nat) : Nat :=
  match dim with
  | 0 => device % 6
  | 1 => device / 6 % 6
  | _ => device / 36

/-- CheckBlock of a ring operation (13 R339). The ranges are compared as locations in device space. -/
def collBlockOk (k : Nat) (sl : Slot) (b : Block) : Bool :=
  let v := collOf b
  let l := ringLen v.dim
  let bytes := v.count * (elemBits v.fmt / 8)
  let at_ (w : Word) : Nat := (sl.seg (segNo w)).base + offOf w
  v.op == k && v.dim != 3 && [0, 3, 4, 0xC].contains v.fmt && decide (v.root < l) && (k == 3 || v.root == 0)
    && blkBits b 19 13 == 0 && blkBits b 232 24 == 0 && blkBits b 298 6 == 0 && blkBits b 314 6 == 0 && blkBits b 352 96 == 0
    && (v.gate || (v.gsem == 0 && v.gstep == 0)) && (v.bpost || v.bsem == 0)
    && v.count != 0 && decide (bytes ≤ 2 ^ 40) && v.bucket != 0 && v.count % v.bucket == 0
    && v.bucket % (if k = 3 then 16 else 16 * l) == 0 && !(v.gate && v.gstep == 0)
    && (at_ v.src == at_ v.dst || decide (at_ v.src + bytes ≤ at_ v.dst) || decide (at_ v.dst + bytes ≤ at_ v.src))

/-- CheckBlock of col.weights (13 R345). -/
def weightsOk (b : Block) : Bool := blkField b 0 1 == 4 && blkBits b 20 428 == 0

/-- CheckRanges of a ring operation, and its semaphores (13 R339). -/
def State.collRanges (s : State) (c : Nat) (sl : Slot) (b : Block) : Option FaultInfo :=
  let v := collOf b
  let bytes := v.count * (elemBits v.fmt / 8)
  let sems := (s.cell c).sems
  let rights (w : Word) (wr : Bool) : Option FaultInfo :=
    let g := sl.seg (segNo w)
    if g.space ≠ 4 || !g.allows (!wr) wr false then some (faultAt cSegRights w) else none
  let limit (w : Word) : Option FaultInfo :=
    if (sl.seg (segNo w)).holds [4] 0 (offOf w) (offOf w + bytes : Nat) then none else some (faultAt cSegLimit w)
  let align (w : Word) : Option FaultInfo := if offOf w % 64 ≠ 0 then some (faultAt cMisaligned w) else none
  firstFault [rights v.src false, rights v.dst true, limit v.src, limit v.dst, align v.src, align v.dst,
    if v.gate && decide (sems ≤ v.gsem) then some (bare cSemRange) else none,
    if v.bpost && decide (sems ≤ v.bsem) then some (bare cSemRange) else none]

/-- A change of a command of a die's collective engine. -/
def State.mapCol (s : State) (d seq : Nat) (f : Cmd → Cmd) : State :=
  let k := s.die d
  s.setDie d { k with col := k.col.map (fun m => m.seq == seq) f }

/-- The command with a number in a die's collective engine. -/
def State.colCmd (s : State) (d seq : Nat) : Option Cmd := (s.die d).col.cmds.find? (fun m => m.seq == seq)

/-! ## Matching (13 R338, R340) -/

/-- The coordinates of a device (13 R311). -/
def coords (n : Nat) : List Nat := [n % 6, n / 6 % 6, n / 36]

/-- The device lies on the line of own along a dimension, at another position (13 R340). -/
def onRing (own device dim : Nat) : Bool :=
  let far := (List.range 3).filter (fun k => (coords own).getD k 0 != (coords device).getD k 0)
  far == [dim]

/-- The other devices of a ring. -/
def ringOthers (own dim : Nat) : List Nat := (List.range Config.domainDevices).filter (fun n => onRing own n dim)

/-- A waiting command of another position that carries a command's TAG and DIM. -/
def Cmd.fits (m : Cmd) (a : ColAsk) : Bool := a.tag == (collOf m.blk).tag && a.dim == (collOf m.blk).dim

/-- The earliest waiting commands of the other positions that fit a command, one for each position that has one (13 R340). -/
def State.colFits (s : State) (d : Nat) (m : Cmd) : List ColAsk :=
  (ringOthers s.device.toNat (collOf m.blk).dim).filterMap (fun n => (s.die d).asks.find? (fun a => a.device == n && m.fits a))

/-- A matched command's abandonment: CMD_INVALID where the commands differ, SEG_RIGHTS where a pair is not bound; 0 for none (13 R318, R340). -/
def State.colVerdict (s : State) (m : Cmd) (l : List ColAsk) : Nat :=
  let v := collOf m.blk
  let b := (s.part m.part).bind
  minFault (if l.any (fun a => a.op != v.op || a.fmt != v.fmt || a.root != v.root || a.count != v.count || a.bucket != v.bucket) then cCmdInvalid else 0)
    (if l.any (fun a => !(b.has a.device && b.get 0 a.device == a.part)) then cSegRights else 0)

/-- The waiting commands that a match used, or that end with an abandoned one, are no longer waited for. -/
def State.colUse (s : State) (d : Nat) (l : List ColAsk) : State := s.setDie d { s.die d with asks := (s.die d).asks.filter (fun a => !l.contains a) }

/-- A command is abandoned at this position, and the abort goes round the ring (13 R344). -/
def State.colAbandon (s : State) (d : Nat) (m : Cmd) (fault : Nat) (tell : Bool) : State :=
  let s := if m.matched then s else s.colUse d (s.colFits d m)
  let s := s.mapCol d m.seq (fun m => { m with fault := minFault m.fault fault, finished := true })
  let s := if tell then s.emit (.colAbort d m.seq fault) else s
  s.pushOnce (.colCompletion d m.seq)

/-- The matched command that starts next, while an active place is free (13 R338). -/
def State.colStart (s : State) (d : Nat) : State :=
  let e := (s.die d).col
  if 8 ≤ (e.cmds.filter (fun m => m.active && !m.finished)).length then s
  else
    match e.cmds.find? (fun m => m.matched && !m.active && !m.finished) with
    | some m => (s.mapCol d m.seq (fun m => { m with active := true })).pushOnce (.colBucket d m.seq [])
    | none => s

/-- One command is matched where every other position has a waiting one that fits (13 R340). -/
def State.colMatchOne (s : State) (d : Nat) (m : Cmd) : State :=
  let l := s.colFits d m
  if l.length < (ringOthers s.device.toNat (collOf m.blk).dim).length then s
  else
    let v := s.colVerdict m l
    if v = 0 then ((s.colUse d l).mapCol d m.seq (fun m => { m with matched := true })).colStart d else s.colAbandon d m v true

/-- The unmatched commands of an engine are matched in the order of their acceptance. -/
def State.colMatchAll (s : State) (d : Nat) : State :=
  ((s.die d).col.cmds.filter (fun m => !m.matched && !m.finished)).foldl (fun s m => s.colMatchOne d m) s

/-- A command has been accepted: the other positions are told; it is abandoned at once where one of them holds no device that can be reached (13 R340). -/
def State.colEnter (s : State) (d : Nat) (m : Cmd) : State :=
  let v := collOf m.blk
  let s := s.emit (.colAsk d { device := s.device.toNat, seq := m.seq, part := m.part, tag := v.tag, dim := v.dim, op := v.op, fmt := v.fmt, root := v.root
                               count := v.count, bucket := v.bucket })
  if (ringOthers s.device.toNat v.dim).any (fun n => s.router.unreachable.contains n) then s.colAbandon d m cUnreachable true
  else s.colMatchAll d

/-- The collective operations (13 R338, R339, R345). The trigger writes back every dirty line first (08 R191). -/
def colOp (cx : Ctx) (sl : Slot) (s : State) : Trig :=
  let c := cx.core
  let d := dieOf c
  let k := opOf cx.m.dst
  let o := sl.operand 0x60
  let cell := s.cell c
  if s.mustWait c cx.slot 4 then slotHold cx s 4
  else
    let s := s.cleanLines c (fun _ => true)
    match s.blockAt c sl cx.m.val o with
    | .error f => .fault f
    | .ok (l, b) =>
      if !(if k = 4 then weightsOk b else collBlockOk k sl b) then .fault (faultAt cCmdInvalid cx.m.val)
      else
        match (if k = 4 then none else s.collRanges c sl b) with
        | some f => .fault f
        | none =>
          let e := (s.die d).col
          let allowed := (s.part cell.part).weights
          let m := { Cmd.fresh cx sl cell.part e.seq.toNat l b o with
            last := if k = 4 then 0 else (collOf b).count / (collOf b).bucket, finished := k == 4
            fault := if k = 4 && !allowed then cSegRights else 0 }
          let s := s.setDie d { s.die d with col := e.accept m }
          let s := if k = 4 && allowed then
              s.setDie d { s.die d with cpyw := BitVec.ofNat 4 (blkBits b 8 4), colw := BitVec.ofNat 4 (blkBits b 12 4), strw := BitVec.ofNat 4 (blkBits b 16 4) }
            else s
          let s := s.noteActivity cell.launch
          let s := if k = 4 then s.push (.colCompletion d m.seq) else s.colEnter d m
          .done (s.setSlot c cx.slot (sl.setRes rCol (e.seq.setWidth 64)))

/-! ## Buckets (13 R341, R342, R344) -/

/-- The place of element i of a buffer; collective accesses go past the line cache (08 R191). -/
def Cmd.colPlace (m : Cmd) (w : Word) (i : Nat) : Place :=
  .device ((m.seg (segNo w)).base + offOf w + i * (elemBits (collOf m.blk).fmt / 8)) false

/-- The gate of bucket b is open (13 R342). -/
def State.gateOpen (s : State) (m : Cmd) (b : Nat) : Bool :=
  let v := collOf m.blk
  !v.gate || decide ((b + 1) * v.gstep ≤ ((s.core m.core).sem v.gsem).count.toNat)

/-- What the read of a bucket comes to: its codes and its lost elements, a page to wait for, or a fault. -/
inductive BucketRes where
  | ok (elems : List Nat) (lost : List Nat)
  | page (va : Nat)
  | held
  | fail (code : Nat)

/-- Reads the elements of SRC listed. -/
def State.bucketRead (s : State) (m : Cmd) (n : Nat) : List Nat → State × BucketRes
  | [] => (s, .ok [] [])
  | i :: r =>
    let g := s.get m.core (m.colPlace (collOf m.blk).src i) n
    match g.2 with
    | .val v lost =>
      let x := g.1.bucketRead m n r
      match x.2 with
      | .ok vs ls => (x.1, .ok (v :: vs) (if lost = 0 then ls else i :: ls))
      | y => (x.1, y)
    | .page va => (g.1, .page va)
    | .held _ => (g.1, .held)
    | .fail code => (g.1, .fail code)
    | .far .. => (g.1, .fail cSegRights)

/-- The value of an element of F32, BF16 or F16 (13 R341). -/
def colVal (fmt code : Nat) : FVal := (codeValue fmt code).1

/-- The sum of one element over the positions, with its flags (13 R341). -/
def colSum (fmt : Nat) (codes : List Nat) : Nat × FFlags :=
  if fmt = 0xC then (codes.foldl (fun a c => (a + c) % 2 ^ 32) 0, 0)
  else
    let x := (codes.drop 1).foldl (fun (acc : FVal × FFlags) c => let t := combSum acc.1 (colVal fmt c); (t.1, acc.2 ||| t.2))
      (colVal fmt (codes.headD 0), 0)
    let y := roundCode fmt 0 false 0 x.1
    (y.code, x.2 ||| y.flags)

/-- The code of element j of a bucket at a position, and whether it is lost there. -/
def peerCode (peers : List Peer) (q j : Nat) : Nat × Bool :=
  match peers.find? (fun p => p.pos == q) with
  | some p => (p.elems.getD j 0, p.lost.contains j)
  | none => (0, true)

/-- What DST element j of a bucket receives at position p: the code, its flags, whether anything it depends on is lost; none where nothing
is written (13 R341). -/
def colElem (v : Coll) (peers : List Peer) (p j : Nat) : Option (Nat × FFlags × Bool) :=
  let l := ringLen v.dim
  let owner := j / (v.bucket / l)
  let all := (List.range l).map (fun q => peerCode peers q j)
  let sum : Nat × FFlags × Bool := let t := colSum v.fmt (all.map (·.1)); (t.1, t.2, all.any (·.2))
  let copy (q : Nat) : Nat × FFlags × Bool := let t := peerCode peers q j; (t.1, 0, t.2)
  match v.op with
  | 0 => if owner = p then some sum else none
  | 1 => some (copy owner)
  | 2 => some sum
  | _ => some (copy v.root)

/-- A write to DST: at the stack, in the matching words of the issuing core's lines, with the D bit (07 R173, 13 R343). -/
def State.colPut (s : State) (m : Cmd) (va n v : Nat) : State :=
  let part := (s.cell m.core).part
  let s := (s.deviceAccess (clusterOf m.core) part ⟨⟨.store, va, n, 0, BitVec.ofNat 128 v, 0⟩, .strand m.core 0⟩ none).1
  (s.setCore m.core ((s.core m.core).patchLines part va n v)).setDirtyBit part va

/-- The page of a DST element: resident and writable, absent, or in fault. -/
def State.colPage (s : State) (m : Cmd) (va : Nat) : State × Xlat := s.translate (clusterOf m.core) (s.cell m.core).part va false true

end Sys2Proof.Machine
end

