-- ==== Sys2Proof/Machine/Strand.lean ====
section
/-! DEFINITION. The strand and msg units (06 R126 to R149). -/

namespace Sys2Proof.Machine

/-- The word commits with the slot sl. -/
def Ctx.commit (cx : Ctx) (s : State) (sl : Slot) : State := s.setSlot cx.core cx.slot sl

/-- The word commits with value v at a result port. -/
def Ctx.result (cx : Ctx) (s : State) (port : Nat) (v : Word) : Trig :=
  .done (s.setSlot cx.core cx.slot ((s.slot cx.core cx.slot).setRes port v))

/-- The word commits; the operation has ended at once with a result, or it parks (02 R56). -/
def Ctx.parkOr (cx : Ctx) (port : Nat) (r : State × WaitRes) : Trig :=
  match r.2 with
  | .now v => cx.result r.1 port v
  | .park p => .done (r.1.setSlot cx.core cx.slot { r.1.slot cx.core cx.slot with park := some p })

/-- A trigger value outside 0 to 2^40 − 1, read as signed (05 R99, 06 R127). -/
def outOfCode (t : Word) : Bool := decide (2 ^ 40 ≤ t.toNat)

/-- The handle of a slot's instance (06 R117). -/
def handleOf (i : Nat) (serial : BitVec 24) : Word := BitVec.ofNat 64 (i + serial.toNat * 256)

/-- strand.spawn (06 R127, R128). -/
def strandSpawnOp (cx : Ctx) (sl : Slot) (s : State) : Trig :=
  let t := cx.m.val
  let p := sl.operand 0x49
  if p.toNat % 4 = 0 then .fault (bare cPrivilege)
  else if outOfCode t then .fault (faultAt cSegLimit t)
  else if t.toNat % 8 ≠ 0 then .fault (faultAt cMisaligned t)
  else
    let s := cx.commit s sl
    match (s.core cx.core).freeSlot with
    | none => cx.result s rStrand ones
    | some k =>
      let b : Birth := { pc := t, x := Table.set (Table.set [] 1 (sl.operand 0x48)) 2 (handleOf cx.slot sl.serial), segL := sl.segL,
                         segH := sl.segH, fmode := sl.fmode, base := p.setWidth 2 }
      let s := s.create cx.core k b
      cx.result s rStrand (handleOf k (s.slot cx.core k).serial)

/-- The launch of a handler that ended otherwise than by sys.trap ends, as for DISP 3 (14 R356, R357). -/
def State.escalate (s : State) (c : Nat) : State :=
  match (s.core c).handling with
  | none => s
  | some r =>
    let code := if blkField r 0 1 = 0 then blkField r 1 1 else cSoftware
    let s := s.setCore c { s.core c with handling := none }
    s.push (.launchEnd (s.cell c).launch code (BitVec.ofNat 64 (blkField r 8 8)) (BitVec.ofNat 64 (blkField r 40 8)))

/-- The issuing strand ends with a value (06 R129); a handler's end by this path escalates (14 R357). -/
def exitWith (cx : Ctx) (sl : Slot) (s : State) (v : Word) : Trig :=
  let s := cx.commit s sl
  if cx.slot = 255 then .done (((s.endStrand cx.core 255 v).escalate cx.core).afterEnd cx.core 255)
  else .done (s.finishStrand cx.core cx.slot v)

/-- strand.wake (06 R133). -/
def strandWakeOp (cx : Ctx) (sl : Slot) (s : State) : Trig :=
  let s := cx.commit s sl
  match (s.core cx.core).named cx.m.val with
  | .current j =>
    match (s.slot cx.core j).park with
    | some (.sleep _) => cx.result (s.wake cx.core j rStrand 1) rStrand 1
    | _ => cx.result (s.setSlot cx.core j { s.slot cx.core j with wake := true }) rStrand 0
  | _ => cx.result s rStrand ones

/-- strand.prio (06 R134). -/
def strandPrioOp (cx : Ctx) (sl : Slot) (s : State) : Trig :=
  let o := sl.operand 0x48
  let target := if o.getLsbD 63 then Named.current cx.slot else (s.core cx.core).named o
  let slot255 := if o.getLsbD 63 then cx.slot == 255 else bitsOf o.toNat 0 8 == 255
  if cx.m.val.toNat % 4 = 0 || slot255 then .fault (bare cPrivilege)
  else
    let s := cx.commit s sl
    match target with
    | .current j =>
      let old := (s.slot cx.core j).base
      cx.result (s.setSlot cx.core j { s.slot cx.core j with base := cx.m.val.setWidth 2 }) rStrand (old.setWidth 64)
    | _ => cx.result s rStrand ones

/-- strand.kill (06 R135). Two strands that kill each other at once wait for each other (notes/assumptions/95.md). -/
def strandKillOp (cx : Ctx) (sl : Slot) (s : State) : Trig :=
  let h := cx.m.val
  let v := sl.operand 0x48
  if bitsOf h.toNat 0 8 = 255 && cx.slot ≠ 255 then .fault (bare cPrivilege)
  else
    match (s.core cx.core).named h with
    | .current j =>
      if j = cx.slot then exitWith cx sl (s.filmReset 0 cx.core 0) v
      else
        let s' := s.stop cx.core j
        let st := (s'.slot cx.core j).st
        if st = .stopped || st = .trapped then
          let s' := (cx.commit s' sl).killStrand cx.core j v
          cx.result s' rStrand 1
        else .hold s' (.stopping j (s'.slot cx.core j).serial.toNat) .issued none
    | _ => cx.result (cx.commit s sl) rStrand 0

/-- The strand operations (06 R126). -/
def strandOp (cx : Ctx) (sl : Slot) (s : State) : Trig :=
  match opOf cx.m.dst with
  | 0 => strandSpawnOp cx sl s
  | 1 => cx.parkOr rStrand ((cx.commit s sl).join cx.core cx.slot cx.m.val)
  | 2 => exitWith cx sl s cx.m.val
  | 3 => cx.result (cx.commit s { sl with yield := true }) rStrand 0
  | 4 => cx.parkOr rStrand ((cx.commit s sl).sleep cx.core cx.slot (cx.m.val.toNat % 2 ^ 32))
  | 5 => strandWakeOp cx sl s
  | 6 => strandPrioOp cx sl s
  | _ => strandKillOp cx sl s

/-- The word is held for the reply of a controller that answers by an event (06 R137, 15 R390). -/
def heldFor (s : State) (why : Hold) (e : Event) : Trig := .hold (s.push e) why .issued none

/-- The msg operations (06 R137 to R147). -/
def msgOp (cx : Ctx) (sl : Slot) (s : State) : Trig :=
  let t := cx.m.val
  let c := cx.core
  let ring := t.toNat % 8
  let pool := if opOf cx.m.dst = 2 then (sl.operand 0x4A).toNat % 16 else t.toNat % 16
  match opOf cx.m.dst with
  | 0 =>
    if ((s.core c).ring ring).size = 0 then .fault (bare cSegRights)
    else cx.parkOr rMsg ((cx.commit s sl).msgWait c ring ((sl.operand 0x4A).toNat % 2 ^ 32))
  | 1 =>
    if ((s.core c).ring ring).size = 0 then .fault (bare cSegRights)
    else
      let s := cx.commit s sl
      let r := if t.getLsbD 3 then s.msgFree c ring else s.msgClaim c ring
      cx.result r.1 rMsg r.2
  | 5 =>
    if (s.armedAt (s.cell c) t).isSome then .hold (s.emit (.remoteRequest (s.request c cx.slot 6 0 0 ⟨.load, 0, 8, 0, 0, 0⟩ none))) .detector .issued none
    else heldFor s .detector (.detectorReply c cx.slot)
  | 6 => cx.parkOr rMsg ((cx.commit s sl).quietWait c (t.toNat % 2 ^ 32))
  | _ => if (s.cell c).ownsPool pool then heldFor s .pool (.poolReply c cx.slot) else .fault (bare cSegRights)

/-- What a pool operation does when its reply comes (06 R143, R144): the puts and closes are releases at gang scope. -/
def poolAnswer (cx : Ctx) (s : State) : Trig :=
  let c := cx.core
  let t := cx.m.val
  match opOf cx.m.dst with
  | 2 =>
    let r := (s.release c 2).poolPut c (((s.slot c cx.slot).operand 0x4A).toNat % 16) t
    cx.result r.1 rMsg r.2
  | 3 => cx.parkOr rMsg (s.poolTake c cx.slot (t.toNat % 16))
  | _ => cx.result ((s.release c 2).poolClose c (t.toNat % 16) (t.getLsbD 4)) rMsg 0

end Sys2Proof.Machine
end

