-- ==== Sys2Proof/Machine/Order.lean ====
section
/-! DEFINITION. The sem, bar and ord units (05 R110, 08 R192 to R212). -/

namespace Sys2Proof.Machine

/-! ## sem (08 R198 to R201) -/

/-- The sem operations. -/
def semOp (cx : Ctx) (sl : Slot) (s : State) : Trig :=
  let c := cx.core
  let i := (sl.operand 0x55).toNat % 1024
  let t := cx.m.val
  let n := t.toNat % 2 ^ 32
  if (s.cell c).sems ≤ i then .fault (bare cSemRange)
  else
    let s := cx.commit s sl
    let m := (s.core c).sem i
    let put (s : State) (m : Sem) : State := s.setCore c ((s.core c).setSem i m)
    match opOf cx.m.dst with
    | 2 => cx.parkOr rSem (s.semWait c cx.slot i n)
    | 3 =>
      match m.satisfy n with
      | some (m', _) => cx.result (put s m') rSem 1
      | none => cx.result s rSem 0
    | 4 =>
      let r := m.arm n
      cx.result ((put s r.1).wakeAll c rSem r.2) rSem (m.gen.setWidth 64)
    | 5 =>
      cx.result s rSem (match t.toNat % 4 with
        | 0 => m.count
        | 1 => m.target.setWidth 64
        | 2 => m.gen.setWidth 64
        | _ => if m.arrival then 1 else 0)
    | 6 =>
      let r := m.reset t
      cx.result (((put s r.1).wakeAll c rSem r.2).kickGates c i) rSem m.count
    | _ => cx.result (s.post c i n) rSem (BitVec.ofNat 64 (min (m.count.toNat + n) (2 ^ 64 - 1)))

/-! ## bar (08 R206, R207, R212) -/

/-- The value kind of a bar operation: 1 max to 5 or; 0 for the others (08 R211). -/
def barKind (k : Nat) : Nat := if 3 ≤ k then k - 2 else 0

/-- A signalling NaN of binary32. -/
def isSnan32 (v : Nat) : Bool := bitsOf v 23 8 == 255 && bitsOf v 0 23 != 0 && bitsOf v 22 1 == 0

/-- The bar operations: the checks of R212, the arrival of R205 after its release, and the wait of R206. -/
def barOp (cx : Ctx) (sl : Slot) (s : State) : Trig :=
  let c := cx.core
  let k := opOf cx.m.dst
  let o := sl.operand 0x56
  let dom := o.getLsbD 5
  let ch := o.toNat % 32
  let cell := s.cell c
  let cl := clusterOf c
  let h := s.chan cl dom ch
  let key := chanKey cell c dom
  let kind := barKind k
  let scope := if dom then 4 else 2
  if (dom && decide (16 ≤ ch)) || (dom && !panValid cell.paninfo) || h.owner ≠ some (chanOwner cell dom) || !h.mask.contains key then
    .fault (bare cBarrierMember)
  else if k = 1 then cx.parkOr rBar ((cx.commit s sl).barWait c dom ch 0 (cx.m.val.setWidth 32))
  else
    match h.arrive key kind cx.m.val with
    | none => .fault (bare cBarrierMember)
    | some (h', p) =>
      let sl := if k = 4 && isSnan32 (cx.m.val.toNat % 2 ^ 32) then { sl with fflags := sl.fflags ||| NV } else sl
      let s := (cx.commit s sl).release c scope
      let s := s.setChan cl dom ch h'
      let s := if dom then s.emit (.barrier (panId cell.paninfo) ch (panMember cell.paninfo) (c % 96) kind cx.m.val) else s
      let s := s.evalChan cl dom ch
      if k = 0 then cx.result s rBar (p.setWidth 64) else cx.parkOr rBar (s.barWait c dom ch kind p)

/-! ## ord (05 R110, 08 R192 to R196) -/

/-- A copy has reads to make: elements whose value the engine has not taken; cpy.fill reads nothing (08 R193, 10 R253). -/
def Cmd.cpyReads (m : Cmd) : Bool :=
  !m.finished && opOf m.op != 1
    && (decide (m.first < m.last) || !m.pend.isEmpty || m.transit.any (fun t => t.val.isNone) || m.sleeping.any (fun t => t.val.isNone))

/-- A matrix command has reads of memory to make: a pass or mx.load; and writes: mx.store alone (11 R286). -/
def Cmd.mxReads (m : Cmd) : Bool := !m.finished && (decide (opOf m.op ≤ 1) || opOf m.op == 3)
def Cmd.mxWrites (m : Cmd) : Bool := !m.finished && opOf m.op == 4

/-- A vector command has reads and writes of the core store to make. vx.tblset has read its table at its acceptance, and writes no memory (12 R303, R307). -/
def Cmd.vxBusy (m : Cmd) : Bool := !m.finished && opOf m.op != 21

/-- A command of the strand whose accesses of a class, as p tells, have not all been performed (08 R193). -/
def Engine.busyFor (e : Engine) (slot : Nat) (serial : BitVec 24) (p : Cmd → Bool) : Bool :=
  e.cmds.any (fun m => m.slot == slot && m.serial == serial && p m && m.parent.isNone)

/-- The engine classes of PRED have been performed (08 R193). -/
def State.predDone (s : State) (c i pred : Nat) : Bool :=
  let k := s.core c
  let n := (k.slot i).serial
  let waits (bit : Nat) (e : Engine) (p : Cmd → Bool) : Bool := bitsOf pred bit 1 == 1 && e.busyFor i n p
  !(waits 2 k.cpy Cmd.cpyReads || waits 3 k.cpy (fun m => !m.finished) || waits 4 k.mx Cmd.mxReads || waits 5 k.mx Cmd.mxWrites
    || waits 6 k.vx Cmd.vxBusy || waits 7 k.vx Cmd.vxBusy)

/-- ord.fence with its masks at a scope (08 R193). -/
def fenceOp (cx : Ctx) (sl : Slot) (s : State) (scope pred succ : Nat) : Trig :=
  if pred = 0 ∨ succ = 0 then .done (cx.commit s sl)
  else if !s.predDone cx.core cx.slot pred then .hold s .fence .issued none
  else
    let s := cx.commit s sl
    let s := if bitsOf pred 1 1 = 1 then s.release cx.core scope else s
    .done (if bitsOf succ 0 1 = 1 then s.acquire cx.core scope else s)

/-- The line range of ord.cinv, ord.cwb and ord.icsync: the location of the first line (05 R110, 08 R195). -/
def lineRange (sl : Slot) (members : Nat) (spaces : List Nat) (t : Word) (lines : Nat) : Except FaultInfo (Nat × Nat) :=
  let g := sl.seg (segNo t)
  let l := g.base + offOf t
  let l0 := l / 64 * 64
  if !spaces.contains g.space then .error (faultAt cSegRights t)
  else if (g.limit : Int) < (l0 : Int) - (g.base : Int) + (64 * lines : Nat) then .error (faultAt cSegLimit t)
  else if (Seg.locate { g with base := l0 } members 0 (64 * lines)).isNone then .error (faultAt cSegLimit t)
  else .ok (g.space, l0)

/-- The strand's word in the pipeline, from stage 1 to stage 8 (02 R52). -/
def Slot.inPipe (sl : Slot) : Bool := sl.st == .issued && sl.held.isNone

/-- Drops code lines that p holds of, and the fetch buffers with them, on one core (05 R110); a word already issued stays (05 R111). -/
def Core.dropCode (k : Core) (p : CodeLine → Bool) : Core :=
  { k with
    code := k.code.filter (fun l => !p l)
    slots := k.slots.map (fun e => (e.1, { e.2 with units := [], fetch := if e.2.inPipe then e.2.fetch else none })) }

/-- The cores that an icsync at a scope reaches (05 R110). -/
def State.icReach (s : State) (c scope : Nat) : List Nat :=
  let cell := s.cell c
  if scope < 2 then [c]
  else
    (s.cores.filter (fun e => match e.2.cell with
      | some k => if scope = 2 then k.launch == cell.launch && k.gang == cell.gang else k.part == cell.part
      | none => false)).map (·.1)

/-- ord.icsync (05 R110): the release, then the invalidation of the named lines within the scope. For code in device space the lines of the issuing core's cluster
cache go at every scope, and the core's dirty words are written back first, so that no strand within the scope issues the old form afterwards (05 R111;
notes/assumptions/83.md). -/
def icsyncOp (cx : Ctx) (sl : Slot) (s : State) (scope lines : Nat) : Trig :=
  let c := cx.core
  let cell := s.cell c
  let go (all : Bool) (space l0 : Nat) : Trig :=
    let s := (cx.commit s sl).release c (if all || space == 4 then max scope 2 else scope)
    let cores := s.icReach c scope
    let line (a : Nat) : Bool := decide (l0 ≤ a) && decide (a < l0 + 64 * lines)
    let hit (d : Nat) (x : CodeLine) : Bool :=
      all || (match space with
        | 1 => d == c && x.space == 1 && line x.addr
        | 2 => x.space == 1 && line (d % 96 * 2 ^ 21 + x.addr)
        | _ => x.space == 4 && line x.addr)
    let s := cores.foldl (fun s d => s.setCore d ((s.core d).dropCode (hit d))) s
    let clusters := if scope ≤ 2 then [clusterOf c] else cores.map clusterOf
    .done (clusters.foldl (fun s cl =>
      let k := s.cluster cl
      s.setCluster cl { k with code := k.code.filter (fun x => !(x.part == cell.part && (all || (space == 4 && line x.addr)))) }) s)
  if lines = 0 then go true 0 0
  else
    match lineRange sl (panMembers cell.paninfo) [1, 2, 4] cx.m.val lines with
    | .error f => .fault f
    | .ok (space, l0) => go false space l0

/-- ord.cinv and ord.cwb (08 R195). -/
def cacheOp (cx : Ctx) (sl : Slot) (s : State) (inv : Bool) (lines : Nat) : Trig :=
  let c := cx.core
  let cell := s.cell c
  let go (p : CacheLine → Bool) : Trig :=
    let s := (cx.commit s sl).cleanLines c p
    .done (if inv then s.setCore c { s.core c with lines := (s.core c).lines.filter (fun l => !p l) } else s)
  if lines = 0 then go (fun _ => true)
  else
    match lineRange sl (panMembers cell.paninfo) [4] cx.m.val lines with
    | .error f => .fault f
    | .ok (_, l0) => go (fun l => l.part == cell.part && decide (l0 ≤ l.va) && decide (l.va < l0 + 64 * lines))

/-- The ord operations (08 R192). -/
def ordOp (cx : Ctx) (sl : Slot) (s : State) : Trig :=
  let o := sl.operand 0x57
  let scope := o.toNat % 8
  let lines := bitsOf o.toNat 8 24
  let k := opOf cx.m.dst
  if k ≤ 3 ∧ 5 ≤ scope then .fault (bare cIllegalWord)
  else
    match k with
    | 0 => fenceOp cx sl s scope (bitsOf cx.m.val.toNat 0 8) (bitsOf cx.m.val.toNat 8 8)
    | 1 => fenceOp cx sl s scope 0x01 0xFF
    | 2 => fenceOp cx sl s scope 0x03 0xAA
    | 3 => icsyncOp cx sl s scope lines
    | 4 => cacheOp cx sl s true lines
    | _ => cacheOp cx sl s false lines

end Sys2Proof.Machine
end

