-- ==== Sys2Proof/Machine/Sys.lean ====
section
/-! DEFINITION. The sys, dbg and mnt units, and the disposition of a handler's end (14 R355 to R367, 15 R390 to R392, 17 R429 to R433). -/

namespace Sys2Proof.Machine

/-! ## Slot items (14 R361 to R363) -/

/-- STATE of a slot: the states of 06 R115 in table order (14 R362). -/
def SlotState.code : SlotState → Nat
  | .free => 0
  | .ready => 1
  | .issued => 2
  | .waitPort => 3
  | .waitSem => 4
  | .waitFe => 5
  | .waitBar => 6
  | .waitMsg => 7
  | .waitPool => 8
  | .waitJoin => 9
  | .waitPage => 10
  | .waitQuiet => 11
  | .sleep => 12
  | .trapped => 13
  | .stopped => 14

/-- Items whose access column is 'any' for reads and 'FREE or STOPPED' for writes (14 R362). -/
def itemOpen (n : Nat) : Bool := n == 0x101 || n == 0x108 || n == 0x109 || n == 0x10A

/-- The assigned slot items (14 R362). -/
def slotItem (n : Nat) : Bool :=
  decide (n < 0x28) || (decide (0x40 ≤ n) && decide (n ≤ 0x60)) || (decide (0x80 ≤ n) && decide (n ≤ 0x95))
    || (decide (0x100 ≤ n) && decide (n ≤ 0x10B)) || (decide (0x110 ≤ n) && decide (n ≤ 0x127))

/-- The assigned cell items (14 R364). -/
def cellItem (n : Nat) : Bool := n == 0 || n == 1 || n == 2 || n == 0x10 || n == 0x11 || n == 0x12 || n == 0x20

/-- The value of a slot item (14 R362). -/
def Slot.item (sl : Slot) (n : Nat) : Word :=
  if n < 0x20 then sl.readX n
  else if n < 0x28 then (if sl.readG (n - 0x20) then 1 else 0)
  else if n ≤ 0x60 then sl.operand n
  else if n ≤ 0x95 then (sl.port (n - 0x80)).val
  else if 0x120 ≤ n then sl.stage.get 0 (n - 0x120)
  else if 0x110 ≤ n then (if n % 2 = 0 then sl.segL.get 0 ((n - 0x110) / 2) else sl.segH.get 0 ((n - 0x110) / 2))
  else
    match n with
    | 0x100 => sl.pc
    | 0x101 => BitVec.ofNat 64 sl.st.code
    | 0x102 => sl.waitdesc
    | 0x103 => sl.fflags.setWidth 64
    | 0x104 => sl.fmode.setWidth 64
    | 0x105 => sl.srseed.setWidth 64
    | 0x106 => sl.base.setWidth 64
    | 0x107 => BitVec.ofNat 64 ((if sl.yield then 1 else 0) + (if sl.wake then 2 else 0) + (if sl.step then 4 else 0))
    | 0x108 => sl.serial.setWidth 64
    | 0x109 => sl.exitSerial.setWidth 64
    | 0x10A => sl.exitValue
    | _ => sl.gsi

/-- The bits of GSI that are not RZ (17 R423). -/
def gsiMask : Word := 0x001FFFFFFFFFFFFF

/-- The slot after a write of a slot item other than STATE (14 R362). -/
def Slot.writeItem (sl : Slot) (n : Nat) (v : Word) : Slot :=
  if n < 0x20 then sl.writeX n v
  else if n < 0x28 then sl.writeG (n - 0x20) v
  else if n ≤ 0x60 then { sl with opnd := sl.opnd.set n v }
  else if n ≤ 0x95 then sl.setRes (n - 0x80) v
  else if 0x120 ≤ n then { sl with stage := sl.stage.set (n - 0x120) (v &&& segLMask) }
  else if 0x110 ≤ n then
    let k := (n - 0x110) / 2
    if n % 2 = 0 then { sl with segL := sl.segL.set k (v &&& segLMask) } else { sl with segH := sl.segH.set k (v &&& segHMask) }
  else
    match n with
    | 0x100 => { sl with pc := v }
    | 0x102 => { sl with waitdesc := v }
    | 0x103 => { sl with fflags := v.setWidth 5 }
    | 0x104 => { sl with fmode := fmodeOf v }
    | 0x105 => { sl with srseed := v.setWidth 32 }
    | 0x106 => if v.toNat % 4 = 0 then sl else { sl with base := v.setWidth 2 }
    | 0x107 => { sl with yield := v.getLsbD 0, wake := v.getLsbD 1, step := v.getLsbD 2 }
    | 0x108 => { sl with serial := v.setWidth 24 }
    | 0x109 => { sl with exitSerial := v.setWidth 24 }
    | 0x10A => { sl with exitValue := v }
    | 0x10B => { sl with gsi := v &&& gsiMask }
    | _ => sl

/-- A write of STATE (14 R363): 14 on a FREE slot creates a STOPPED instance, 0 on a STOPPED slot removes its instance. -/
def State.writeStateItem (s : State) (c i : Nat) (v : Word) : State :=
  let k := s.core c
  let sl := k.slot i
  if v = 14 ∧ sl.st = .free then
    let count := k.created + 1
    let gsi := gsiOf s.device k.cellD.part c count
    let new : Slot := { Slot.free with st := .stopped, serial := sl.serial, base := 3, gsi := gsi }
    let s := s.setCore c { k.setSlot i new with created := count }
    (s.traceStrand c i 4 4 [0]).1
  else if v = 0 ∧ sl.st = .stopped then
    let s := s.setSlot c i { Slot.free with serial := sl.serial, exitSerial := sl.exitSerial, exitValue := sl.exitValue }
    s.releaseJoin c i sl.serial ones
  else s

/-! ## Cell items (14 R364) -/

/-- The full/empty bits of 64 words of a core store, from word 64 × idx. -/
def Mem.feItem (m : Mem) (idx : Nat) : Word :=
  BitVec.ofNat 64 ((List.range 64).foldl (fun acc j => acc + (if m.isFull (64 * idx + j) then 2 ^ j else 0)) 0)

/-- Writes those bits; no wait list is served. -/
def Mem.writeFeItem (m : Mem) (idx : Nat) (v : Word) : Mem :=
  (List.range 64).foldl (fun m j => m.setFull (64 * idx + j) (v.getLsbD j)) m

/-- The value of a cell item. -/
def Core.cellItemOf (k : Core) (n idx : Nat) : Word :=
  let m := k.sem idx
  let r := k.ring idx
  match n with
  | 0 => m.count
  | 1 => BitVec.ofNat 64 (m.target.toNat + (if m.arrival then 2 ^ 32 else 0))
  | 2 => m.gen.setWidth 64
  | 0x10 => if r.size = 0 then 0 else r.tail.setWidth 64
  | 0x11 => if r.size = 0 then 0 else r.claim.setWidth 64
  | 0x12 => if r.size = 0 then 0 else r.head.setWidth 64
  | _ => k.store.feItem idx

/-- The core after a write of a cell item; a semaphore write posts nothing and releases no waiter. -/
def Core.writeCellItem (k : Core) (n idx : Nat) (v : Word) : Core :=
  let m := k.sem idx
  let r := k.ring idx
  match n with
  | 0 => k.setSem idx { m with count := v }
  | 1 => k.setSem idx { m with target := v.setWidth 32, arrival := v.getLsbD 32 }
  | 2 => k.setSem idx { m with gen := v.setWidth 32 }
  | 0x10 => if r.size = 0 then k else k.setRing idx { r with tail := v.setWidth 32 }
  | 0x11 => if r.size = 0 then k else k.setRing idx { r with claim := v.setWidth 32 }
  | 0x12 => if r.size = 0 then k else k.setRing idx { r with head := v.setWidth 32 }
  | _ => { k with store := k.store.writeFeItem idx v }

/-- KIND of the record that a core's handler runs for (14 R353). -/
def Core.handlerKind (k : Core) : Nat := match k.handling with
  | some r => blkField r 0 1
  | none => 0

/-- The checks of sys.rd and sys.wr (14 R361); a write of STATE that R363 gives no effect is ignored, whatever the state (14 R363, R374). -/
def sysItemFault (k : Core) (o : Word) (write : Bool) : Option Nat :=
  let item := bitsOf o.toNat 8 10
  let idx := bitsOf o.toNat 20 12
  let i := bitsOf o.toNat 0 8
  if o.getLsbD 18 then
    if !cellItem item || (decide (0x10 ≤ item) && decide (item ≤ 0x12) && decide (8 ≤ idx)) || (item == 0x20 && decide (3072 ≤ idx)) then
      some cIllegalWord
    else if item ≤ 2 ∧ k.cellD.sems ≤ idx then some cSemRange
    else if write ∧ k.handlerKind ≤ 1 then some cPrivilege
    else none
  else if !slotItem item then some cIllegalWord
  else
    let st := (k.slot i).st
    let ok := if item = 0x101 then true else if itemOpen item then (!write || st == .free || st == .stopped) else st == .stopped
    if i = 255 ∨ !ok then some cPrivilege else none

/-- The item that an operand port names, after its checks (14 R361 to R364). -/
def State.sysRead (s : State) (c : Nat) (o : Word) : Word :=
  let item := bitsOf o.toNat 8 10
  if o.getLsbD 18 then (s.core c).cellItemOf item (bitsOf o.toNat 20 12) else (s.slot c (bitsOf o.toNat 0 8)).item item

/-! ## The end of a handler (14 R356, R357) -/

/-- A record waits to be handed to its cell's handler: no debugger claims its code, the cell has a handler, and its mask takes the code (14 R354). -/
def State.toHandler (s : State) (r : MailRec) : Bool :=
  let cell := s.cell r.core
  let p := s.part cell.part
  let code := blkField r.data 1 1
  !r.handed && !r.claimed && r.slot != 255 && !(p.attached && p.claims.getLsbD code) && cell.handler && cell.hmask.getLsbD code

/-- Firmware resumes a strand as by sys.go (14 R356, R372). -/
def State.go (s : State) (c i : Nat) : State := (s.resume c i).1

/-- The slot of a record in the mailbox frees, and a held record of the core is written (14 R352). -/
def State.freeRecord (s : State) (c i : Nat) : State :=
  let cl := clusterOf c
  let k := s.cluster cl
  let s := s.setCluster cl { k with mailbox := k.mailbox.filter (fun r => !(r.core == c && r.slot == i && r.handed)) }
  ((s.core c).slotsWhere (fun sl => sl.trap.isSome)).foldl (fun s j => s.push (.mailboxRecordWrite c j)) s

/-- A held post is applied, after the status that comes with it; one to an index that the cell does not grant is discarded (14 R370). -/
def State.applyPost (s : State) (c : Nat) (p : HeldPost) : State :=
  let s := match p.status with
    | some (loc, v) => s.setCore c { s.core c with store := (s.core c).store.write 8 (loc + 56) 8 v }
    | none => s
  if p.sem < (s.cell c).sems then s.post c p.sem p.n else s

/-- Held posts are applied in order (14 R370). -/
def State.applyPosts (s : State) (c : Nat) : State :=
  let k := s.core c
  k.posts.foldl (fun s p => s.applyPost c p) (s.setCore c { k with posts := [] })

/-- A cell leaves its pre-emption: posts applied, rings and intake open (14 R372, R375). -/
def State.reopen (s : State) (c : Nat) : State :=
  let s := s.mapCell c (fun cell => { cell with preempt := .running, intakeOpen := true })
  let s := s.applyPosts c
  if (s.core c).intake.isEmpty then s else s.pushOnce (.intakeDelivery c)

/-- A panorama's strands that sys.go resumed become READY when every member, here and elsewhere, has signalled DISP 5; the device tells the others when its own
have (14 R376). -/
def State.thaw (s : State) (p : Nat) : State :=
  match s.panAt p with
  | none => s
  | some q =>
    let waiting := s.cores.any (fun e => match e.2.cell with
      | some k => panValid k.paninfo && panId k.paninfo == p && k.preempt == .restoring
      | none => false)
    let away := q.launches.any (fun l => (s.launchAt l).elim false (fun la => la.gangs.any (fun g => !g.2.saved.isEmpty)))
    if !q.frozen || waiting || away then s
    else
      let s := if q.abroad && !q.ownBack then (s.mapPan p (fun q => { q with ownBack := true })).emit (.plain 14 3 [p]) else s
      if q.abroad && !q.farBack then s
      else
        let s := s.mapPan p (fun q => { q with frozen := false, held := [], farBack := false, ownBack := false })
        q.held.foldl (fun s e => s.go e.1 e.2) s

/-- KILL (14 R356): the strand ends as by strand.kill, after its stop where it runs again (06 R135). -/
def State.handlerKill (s : State) (c i : Nat) (v : Word) : State :=
  let s := (s.setSlot c i { s.slot c i with killBy := some v }).stop c i
  if (s.slot c i).st = .stopped || (s.slot c i).st = .trapped then s.killStrand c i v else s

/-- What firmware does on a valid disposition (14 R356, R371, R375). A restore that ends its cell ends the launch too (notes/assumptions/84.md). -/
def State.dispose (s : State) (c : Nat) (rec : Block) (disp aux : Nat) : State :=
  let cell := s.cell c
  let kind := blkField rec 0 1
  let i := blkField rec 3 1
  let mine := (s.slot c i).occupied && (s.slot c i).serial.toNat == blkField rec 56 3
  let fail (code : Nat) : State :=
    s.push (.launchEnd cell.launch code (BitVec.ofNat 64 (blkField rec 8 8)) (BitVec.ofNat 64 (blkField rec 40 8)))
  match disp, kind with
  | 0, 0 => if mine && (s.slot c i).st == .stopped then s.go c i else s
  | 1, 0 => if mine then s.handlerKill c i (BitVec.ofNat 64 aux) else s
  | 2, 2 => (s.killCell c).push (.launchEnd cell.launch cSoftware (BitVec.ofNat 64 (blkField rec 8 8)) (BitVec.ofNat 64 (blkField rec 40 8)))
  | 2, _ => s.killCell c
  | 3, 0 => fail (blkField rec 1 1)
  | 3, _ => fail cSoftware
  | 4, 1 => (s.mapCell c (fun cell => { cell with preempt := .saved })).push (.saveComplete cell.launch cell.gang)
  | 5, 2 =>
    let s := s.reopen c
    if panValid cell.paninfo then s.thaw (panId cell.paninfo) else s
  | _, _ => fail cCmdInvalid

/-- The end of a handler by sys.trap with value t: firmware reads the record there and acts on it (14 R356, R359). -/
def State.handlerEnd (s : State) (c : Nat) (t : Word) : State :=
  let s := s.endStrand c 255 t
  let k := s.core c
  match k.handling with
  | none => s.afterEnd c 255
  | some rec =>
    let s := s.setCore c { k with handling := none }
    let s := if blkField rec 0 1 = 0 then s.freeRecord c (blkField rec 3 1) else s
    let a := t.toNat
    let r := k.store.block a
    let bad := decide (0x180000 ≤ a) || a % 64 != 0 || bitsOf (blkField r 4 1) 2 6 != 0 || blkField r 6 2 != 0 || blkField r 59 5 != 0
    let s := if bad then
        s.push (.launchEnd k.cellD.launch cCmdInvalid (BitVec.ofNat 64 (blkField rec 8 8)) (BitVec.ofNat 64 (blkField rec 40 8)))
      else if k.store.lost 8 a 64 then
        (s.countCore c a 64).push (.launchEnd k.cellD.launch cDataLost (BitVec.ofNat 64 (blkField rec 8 8)) (BitVec.ofNat 64 (blkField rec 40 8)))
      else s.dispose c rec (blkField r 5 1) (blkField r 48 8)
    let s := if (s.cluster (clusterOf c)).mailbox.any (fun r => r.core == c && s.toHandler r) then s.pushOnce (.handlerStart c) else s
    let s := match s.launchAt k.cellD.launch with
      | some la => if la.gangs.any (fun e => e.1 == k.cellD.gang && e.2.requested) then
          s.push (if la.pan.isSome then .panoramaPreempt (.prepare k.cellD.launch (some ((la.pan.bind (s.panAt ·)).elim 0 (·.round)))) else .preemptRequest k.cellD.launch k.cellD.gang) else s
      | none => s
    s.afterEnd c 255

/-! ## The sys unit (14 R358 to R367) -/

/-- sys.stop (14 R360). -/
def sysStopOp (cx : Ctx) (sl : Slot) (s : State) : Trig :=
  let h := cx.m.val
  match (if bitsOf h.toNat 0 8 = 255 then Named.stale else (s.core cx.core).named h) with
  | .current j =>
    let st := (s.slot cx.core j).st
    if st = .stopped || st = .trapped then cx.result (cx.commit s sl) rSys 0
    else
      let s' := s.stop cx.core j
      if (s'.slot cx.core j).st = .stopped then cx.result (cx.commit s' sl) rSys 1
      else .hold s' (.stopping j (s'.slot cx.core j).serial.toNat) .issued none
  | _ => cx.result (cx.commit s sl) rSys ones

/-- sys.go (14 R365, R376). -/
def sysGoOp (cx : Ctx) (sl : Slot) (s : State) : Trig :=
  let c := cx.core
  let s := cx.commit s sl
  let h := cx.m.val
  match (if bitsOf h.toNat 0 8 = 255 then Named.stale else (s.core c).named h) with
  | .current j =>
    let tgt := s.slot c j
    if tgt.st ≠ .stopped then cx.result s rSys 0
    else if 8 ≤ bitsOf tgt.waitdesc.toNat 0 4 ∨ bitsOf tgt.waitdesc.toNat 4 12 ≠ 0 then cx.result s rSys 2
    else
      let cell := s.cell c
      let frozen := panValid cell.paninfo && (match s.panAt (panId cell.paninfo) with | some q => q.frozen | none => false)
      if frozen && cell.preempt == .restoring then
        cx.result (s.mapPan (panId cell.paninfo) (fun q => { q with held := q.held ++ [(c, j)] })) rSys 1
      else
        let r := s.resume c j
        cx.result r.1 rSys 1
  | _ => cx.result s rSys ones

/-- A write of the item that an operand port names, after its checks (14 R361 to R364). -/
def State.sysWrite (s : State) (c : Nat) (o t : Word) : State :=
  let item := bitsOf o.toNat 8 10
  let i := bitsOf o.toNat 0 8
  let idx := bitsOf o.toNat 20 12
  if o.getLsbD 18 then (s.setCore c ((s.core c).writeCellItem item idx t)).kickGates c idx
  else if item = 0x101 then s.writeStateItem c i t
  else s.setSlot c i ((s.slot c i).writeItem item t)

/-- The sys operations (14 R358). -/
def sysOp (cx : Ctx) (sl : Slot) (s : State) : Trig :=
  let c := cx.core
  let t := cx.m.val
  let o := sl.operand 0x58
  match opOf cx.m.dst with
  | 0 => if cx.slot = 255 then .done ((cx.commit s sl).handlerEnd c t) else .fault ⟨cSoftware, 0, none, t⟩
  | 1 => sysStopOp cx sl s
  | 2 =>
    match sysItemFault (s.core c) o false with
    | some f => .fault (bare f)
    | none => cx.result (cx.commit s sl) rSys (s.sysRead c o)
  | 3 =>
    match sysItemFault (s.core c) o true with
    | some f => .fault (bare f)
    | none => cx.result ((cx.commit s sl).sysWrite c o t) rSys 0
  | 4 => sysGoOp cx sl s
  | _ =>
    if s.drained c t.toNat && !s.drainsFar c then cx.result ((cx.commit s sl).passRefused c t.toNat) rSys 0
    else
      .hold (if s.drainsFar c then s.emit (.plain 14 2 [panId (s.cell c).paninfo, t.toNat % 32]) else s) .drain .issued none

/-! ## The dbg and mnt units (15 R390 to R392, 17 R429 to R433) -/

/-- dbg.step (17 R432). -/
def dbgStepOp (cx : Ctx) (sl : Slot) (s : State) : Trig :=
  let h := cx.m.val
  let arm (j : Nat) : Trig :=
    let s := cx.commit s sl
    let tgt := s.slot cx.core j
    if tgt.step then cx.result s rDbg 0 else cx.result (s.setSlot cx.core j { tgt with step := true }) rDbg 1
  if bitsOf h.toNat 0 8 = 255 then .fault (bare cPrivilege)
  else
    match (s.core cx.core).named h with
    | .current j => if j = cx.slot ∨ cx.slot = 255 then arm j else .fault (bare cPrivilege)
    | _ => cx.result (cx.commit s sl) rDbg ones

/-- The checks of mnt.discard (15 R392): the location and the length. -/
def discardRange (sl : Slot) (ea : Word) : Except FaultInfo (Nat × Nat) :=
  let g := sl.seg (segNo ea)
  let f := offOf ea
  let n := (sl.operand 0x59).toNat
  let l := g.base + f
  if g.space ≠ 4 ∨ !g.wr ∨ g.cn then .error (faultAt cSegRights ea)
  else if g.limit < f + n then .error (faultAt cSegLimit ea)
  else if l % 2 ^ 16 ≠ 0 ∨ n % 2 ^ 16 ≠ 0 then .error (faultAt cMisaligned ea)
  else .ok (l, n)

/-- The dbg and mnt operations (15 R390, 17 R429); a stepped word that arms its own strand is not itself the stepped word. -/
def dbgOp (cx : Ctx) (sl : Slot) (s : State) : Trig :=
  let c := cx.core
  match opOf cx.m.dst with
  | 0 => .fault ⟨cBreakpoint, 0, some (BitVec.ofNat 64 (7 * 2 ^ 61 + cx.here.toNat)), 0⟩
  | 1 =>
    let s := cx.commit s sl
    let r := s.traceStrand c cx.slot 1 5 [cx.m.val, BitVec.ofNat 64 ((sl.operand 0x59).toNat % 2 ^ 16)]
    cx.result r.1 rDbg (if r.2 then 1 else 0)
  | 2 => dbgStepOp cx sl s
  | 6 =>
    match discardRange sl cx.m.val with
    | .error f => .fault f
    | .ok _ => heldFor s .mnt (.mntReply c cx.slot)
  | _ => heldFor s .mnt (.mntReply c cx.slot)

end Sys2Proof.Machine
end

