-- ==== Sys2Proof/Machine/Pipeline.lean ====
section
/-! DEFINITION. One word of a strand: the reads, the checks, the commit and the resolving operation (02 R50 to R59), and the retry of a held
word. -/

namespace Sys2Proof.Machine

/-- A special register read by slot i of core c (02 R45 to R48); CYCLES is read in stage 2, a cycle after the issue (02 R52). -/
def State.readSpecial (s : State) (c i n : Nat) : Word :=
  let k := s.core c
  let sl := k.slot i
  let cell := k.cellD
  match n with
  | 0x00 => BitVec.ofNat 64 i
  | 0x01 => sl.gsi
  | 0x02 => cell.cellinfo
  | 0x03 => cell.geom
  | 0x04 => cell.paninfo
  | 0x05 => sl.level.setWidth 64
  | 0x06 => BitVec.ofNat 64 (sl.issuedAt + 1)
  | 0x07 => Config.flitcap
  | 0x10 => sl.fflags.setWidth 64
  | 0x11 => sl.fmode.setWidth 64
  | 0x12 => sl.srseed.setWidth 64
  | 0x13 => 0
  | _ => if n % 2 = 0 then sl.segL.get 0 ((n - 0x20) / 2) else sl.segH.get 0 ((n - 0x20) / 2)

/-- The value of a move's source (02 R34, R36). Free command slots are those that stage 2 read (02 R49, R52). -/
def State.source (s : State) (c i : Nat) (m : DMove) : Word :=
  let sl := s.slot c i
  let n := m.src.toNat
  if m.imm then m.lit
  else if n < 0x20 then sl.readX n
  else if n < 0x28 then (if sl.readG (n - 0x20) then 1 else 0)
  else if n < 0x80 then (sl.port (n - 0x40)).val
  else if n < 0x100 then BitVec.ofNat 64 (sl.seen.get (s.freeSlots c (n - 0x80)) (n - 0x80))
  else s.readSpecial c i (n - 0x100)

/-- The operation of a resolving unit, by its block (02 R43). ticket is that of a NACKed access which is sent again (07 R157). -/
def resolve (cx : Ctx) (sl : Slot) (s : State) (ticket : Option Nat) : Trig :=
  match blockOf cx.m.dst with
  | 0x0B => lsuOp cx sl s ticket
  | 0x0C => amoOp cx sl s ticket
  | 0x0E => strandOp cx sl s
  | 0x0F => msgOp cx sl s
  | 0x10 => semOp cx sl s
  | 0x11 => barOp cx sl s
  | 0x12 => ordOp cx sl s
  | 0x13 => sysOp cx sl s
  | 0x18 => cpyOp cx sl s
  | 0x19 => mxOp cx sl s
  | 0x1A => vxOp cx sl s
  | 0x1B => fabOp cx sl s ticket
  | 0x1C => colOp cx sl s
  | _ => dbgOp cx sl s

/-- The bytes that an operation's DATA_LOST covers: those of an access, or a block or map. -/
def lostWidth (m : MoveVal) (sl : Slot) : Nat :=
  if blockOf m.dst = 0x0B then lsuBytes (opOf m.dst) else if blockOf m.dst = 0x0C then amoWidth (sl.operand 0x50) else 64

/-- A word that parks on a page has its wake coming (07 R171). -/
def State.awaitPage (s : State) (c : Nat) : Hold → State
  | .page va => s.pushOnce (.pageWake (s.cell c).part va)
  | _ => s

/-- What a resolving operation leaves (02 R54 to R59). Its strand may have ended or stopped itself; otherwise the word retires. -/
def State.conclude (s : State) (c i : Nat) (ms : List MoveVal) (m : MoveVal) (here next word : Word) : Trig → State
  | .done s' =>
    if (s'.slot c i).st = .issued then s'.settle c i here word (s.slot c i).step
    else { s' with current := if s'.current = some (c, i) then none else s'.current }
  | .fault f =>
    let s := if f.code = cDataLost then s.countLost c (s.slot c i) (f.addr.getD 0) (lostWidth m (s.slot c i)) else s
    s.trap c i (withInfo f m) m.isB here word
  | .hold s' why st reply =>
    let s' := { s'.awaitPage c why with current := if s'.current = some (c, i) then none else s'.current }
    s'.setSlot c i { s'.slot c i with
      st := st, age := 0, fetch := none, units := [], held := some { why := why, moves := ms, here := here, next := next, word := word, reply := reply, answers := [] } }

/-- The commit of a word whose values have been read (02 R50, R59): plain writes, immediate triggers, then the resolving trigger. -/
def State.fire (s : State) (c i : Nat) (ms : List MoveVal) (here next word : Word) (ticket : Option Nat) : State :=
  match s.commitSlot c i ms here next with
  | .error e => s.trap c i (withInfo e.1 e.2) e.2.isB here word
  | .ok sl =>
    match resolvingMove ms with
    | none => (s.setSlot c i sl).settle c i here word (s.slot c i).step
    | some m => s.conclude c i ms m here next word (resolve ⟨c, i, m, here, next, word⟩ sl s ticket)

/-- The execution of a word of len bytes by strand i of core c (02 R50). -/
def State.runAt (s : State) (c i : Nat) (moves : List DMove) (len : Nat) (word : Word) : State :=
  let sl := s.slot c i
  let live := moves.filter sl.live
  let here := sl.pc
  if sl.level ≠ 1 ∧ live.any (fun m => needsHandler m.dst) then s.trap c i (bare cPrivilege) false here word
  else if anyConflict live then s.trap c i (bare cPortConflict) false here word
  else if live.any sl.waitsPort then
    { s.setSlot c i { sl with st := .waitPort } with current := none }
  else
    s.fire c i (live.map (fun m => ⟨m.dst, s.source c i m, m.isB⟩)) here (here + BitVec.ofNat 64 len) word none

/-- The meaning of a word: it is the word of the strand in the pipeline. -/
def runWord (moves : List DMove) (len : Nat) (word : Word) (s : State) : Host.Outcome State Fault Refusal :=
  match s.current with
  | none => .fault .noIssuingStrand
  | some (c, i) => .next (s.runAt c i moves len word)

/-- The held word of a strand is tried again from its captured values (02 R55, 07 R157, R173, 08 R193). -/
def State.retry (s : State) (c i : Nat) : State :=
  match (s.slot c i).held with
  | none => s
  | some h =>
    let s := s.setSlot c i { s.slot c i with st := .issued, held := none }
    let ticket := match h.reply with
      | some (.nack t) => some t
      | _ => none
    s.fire c i h.moves h.here h.next h.word ticket

/-- The held word of a strand commits, and op says what its operation does with the committed slot (02 R54). -/
def State.completeHeld (s : State) (c i : Nat) (op : Ctx → State → Trig) : State :=
  match (s.slot c i).held with
  | none => s
  | some h =>
    match resolvingMove h.moves, s.commitSlot c i h.moves h.here h.next with
    | some m, .ok sl =>
      let s0 := s.setSlot c i { s.slot c i with st := .issued, held := none }
      let s1 := s0.setSlot c i { sl with st := .issued, held := none }
      s0.conclude c i h.moves m h.here h.next h.word (op ⟨c, i, m, h.here, h.next, h.word⟩ s1)
    | _, _ => s

/-- The strands of a core whose words wait for a reason. -/
def Core.heldWhere (k : Core) (p : Hold → Bool) : List Nat :=
  k.slotsWhere (fun sl => match sl.held with
    | some h => p h.why
    | none => false)

/-- Fences of a core that wait for engine accesses are tried again (08 R193). -/
def State.retryFences (s : State) (c : Nat) : State :=
  ((s.core c).heldWhere (fun w => w == .fence)).foldl (fun s i => s.retry c i) s

end Sys2Proof.Machine
end

