-- ==== Sys2Proof/Machine/Fetch.lean ====
section
/-! DEFINITION. Selection, the fetch path, and what precedes the execution of a word (05 R102 to R114, 06 R122 to R125, 17 R426, R427). -/

namespace Sys2Proof.Machine

/-! ## Code lines (05 R102) -/

/-- The kept line of an address. -/
def codeFind (ls : List CodeLine) (space part a : Nat) : Option CodeLine :=
  ls.find? (fun l => l.space == space && l.part == part && l.addr == a / 64 * 64)

/-- Adds a line as the most recently used; a set keeps at most ways lines. -/
def codeAdd (sets ways : Nat) (ls : List CodeLine) (l : CodeLine) : List CodeLine :=
  let rest := ls.filter (fun x => !(x.space == l.space && x.part == l.part && x.addr == l.addr))
  let inSet (x : CodeLine) : Bool := x.addr / 64 % sets == l.addr / 64 % sets
  let keep := (rest.filter inSet).take (ways - 1)
  l :: rest.filter (fun x => !inSet x || keep.contains x)

/-- The line of an address is the most recently used of its set. -/
def codeTouch (sets ways : Nat) (ls : List CodeLine) (space part a : Nat) : List CodeLine :=
  match codeFind ls space part a with
  | some l => codeAdd sets ways ls l
  | none => ls

/-- The 16-byte aligned fetch units that n bytes at an address lie in (05 R109; notes/assumptions/81.md). -/
def unitsOf (a n : Nat) : List Nat := (upFrom (a / 16) ((a + n + 15) / 16 - a / 16)).map (16 * ·)

/-- The unit at a of a line. -/
def unitOfLine (l : Block) (a : Nat) : BitVec 128 := BitVec.ofNat 128 (blkField l (a % 64) 16)

/-- A unit that a strand's fetch buffer or its core's instruction buffer holds (05 R102). -/
def buffered (sl : Slot) (code : List CodeLine) (space part a : Nat) : Option (BitVec 128) :=
  match sl.units.find? (fun u => u.space == space && u.part == part && u.addr == a) with
  | some u => some u.data
  | none => (codeFind code space part a).map (fun l => unitOfLine l.data a)

/-- The word o bytes into a run of units. -/
def unitWord (ds : List (BitVec 128)) (o : Nat) : Word := BitVec.ofNat 64 (bitsOf (ds.foldr (fun d acc => d.toNat + 2 ^ 128 * acc) 0) (8 * o) 64)

/-- The first word of a literal pair at an offset where one may stand (02 R29). -/
def beginsPair (pc : Nat) (w : Word) : Bool := pc % 16 == 0 && bitsOf w.toNat 62 2 == 2

/-! ## Faults before a word (02 R59, 05 R104, 17 R426 to R428) -/

/-- The generic address of an offset in s7, kept to 64 bits (00 R7, 14 R348). -/
def codeEa (pc : Word) : Word := BitVec.ofNat 64 (7 * 2 ^ 61 + pc.toNat)

/-- The breakpoint entry that the strand's next word hits; none for the first word after a resume. -/
def State.breakAt (s : State) (c i : Nat) : Option Nat :=
  let sl := s.slot c i
  let g := sl.seg 7
  if sl.skipBreak then none else s.breakHit (s.cell c).part sl.gsi g.space (g.base + sl.pc.toNat)

/-- The strand takes BREAKPOINT of an entry. -/
def State.breakTrap (s : State) (c i n : Nat) (word : Word) : State :=
  let pc := (s.slot c i).pc
  s.trap c i ⟨cBreakpoint, 64 + n, some (codeEa pc), 0⟩ false pc word

/-- A failed fetch (05 R104): FETCH with its cause, or BREAKPOINT, which comes first (02 R59). -/
def State.fetchTrap (s : State) (c i cause : Nat) : State :=
  let pc := (s.slot c i).pc
  match s.breakAt c i with
  | some n => s.breakTrap c i n 0
  | none => s.trap c i ⟨cFetch, cause, some (codeEa pc), 0⟩ false pc 0

/-! ## The fetch of a strand's next word (05 R102 to R109) -/

/-- The units of a fetch, and whether one of them came from beyond the core instruction buffer; or the state in which the strand has trapped, has parked, or
waits for a line. -/
inductive Gather where
  | got (s : State) (ds : List (BitVec 128)) (beyond : Bool)
  | stop (s : State)

/-- The moves of a fetched word (02 R27 to R29); none where its form is reserved. -/
def FetchUnit.moves (u : FetchUnit) : List DMove :=
  let w := u.first
  let lit (v : Word) : List DMove := [DMove.ofLit (w.extractLsb' 58 4) (w.extractLsb' 44 14) v]
  match bitsOf w.toNat 62 2 with
  | 0 => [DMove.ofMove (moveOfBits (w.extractLsb' 31 31)) false, DMove.ofMove (moveOfBits (w.extractLsb' 0 31)) true]
  | 1 => lit ((w.extractLsb' 0 44).signExtend 64)
  | 2 => lit u.second
  | _ => []

/-- The move of a word's trigger that accesses a store of the cluster, with its segment and location: a live lsu or amo trigger (06 R124). -/
def State.storeAccess (s : State) (c i : Nat) : Option (MoveVal × Seg × Nat) :=
  let sl := s.slot c i
  match sl.fetch with
  | none => none
  | some u =>
    let ms := (u.moves.filter sl.live).map (fun m => MoveVal.mk m.dst (s.source c i m) m.isB)
    (ms.find? (fun m => isTrigger m.dst && (blockOf m.dst == 0x0B || blockOf m.dst == 0x0C))).map (fun m =>
      let ea := accessEa m.dst m.val (sl.writeMoves ms)
      let g := sl.seg (segNo ea)
      (m, g, g.base + offOf ea))

/-- The banks of n bytes of a core store (07 R154). -/
def banksOf (a n : Nat) : List Nat := (upFrom (a / 8) ((a + n + 7) / 8 - a / 8)).map (· % 32)

/-- The banks of its own core's store that the word of a strand accesses (06 R124, 07 R154). -/
def State.wordBanks (s : State) (c i : Nat) : List Nat :=
  match s.storeAccess c i with
  | none => []
  | some (m, g, l) =>
    if g.space = 1 ∨ (g.space = 2 ∧ bitsOf l 21 7 = c % 96) then
      banksOf (l % 2 ^ 21) (if blockOf m.dst = 0x0B then lsuBytes (opOf m.dst) else amoWidth ((s.slot c i).operand 0x50))
    else []

/-- The word of a strand accesses the store of its own core (06 R124). -/
def State.usesBank (s : State) (c i : Nat) : Bool := !(s.wordBanks c i).isEmpty

/-- Fetch units of core space meet a bank that the word in stage 3 accesses: the fetch loses (05 R102). -/
def State.fetchLoses (s : State) (c : Nat) (us : List Nat) : Bool :=
  let k := s.core c
  k.slots.any (fun e => e.2.inPipe && e.2.issuedAt + 2 == k.cycles && (s.wordBanks c e.1).any (fun b => us.any (fun a => (banksOf a 16).contains b)))

/-- Units in core space (05 R102): from the buffers, or the core's own store, whose banks a fetch may lose; it tries again in the next cycle. -/
def State.unitsCore (s : State) (c i : Nat) (us : List Nat) : Gather :=
  let k := s.core c
  let sl := s.slot c i
  let missing := us.filter (fun a => (buffered sl k.code 1 0 a).isNone)
  if !missing.isEmpty && sl.fetchLost != 0 && sl.fetchAt == k.cycles then .stop s
  else if s.fetchLoses c missing then .stop (s.setSlot c i { sl with fetchLost := sl.fetchLost + 1, fetchAt := k.cycles })
  else
  match missing.find? (fun a => k.store.lost 8 a 16) with
  | some a => .stop ((s.countCore c a 16).fetchTrap c i 5)
  | none =>
    let ds := us.map (fun a => (buffered (s.slot c i) k.code 1 0 a).getD (BitVec.ofNat 128 (k.store.read a 16)))
    let code := us.foldl (fun ls a =>
      if missing.contains a && !k.store.lost 8 (a / 64 * 64) 64 then codeAdd 64 4 ls ⟨1, 0, a / 64 * 64, k.store.block (a / 64 * 64)⟩
      else codeTouch 64 4 ls 1 0 a) k.code
    .got (s.setCore c { k with code := code }) ds !missing.isEmpty

/-- The strand waits for a line of the cluster instruction cache: it joins the miss that is outstanding for it, or one begins; at most 32
are outstanding, and those beyond them wait in order of arrival (05 R108). -/
def State.askLine (s : State) (cl part a c i : Nat) : State :=
  let q := s.cluster cl
  if q.misses.any (fun m => m.part == part && m.addr == a) then
    s.setCluster cl { q with misses := q.misses.map (fun m => if m.part = part ∧ m.addr = a then { m with asks := m.asks ++ [(c, i)] } else m) }
  else
    let s := s.setCluster cl { q with misses := q.misses ++ [⟨part, a, [(c, i)]⟩] }
    if q.misses.length < 32 then s.push (.clusterIcacheReply cl part a) else s

/-- One unit in device space (05 R102, R104, R108): from the buffers, or the cluster instruction cache, which asks for a line that it does not
hold. A line with an uncorrectable granule is not kept; a line in a region under repair is asked for, and its fill waits there (05 R104). -/
def State.unitDevice (s : State) (c i a : Nat) : Gather :=
  let part := (s.cell c).part
  let cl := clusterOf c
  let r := s.lookup cl part a
  let s := r.1
  match r.2 with
  | none => .stop (s.fetchTrap c i 4)
  | some (e, size) =>
    if pteLost e then .stop (s.fetchTrap c i 6)
    else if !pteEx e then .stop (s.fetchTrap c i 4)
    else if !pteP e then
      .stop ((s.pushOnce (.pageWake part a)).setSlot c i { s.slot c i with
        st := .waitPage, age := 0, held := some ⟨.page a, [], (s.slot c i).pc, (s.slot c i).pc, 0, none, []⟩ })
    else
      let k := s.core c
      let q := s.cluster cl
      let line := a / 64 * 64
      let phys (x : Nat) : Nat := pteFrame e + x % size
      match buffered (s.slot c i) k.code 4 part a with
      | some d => .got (s.setCore c { k with code := codeTouch 64 4 k.code 4 part a }) [d] false
      | none =>
        match codeFind q.code 4 part a with
        | some l =>
          let s := s.setCluster cl { q with code := codeAdd 2048 8 q.code l }
          .got (s.setCore c { k with code := codeAdd 64 4 k.code l }) [unitOfLine l.data a] true
        | none =>
          if pteDisc e || !s.memory.lost 32 (phys line) 64 || (s.heldAt (phys line)).isSome then .stop (s.askLine cl part line c i)
          else if s.memory.lost 32 (phys a) 16 then .stop ((s.countStack (phys a) 16).fetchTrap c i 5)
          else .got s [BitVec.ofNat 128 (s.memory.read (phys a) 16)] true

/-- Units in device space, in turn. -/
def State.unitsDevice (s : State) (c i : Nat) : List Nat → Gather
  | [] => .got s [] false
  | a :: r =>
    match s.unitDevice c i a with
    | .stop s => .stop s
    | .got s ds far =>
      match s.unitsDevice c i r with
      | .stop s => .stop s
      | .got s es far' => .got s (ds ++ es) (far || far')

/-- Units of a strand's code. -/
def State.units (s : State) (c i : Nat) (us : List Nat) : Gather :=
  if ((s.slot c i).seg 7).space = 1 then s.unitsCore c i us else s.unitsDevice c i us

/-- The units arrive in the strand's fetch buffer, and the sequential unit with them where the core instruction buffer holds it (05 R102, R105;
notes/assumptions/81.md). Code from beyond that buffer issues no sooner than 12 cycles after the previous issue from the core's own store, with one for each arbitration lost, and 40
from the cluster instruction cache (05 R107). -/
def State.keepUnits (s : State) (c i : Nat) (us : List Nat) (ds : List (BitVec 128)) (beyond : Bool) (first second : Word) : State :=
  let sl := s.slot c i
  let space := (sl.seg 7).space
  let part := if space = 1 then 0 else (s.cell c).part
  let next := us.getLastD 0 + 16
  let kept := (us.zip ds).map (fun x => CodeUnit.mk space part x.1 x.2)
  let ahead := if us.length = 1 then (buffered sl (s.core c).code space part next).toList.map (fun d => CodeUnit.mk space part next d) else []
  let floor := if !beyond then 0 else sl.issuedAt + if space = 1 then 12 + sl.fetchLost else 40
  s.setSlot c i { sl with fetch := some ⟨sl.pc, first, second⟩, units := kept ++ ahead, readyAt := max sl.readyAt floor, fetchLost := 0 }

/-- What can be seen of the first word at the pc before its page's rights are looked at: whether a literal pair begins there, which decides how many bytes the
limit must hold (05 R104, order 3). -/
def State.peekPair (s : State) (c i l : Nat) : Bool :=
  let sl := s.slot c i
  let g := sl.seg 7
  let part := if g.space = 1 then 0 else (s.cell c).part
  let unit (a : Nat) : Option (BitVec 128) :=
    (buffered sl (s.core c).code g.space part a).or
      (if g.space = 1 then some (BitVec.ofNat 128 ((s.core c).store.read a 16))
      else (codeFind (s.cluster (clusterOf c)).code 4 part a).map (fun l => unitOfLine l.data a) |>.or
        (match s.walk part a with
          | .leaf e size _ =>
            if pteP e && !pteLost e then some (if pteDisc e then 0 else BitVec.ofNat 128 (s.memory.read (pteFrame e + a % size) 16)) else none
          | .invalid => none))
  let ds := (unitsOf l 8).map unit
  ds.all (·.isSome) && beginsPair sl.pc.toNat (unitWord (ds.map (·.getD 0)) (l % 16))

/-- n bytes at the pc lie beyond the limit or the extent of s7 (05 R104, order 3). -/
def Slot.codePast (sl : Slot) (n : Nat) : Bool :=
  let g := sl.seg 7
  decide (g.limit < sl.pc.toNat + n) || (g.locate 0 sl.pc.toNat n).isNone

/-- FETCH_ARRIVAL (05 R104, R106): the fetch of a READY strand's next word, in the order of R104. -/
def State.fetchArrival (s : State) (c i : Nat) : State :=
  let sl := s.slot c i
  if sl.st ≠ .ready ∨ sl.fetch.isSome then s
  else
    let g := sl.seg 7
    let l := g.base + sl.pc.toNat
    if g.space ≠ 1 ∧ g.space ≠ 4 then s.fetchTrap c i 3
    else if !g.ex then s.fetchTrap c i 2
    else if sl.codePast 8 || (s.peekPair c i l && sl.codePast 16) then s.fetchTrap c i 1
    else
      match s.units c i (unitsOf l 8) with
      | .stop s => s
      | .got s ds beyond =>
        let first := unitWord ds (l % 16)
        if !beginsPair sl.pc.toNat first then s.keepUnits c i (unitsOf l 8) ds beyond first 0
        else if sl.codePast 16 then s.fetchTrap c i 1
        else
          match s.units c i (unitsOf l 16) with
          | .stop s => s
          | .got s es far => s.keepUnits c i (unitsOf l 16) es (beyond || far) (unitWord es (l % 16)) (unitWord es (l % 16 + 8))

/-- The hold that the fill of a line meets. -/
def State.lineHeld (s : State) (part a : Nat) : Option Nat :=
  match s.walk part a with
  | .leaf e size _ => if pteP e && !pteLost e && !pteDisc e then s.heldAt (pteFrame e + a % size) else none
  | .invalid => none

/-- CLUSTER_ICACHE_REPLY (05 R108): one device read serves every strand that asked for the line; each then finds it. The oldest miss beyond the 32
becomes outstanding. A read that meets a region under repair waits for the end of the hold (15 R382). -/
def State.icacheReply (s : State) (cl part a : Nat) : State :=
  match s.lineHeld part a with
  | some n => s.delay n (.line cl part a)
  | none =>
  let q := s.cluster cl
  let mine (m : CodeMiss) : Bool := m.part == part && m.addr == a
  let asks := (q.misses.filter mine).flatMap (·.asks)
  let rest := q.misses.filter (fun m => !mine m)
  let s := s.setCluster cl { q with misses := rest }
  let s := match rest[31]? with
    | some m => s.pushOnce (.clusterIcacheReply cl m.part m.addr)
    | none => s
  let r := s.lookup cl part a
  let s := match r.2 with
    | some (e, size) =>
      let phys := pteFrame e + a % size
      if pteLost e || !pteP e || (!pteDisc e && r.1.memory.lost 32 phys 64) then r.1
      else
        let q := r.1.cluster cl
        r.1.setCluster cl { q with code := codeAdd 2048 8 q.code ⟨4, part, a, r.1.memLine phys (pteDisc e)⟩ }
    | none => r.1
  asks.foldl (fun s x => s.push (.fetchArrival x.1 x.2)) s

/-! ## Selection (06 R122 to R124) -/

/-- A strand that the Shutter may select in a cycle (02 R53, 06 R116). -/
def Slot.eligible (sl : Slot) (now : Nat) : Bool := sl.st == .ready && decide (sl.readyAt ≤ now) && sl.fetch.isSome

/-- The effective class of a strand (06 R123). -/
def Slot.eff (sl : Slot) : Nat :=
  let b := sl.base.toNat
  if b = 0 then 0 else max 1 ((if sl.yield then 3 else b) - sl.age / 4096)

/-- a is selected rather than b: the smaller class, then the larger age, then the lower slot (06 R123). -/
def ranksBefore (a b : Nat × Slot) : Bool :=
  decide (a.2.eff < b.2.eff)
    || (a.2.eff == b.2.eff && (decide (b.2.age < a.2.age) || (a.2.age == b.2.age && decide (a.1 < b.1))))

/-- The selected strand of a list. -/
def best : List (Nat × Slot) → Option (Nat × Slot)
  | [] => none
  | x :: xs =>
    match best xs with
    | none => some x
    | some y => if ranksBefore x y then some x else some y

/-- The events of a core that come before its next cycle: results and sleeps whose cycle has come, the next delivery of its intake, and a fabric slot for the
word that has waited longest (02 R55, 05 R90, 06 R132, R141, 09 R239, 13 R319). -/
def Core.dueEvents (k : Core) (c : Nat) : List Event :=
  k.slots.flatMap (fun e =>
    let p (r : Nat) : Bool := (e.2.port r).pending && decide ((e.2.port r).due ≤ k.cycles + 1)
    (if p rDiv then [Event.divResult c e.1] else []) ++ (if p rFlt then [Event.fltLongResult c e.1] else [])
      ++ (match e.2.park with
        | some (.sleep (some t)) => if t ≤ k.cycles then [Event.sleepTimeout c e.1] else []
        | _ => []))
    ++ (if k.slotWait.any (k.inLine 3) && decide (k.fabUsed < 16) then [Event.engineSlotGrant c 3] else [])
    ++ (if !k.intake.isEmpty && k.cellD.preempt == .running && !k.cellD.ended && k.freeSlot.isSome then [Event.intakeDelivery c] else [])

/-- Nothing of a core runs: it holds no cell, or every slot is empty, stopped or waits without end, and no engine holds work (18 R453). -/
def Core.gateable (k : Core) : Bool :=
  k.cell.isNone
    || (k.slots.all (fun e => match e.2.st with
        | .free => true
        | .stopped => true
        | .trapped => true
        | .waitSem => true
        | .waitFe => !e.2.holdsFab
        | .waitBar => true
        | .waitMsg => true
        | .waitPool => true
        | .waitJoin => true
        | .waitPage => !e.2.holdsFab
        | .waitQuiet => true
        | .sleep => e.2.park == some (.sleep none)
        | _ => false)
      && k.cpy.cmds.isEmpty && k.mx.cmds.isEmpty && k.vx.cmds.isEmpty && k.fab.cmds.isEmpty)

/-- A strand that would be READY waits for a result port: its next word is fetched, raises none of the faults that come before its reads, and a live move of it
waits (02 R41, R50). -/
def State.waitsForPort (s : State) (c i : Nat) : Bool :=
  let sl := s.slot c i
  match sl.fetch with
  | none => false
  | some u =>
    let live := u.moves.filter sl.live
    (s.breakAt c i).isNone && (match decodeUnit (sl.pc.toNat % 16 == 0) u.first u.second with
        | .ok _ _ => true
        | .illegal _ => false)
      && (sl.level == 1 || !live.any (fun m => needsHandler m.dst)) && !anyConflict live && live.any sl.waitsPort

/-- The strands of a core that would be eligible now and wait for a port are in WAIT_PORT; they use no issue slot (02 R41). -/
def State.portWaits (s : State) (c : Nat) : State :=
  let k := s.core c
  s.setCore c { k with slots := k.slots.map (fun e =>
    if e.2.eligible k.cycles && s.waitsForPort c e.1 then (e.1, { e.2 with st := .waitPort }) else e) }

/-- An access of another agent to a core's store may arrive: an engine of the core has work, another core has a word or a command in progress, or an
access of another device is due (06 R124). -/
def State.rivals (s : State) (c : Nat) : Bool :=
  let works (k : Core) : Bool := !k.cpy.cmds.isEmpty || !k.mx.cmds.isEmpty || !k.vx.cmds.isEmpty || !k.fab.cmds.isEmpty
  works (s.core c) || !(s.die (dieOf c)).col.cmds.isEmpty
    || s.cores.any (fun e => e.1 != c && (works e.2 || e.2.slots.any (fun x => x.2.st == .issued || x.2.st == .waitFe)))
    || s.agenda.any (fun e => match e with
      | .remoteRequest _ => true
      | .messageArrival _ => true
      | _ => false)

/-- A fetch from the core's store that has lost eight arbitrations wins its next one over the word of strand i (05 R102). -/
def State.fetchWins (s : State) (c i : Nat) : Bool :=
  (s.core c).slots.any (fun e =>
    let g := e.2.seg 7
    e.2.st == .ready && e.2.fetch.isNone && decide (8 ≤ e.2.fetchLost) && g.space == 1
      && (unitsOf (g.base + e.2.pc.toNat) 16).any (fun a => (banksOf a 16).any (fun b => (s.wordBanks c i).contains b)))

/-- Stage 3 (06 R122, R124): the word issued two cycles ago wins its bank and its strand's age is 0, or it is squashed and its strand is READY again in the next
cycle; a word whose fetch buffer has been invalidated since is fetched again (05 R111). Which words lose to another agent is left open, but none does after three squashes in a row (notes/assumptions/8.md). It loses to a
fetch that has lost eight times (05 R102). -/
def State.arbitrate (s : State) (c : Nat) : State :=
  let k := s.core c
  match k.slots.find? (fun e => e.2.inPipe && e.2.issuedAt + 2 == k.cycles) with
  | none => s
  | some (i, sl) =>
    let may := s.usesBank c i && decide (sl.squashes < 3)
    let beaten := may && s.fetchWins c i
    let contested := may && !beaten && s.rivals c
    let lose := beaten || (contested && Config.choice s.draws % 2 == 1)
    let s := if contested then { s with draws := s.draws + 1 } else s
    if !lose then s.setSlot c i { sl with age := 0, squashes := 0 }
    else
      let s := s.setSlot c i { sl with
        st := .ready, readyAt := k.cycles + 1, squashes := sl.squashes + 1, fetch := if sl.units.isEmpty then none else sl.fetch }
      if sl.stopReq then s.toStopped c i else s

/-- Stage 2 of the word issued a cycle ago: the free command slots that its engine status ports read (02 R49, R52). -/
def State.readStatus (s : State) (c : Nat) : State :=
  let k := s.core c
  match k.slots.find? (fun e => e.2.inPipe && e.2.issuedAt + 1 == k.cycles) with
  | none => s
  | some (i, sl) => s.setSlot c i { sl with seen := (List.range 5).map (fun u => (u, s.freeSlots c u)) }

/-- Selection (06 R122, R123): the selected strand is ISSUED; every other eligible one ages. -/
def State.select (s : State) (c : Nat) : State :=
  let k := s.core c
  let pick := best (k.slots.filter (fun e => e.2.eligible k.cycles))
  s.setCore c { k with slots := k.slots.map (fun e =>
    if !e.2.eligible k.cycles then e
    else if pick.any (fun p => p.1 == e.1) then (e.1, { e.2 with st := .issued, issuedAt := k.cycles, yield := false, seen := [] })
    else (e.1, { e.2 with age := min (e.2.age + 1) 65535 })) }

/-- The fetches that READY strands of a core without their next word ask for (05 R106). -/
def State.wantedFetches (s : State) (c : Nat) : List Event :=
  let asked (i : Nat) : Bool := s.agenda.contains (.fetchArrival c i) || (s.cluster (clusterOf c)).misses.any (fun m => m.asks.contains (c, i))
  (((s.core c).slotsWhere (fun sl => sl.st == .ready && sl.fetch.isNone && (sl.fetchLost == 0 || sl.fetchAt != (s.core c).cycles))).filter (fun i => !asked i)).map (fun i => .fetchArrival c i)

/-- The core counts a cycle in which it could be gated, and is gated after 1,024 of them in a row (18 R453). -/
def State.countIdle (s : State) (c : Nat) : State :=
  let k := s.core c
  if !k.gateable then s.setCore c { k with idleFor := 0 }
  else
    let s := s.setCore c { k with idleFor := k.idleFor + 1 }
    if 1024 ≤ k.idleFor + 1 then s.pushOnce (.coreClockGate c) else s

/-! ## Before execution (02 R50, R59) -/

/-- What the word in the pipeline is: an instruction to execute, or the state after the trap or the refetch that comes instead. -/
def State.nextWord (s : State) (c i : Nat) : State ⊕ Instr :=
  let sl := s.slot c i
  match sl.fetch with
  | none => .inl { s.setSlot c i { sl with st := .ready } with current := none }
  | some u =>
    match s.breakAt c i with
    | some n => .inl (s.breakTrap c i n u.first)
    | none =>
      match decodeUnit (sl.pc.toNat % 16 == 0) u.first u.second with
      | .ok i' _ => .inr i'
      | .illegal _ => .inl (s.trap c i (bare cIllegalWord) false sl.pc u.first)

/-- The word of a strand in the pipeline raises a fault where it is performed now; a step of R433 is none of the word's. -/
def State.wouldFault (s : State) (c i : Nat) : Bool :=
  let s := (s.mapCell c (fun k => { k with preempt := .running })).setSlot c i { s.slot c i with step := false }
  let trapped (t : State) : Bool := (t.slot c i).st == .trapped
  match s.nextWord c i, (s.slot c i).fetch with
  | .inl t, _ => trapped t
  | .inr _, some u => trapped (s.runAt c i u.moves (if u.moves.length = 1 && bitsOf u.first.toNat 62 2 == 2 then 16 else 8) u.first)
  | .inr _, none => false

/-- The word of a strand accesses its own core's store by core space (02 R52, R54). -/
def State.ownAccess (s : State) (c i : Nat) : Bool := (s.storeAccess c i).any (fun x => x.2.1.space == 1)

/-- The strand whose word is performed in this cycle, the oldest first: in stage 8 it commits; in stage 7 it is the fault of a faulting word that is decided; an access to
the core's own store is performed in stage 5, where the word cannot fault any more, and its registers with it, which nothing reads before the strand's next word (02 R52
to R54). -/
def State.wordDue (s : State) (c : Nat) : Option Nat :=
  let k := s.core c
  let at_ (n : Nat) (p : Nat → Slot → Bool) : Option Nat := (k.slots.find? (fun e => e.2.inPipe && e.2.issuedAt + n == k.cycles && p e.1 e.2)).map (·.1)
  (at_ 7 (fun _ _ => true)).or ((at_ 6 (fun i _ => s.wouldFault c i)).or (at_ 4 (fun i sl => s.ownAccess c i && !sl.step && !s.wouldFault c i)))

/-- SHUTTER_SELECT (02 R52, 06 R123, R124): one cycle of a core, with the work of each stage of its pipeline. A word that is performed in it runs in the
next step, and the next cycle comes when each of them has run. -/
def State.shutterSelect (s : State) (c : Nat) : State :=
  match s.wordDue c with
  | some i => { s with current := some (c, i) }
  | none =>
    let s := s.setCore c { s.core c with cycles := (s.core c).cycles + 1 }
    let s := (((s.arbitrate c).readStatus c).portWaits c).select c
    let s := match s.wordDue c with
      | some i => { s with current := some (c, i) }
      | none => s
    ({ s with agenda := s.agenda ++ (s.core c).dueEvents c }).countIdle c

end Sys2Proof.Machine
end

