-- ==== Sys2Proof/Machine/CoreEvents.lean ====
section
/-! DEFINITION. The events of cores and their controllers: selection, fetch, results, waiting accesses, pages, logs, replies, the
quiescence detector, the intake and remote posts (05 to 08, 15 R390 to R392). -/

namespace Sys2Proof.Machine

/-- The state in which an event has been taken. -/
def State.taken (s : State) : State := { s with event := none }

/-! ## Selection and fetch (05 R106, R108, 06 R123) -/

/-- SHUTTER_SELECT (06 R123). -/
def execShutterSelect (s : State) : Host.Outcome State Fault Refusal :=
  match s.event with
  | some (.shutterSelect c) => .next (s.taken.shutterSelect c)
  | _ => .fault .noSuchEvent

/-- FETCH_ARRIVAL (05 R106). -/
def execFetchArrival (s : State) : Host.Outcome State Fault Refusal :=
  match s.event with
  | some (.fetchArrival c i) => .next (s.taken.fetchArrival c i)
  | _ => .fault .noSuchEvent

/-- CLUSTER_ICACHE_REPLY (05 R108). -/
def execClusterIcacheReply (s : State) : Host.Outcome State Fault Refusal :=
  match s.event with
  | some (.clusterIcacheReply cl part a) => .next (s.taken.icacheReply cl part a)
  | _ => .fault .noSuchEvent

/-! ## Results that come later (05 R90, 06 R132, 09 R239) -/

/-- A pending result port becomes valid, and a strand that waits for it is READY in the next cycle with age 0 (02 R40, R41, 06 R122). -/
def State.portResult (s : State) (c i r : Nat) : State :=
  let sl := s.slot c i
  if !(sl.port r).pending then s
  else
    let sl := sl.deliver r
    s.setSlot c i (if sl.st = .waitPort then { sl with st := .ready, age := 0, readyAt := (s.core c).cycles + 1 } else sl)

/-- DIV_RESULT (05 R90). -/
def execDivResult (s : State) : Host.Outcome State Fault Refusal :=
  match s.event with
  | some (.divResult c i) => .next (s.taken.portResult c i rDiv)
  | _ => .fault .noSuchEvent

/-- FLT_LONG_RESULT (09 R239). -/
def execFltLongResult (s : State) : Host.Outcome State Fault Refusal :=
  match s.event with
  | some (.fltLongResult c i) => .next (s.taken.portResult c i rFlt)
  | _ => .fault .noSuchEvent

/-- SLEEP_TIMEOUT (06 R132): a counted sleep whose count has run out gives 0. -/
def State.sleepTimeout (s : State) (c i : Nat) : State :=
  match (s.slot c i).park with
  | some (.sleep (some t)) => if t ≤ (s.core c).cycles then s.wake c i rStrand 0 else s
  | _ => s

def execSleepTimeout (s : State) : Host.Outcome State Fault Refusal :=
  match s.event with
  | some (.sleepTimeout c i) => .next (s.taken.sleepTimeout c i)
  | _ => .fault .noSuchEvent

/-! ## Waiting accesses (07 R157) -/

/-- The access of a held word has been refused, and lies at no controller until it is sent again (07 R157). -/
def HeldWord.refused (h : HeldWord) : Bool :=
  match h.reply with
  | some (.nack _) => true
  | _ => false

/-- FE_RETRY_RESEND (07 R157): a NACKed access is sent again with its ticket, or withdrawn where its strand has been asked to stop (02 R57). -/
def State.feResend (s : State) (c i : Nat) : State :=
  match (s.slot c i).held with
  | some h => if !h.refused then s else if (s.slot c i).stopReq then s.toStopped c i else s.retry c i
  | none => s

def execFeRetryResend (s : State) : Host.Outcome State Fault Refusal :=
  match s.event with
  | some (.feRetryResend c i) => .next (s.taken.feResend c i)
  | _ => .fault .noSuchEvent

/-- A hold for the lowest ticket of an object ends: it passes to the next (07 R157, 13 R328). -/
def State.expireTicket (s : State) (ctrl : Ctrl) : State :=
  let again (s : State) (l : List Nat) : State := if l.isEmpty then s else s.pushOnce (.ticketHoldExpiry ctrl)
  match ctrl with
  | .core c =>
    let k := s.core c
    let r := { k.retry with outstanding := k.retry.outstanding.drop 1 }
    (s.setCore c { k with retry := r }).holdAgain (.core c) r
  | .stack n =>
    let k := s.stack n
    let r := { k.retry with outstanding := k.retry.outstanding.drop 1 }
    (s.setStack n { k with retry := r }).holdAgain (.stack n) r
  | .ring c r =>
    let k := s.core c
    let t := k.tickets (some r)
    again (s.setCore c (k.setTickets (some r) t.1 (t.2.drop 1))) (t.2.drop 1)
  | .intake c =>
    let k := s.core c
    let t := k.tickets none
    again (s.setCore c (k.setTickets none t.1 (t.2.drop 1))) (t.2.drop 1)

/-- TICKET_HOLD_EXPIRY (07 R157, 13 R328). -/
def execTicketHoldExpiry (s : State) : Host.Outcome State Fault Refusal :=
  match s.event with
  | some (.ticketHoldExpiry ctrl) => .next (s.taken.expireTicket ctrl)
  | _ => .fault .noSuchEvent

/-- The attaches that a pan.attach word waits for are asked back from the members elsewhere (13 R347). -/
def State.askBack (s : State) (c : Nat) : State :=
  let cell := s.cell c
  let p := panId cell.paninfo
  let own := panMember cell.paninfo
  ((s.panAt p).elim [] (fun q => q.asking.filter (fun x => x.1 == own))).foldl (fun s x =>
    s.emit (.remoteRequest (s.request c (attachId p own x.2) 1 x.2 0 ⟨.load, 0, 8, 0, 0, 0⟩ none))) s

/-- Some member of this device that a pan.attach word waits for is PENDING (13 R335). -/
def State.waitsHere (s : State) (c : Nat) (h : HeldWord) : Bool :=
  let cell := s.cell c
  match resolvingMove h.moves with
  | some m => (unanswered (panNamed cell m.val) h.answers).any (fun n => (s.member (panId cell.paninfo) n).elim false (fun mb => mb.device == s.device.toNat))
  | none => false

/-- FE_WITHDRAW (02 R57, 07 R157): a stop asks for a waiting access back. A controller of this device removes it at once, and so does the source of one that has been
refused and is not sent again yet; another device is asked, and its reply decides, but for a page, which the word no longer waits for. A pan.attach that waits for a
PENDING member is withdrawn; one whose answers are only on their way resolves first (13 R347). -/
def State.feTakeBack (s : State) (c i : Nat) : State :=
  let sl := s.slot c i
  match sl.held with
  | some h =>
    if !sl.stopReq then s
    else
      match h.why with
      | .fePeer d => if h.refused then s.toStopped c i else s.emit (.remoteRequest (s.request c i 1 d 0 ⟨.load, 0, 8, 0, 0, 0⟩ none))
      | .peerPage d => (s.emit (.remoteRequest (s.request c i 1 d 0 ⟨.load, 0, 8, 0, 0, 0⟩ none))).toStopped c i
      | .panWait => if s.waitsHere c h then (s.askBack c).toStopped c i else s.askBack c
      | .feAt (.stack n) => if (s.stack n).retry.entries.any (fun x => x.who == .strand c i && s.stuck x) then s else (s.withdrawFe c i).toStopped c i
      | w => if w.withdrawable then (s.withdrawFe c i).toStopped c i else s
  | none => s

def execFeWithdraw (s : State) : Host.Outcome State Fault Refusal :=
  match s.event with
  | some (.feWithdraw c i) => .next (s.taken.feTakeBack c i)
  | _ => .fault .noSuchEvent

/-! ## Pages and the log (07 R171, R173, R175) -/

/-- Two addresses of a partition lie in one page. -/
def State.samePage (s : State) (part a b : Nat) : Bool :=
  match s.walk part a with
  | .leaf _ size _ => a / size == b / size
  | .invalid => a / 2 ^ 16 == b / 2 ^ 16

/-- A strand that waited for a page is READY in the next cycle; its word is fetched and issued again (07 R171). -/
def State.pageRetry (s : State) (c i : Nat) : State :=
  s.setSlot c i { s.slot c i with st := .ready, held := none, fetch := none, age := 0, readyAt := (s.core c).cycles + 1 }

/-- Waiting elements of the copy and matrix engines may be tried again. -/
def State.wakeEngines (s : State) (p : Nat → Bool) : State :=
  (s.cores.filter (fun e => p e.1)).foldl (fun s e =>
    let c := e.1
    let k := s.core c
    let wake (m : Cmd) : Cmd := if m.pend.isEmpty then m else { m with woken := true }
    let cpy := k.cpy.cmds.any (fun m => !m.pend.isEmpty)
    let mx := k.mx.cmds.any (fun m => !m.pend.isEmpty)
    let s := s.setCore c { k with cpy := k.cpy.map (fun _ => true) wake, mx := k.mx.map (fun _ => true) wake }
    let s := if cpy then s.pushOnce (.cpyPiece c) else s
    if mx then s.pushOnce (.mxTransferStart c) else s) s

/-- PAGE_WAKE (07 R171): the page is resolved, and every access that waits for it is woken: words, engine elements, and accesses from
other devices, which are told to try again (13 R323). -/
def State.pageWake (s : State) (part va : Nat) : State :=
  let s := (s.makeResident part va).backPage part va
  let mine (c : Nat) (sl : Slot) : Bool := (s.cell c).part == part && (match sl.held with
    | some h => (match h.why with
      | .page v => s.samePage part va v
      | _ => false)
    | none => false)
  let words := s.cores.flatMap (fun e => (e.2.slots.filter (fun x => mine e.1 x.2)).map (fun x => (e.1, x.1)))
  let hit (r : RemoteReq) : Bool := r.member == part && s.samePage part va (r.acc.addr % 2 ^ 42)
  let far := s.asleep.filter hit
  let s := { s with asleep := s.asleep.filter (fun r => !hit r) }
  let s := far.foldl (fun s r => s.emit (.remoteReply r.srcDev r.srcCore r.srcSlot .wake)) s
  let s := words.foldl (fun s x => s.pageRetry x.1 x.2) s
  s.wakeEngines (fun c => (s.cell c).part == part)

def execPageWake (s : State) : Host.Outcome State Fault Refusal :=
  match s.event with
  | some (.pageWake part va) => .next (s.taken.pageWake part va)
  | _ => .fault .noSuchEvent

/-- LOG_MERGE (07 R173): the manager merges a core's entries, and the words that waited for space are tried again, or retire where their
access has been performed. -/
def State.logMergeEvent (s : State) (c : Nat) : State :=
  let s := s.mergeLog c
  let s := ((s.core c).heldWhere (fun w => w == .logSpace)).foldl (fun s i => match (s.slot c i).held.bind (·.reply) with
    | some (.value v fl) => s.finishAccess c i (some (v.toNat, fl))
    | _ => s.retry c i) s
  s.wakeEngines (fun d => d == c)

def execLogMerge (s : State) : Host.Outcome State Fault Refusal :=
  match s.event with
  | some (.logMerge c) => .next (s.taken.logMergeEvent c)
  | _ => .fault .noSuchEvent

/-! ## Replies of the pool controller and the detector (06 R137, R143, R146) -/

/-- A reply completes a word that is held for it. -/
def State.replyTo (s : State) (c i : Nat) (why : Hold) (op : Ctx → State → Trig) : State :=
  match (s.slot c i).held with
  | some h => if h.why = why then s.completeHeld c i op else s
  | none => s

/-- POOL_REPLY (06 R143). -/
def execPoolReply (s : State) : Host.Outcome State Fault Refusal :=
  match s.event with
  | some (.poolReply c i) => .next (s.taken.replyTo c i .pool poolAnswer)
  | _ => .fault .noSuchEvent

/-- A detector is armed for a new generation (06 R146). -/
def Detector.arm (d : Detector) : Detector := { d with gen := d.gen + 1, armed := true, lastIdle := false }

/-- The panorama's instance of this device is armed: its samples begin, and the other devices learn the generation (06 R146). -/
def State.armPan (s : State) (p : Nat) : State :=
  ((s.mapPan p (fun q => { q with detector := q.detector.arm })).pushOnce (.quiescenceSample true p)).tellDetector p

/-- What q.arm does at an instance of this device (06 R146). -/
def detectorAnswer (cx : Ctx) (s : State) : Trig :=
  let cell := s.cell cx.core
  let pan := armsPan cell cx.m.val
  let s := if pan then s.armPan (panId cell.paninfo)
    else (s.mapLaunch cell.launch (fun l => { l with detector := l.detector.arm })).pushOnce (.quiescenceSample false cell.launch)
  cx.result s rMsg ((s.detectorOf cell pan).gen.setWidth 64)

/-- DETECTOR_REPLY (06 R146). -/
def execDetectorReply (s : State) : Host.Outcome State Fault Refusal :=
  match s.event with
  | some (.detectorReply c i) => .next (s.taken.replyTo c i .detector detectorAnswer)
  | _ => .fault .noSuchEvent

/-! ## The quiescence detector (06 R145 to R147) -/

/-- The idle signal of a core. -/
def State.coreIdle (s : State) (c : Nat) : Bool :=
  let k := s.core c
  k.slots.all (fun e => e.2.idleWait) && s.quietCore c && (k.slotsWhere Slot.holdsFab).isEmpty && k.intake.isEmpty

/-- A core holds a cell of a launch, ended or not. -/
def State.onLaunch (s : State) (l c : Nat) : Bool := (s.core c).cell.any (fun cell => cell.launch == l)

/-- The package core of a flit's DCORE or SCORE (13 R312). -/
def flitCore (w : BitVec 10) : Nat := bitsOf w.toNat 7 3 * 96 + bitsOf w.toNat 0 7

/-- A flit of a launch: it goes to or comes from one of its cores on this device. -/
def State.flitOf (s : State) (l : Nat) (f : Flit) : Bool :=
  (f.src == s.device && s.onLaunch l (flitCore f.score)) || (f.dest == s.device && s.onLaunch l (flitCore f.dcore))

/-- Something of a launch is on its way over the meshes: a post, a message, a spawn, their acknowledgements, a reservation or a barrier arrival. -/
def State.inTransit (s : State) (l : Nat) : Event → Bool
  | .messageAcknowledge c .. => s.onLaunch l c
  | .reserveRequest r => s.onLaunch l r.core || (r.srcDev == s.device.toNat && s.onLaunch l r.srcCore)
  | .creditReturn r => if r.ticket.isSome && r.credits != 0 then r.object.1 == l else s.onLaunch l r.srcCore
  | .remotePostArrival c .. => s.onLaunch l c
  | .messageArrival m => s.onLaunch l m.core
  | .spawnIntakeArrival m => s.onLaunch l m.core
  | .domainBarrierArrival p .. => (s.panAt p).any (fun q => q.members.any (fun m => m.2.launch == some l))
  | _ => false

/-- The idle signal of a launch (06 R145): its cores, those of ended cells whose commands go on too, and the meshes and torus ports of the device. -/
def State.launchIdle (s : State) (l : Nat) : Bool :=
  ((s.cores.map (·.1)).filter (s.onLaunch l)).all s.coreIdle && !s.router.inject.any (s.flitOf l) && !s.agenda.any (s.inTransit l)
    && !s.clusters.any (fun e => e.2.couriers.any (fun m => m.row0 == l))

/-- Some gang of a launch waits to be placed. -/
def Launch.undispatched (l : Launch) : Bool := l.gangs.any (fun e => !e.2.loaded && !e.2.ended && e.2.cluster.isNone)

/-- Every gang has been released, and none is saved: no strand of the launch can run that the samples do not see (06 R146). -/
def Launch.allOut (l : Launch) : Bool := l.gangs.all (fun e => e.2.ended || (e.2.loaded && e.2.saved.isEmpty))

/-- One sample (06 R146). -/
def Detector.sample (d : Detector) (idle mayDeclare : Bool) : Detector :=
  if idle && !d.activity && d.lastIdle && d.armed && mayDeclare then
    { d with declared := d.gen, everDeclared := true, armed := false, lastIdle := idle, activity := false }
  else { d with lastIdle := idle, activity := false }

/-- The strands of a launch that wait for a declared generation are released, each after its acquire (06 R147). -/
def State.releaseQuiet (s : State) (l : Nat) : State :=
  (s.coresOf l).foldl (fun s c =>
    let cell := s.cell c
    let ws := (s.core c).slots.filterMap (fun e => match e.2.park with
      | some (.quiet n) => (s.quietDone cell n).map (fun g => (e.1, g.setWidth 64))
      | _ => none)
    if ws.isEmpty then s else (s.acquire c (if panValid cell.paninfo then 4 else 3)).wakeAll c rMsg ws) s

/-- One sample of a launch's instance, with the count of consecutive quiet samples in which no gang was placed (06 R146, 16 R413). -/
def Detector.count (d : Detector) (idle : Bool) : Detector :=
  { d with quiet := if idle && !d.activity && !d.placedSince then d.quiet + 1 else 0, placedSince := false }

/-- A gang of a launch runs: it has been released, has not ended, and is not saved. -/
def Gang.runs (g : Gang) : Bool := g.loaded && !g.ended && g.saved.isEmpty

/-- A launch that is not CORESIDENT has been quiet at two consecutive samples while gangs of it wait to be placed: some of its gangs run, and none is being loaded or
is saved, which could go on without the others (06 R145, 16 R413). -/
def Launch.deadlocked (l : Launch) : Bool :=
  !l.coresident && l.undispatched && decide (2 ≤ l.detector.quiet) && l.ending.isNone && l.gangs.any (fun e => e.2.runs)
    && l.gangs.all (fun e => e.2.runs || e.2.ended || (!e.2.loaded && e.2.cluster.isNone))

/-- The samples of a launch go on: a generation is armed, or gangs of it wait while others are placed (16 R413). -/
def Launch.sampled (l : Launch) : Bool :=
  l.detector.armed || (l.undispatched && !l.coresident && l.ending.isNone && l.gangs.any (fun e => !e.2.ended && (e.2.loaded || e.2.cluster.isSome)))

/-- A sample of a launch's instance (06 R146, 16 R413). -/
def State.sampleLaunch (s : State) (l : Nat) : State :=
  match s.launchAt l with
  | none => s
  | some la =>
    let idle := s.launchIdle l
    let s := s.mapLaunch l (fun x => { x with detector := (x.detector.count idle).sample idle la.allOut })
    let s := s.releaseQuiet l
    let s := if (s.launchAt l).elim false (·.deadlocked) then s.push (.launchEnd l 0x20 0 0) else s
    if (s.launchAt l).elim false (·.sampled) then s.pushOnce (.quiescenceSample false l) else s

/-- A sample of a panorama's instance at its device (06 R146). What the members on other devices signal is left open (notes/assumptions/21.md). A declaration goes to
their devices (06 R147). -/
def State.samplePan (s : State) (p : Nat) : State :=
  match s.panAt p with
  | none => s
  | some q =>
    let far := !q.abroad || Config.choice s.draws % 2 == 1
    let s := { s with draws := s.draws + 1 }
    let idle := q.launches.all s.launchIdle && far
    let may := q.launches.all (fun x => (s.launchAt x).elim true (·.allOut))
    let d := q.detector.sample idle may
    let s := s.mapPan p (fun q => { q with detector := d })
    if d.armed then (if q.finished then s else s.pushOnce (.quiescenceSample true p))
    else q.launches.foldl (fun (s : State) (x : Nat) => s.releaseQuiet x) (s.tellDetector p)

/-- A sample of an instance: a launch's, or a panorama's (06 R145, R146). -/
def State.quietSample (s : State) (pan : Bool) (n : Nat) : State := if pan then s.samplePan n else s.sampleLaunch n

/-- QUIESCENCE_SAMPLE (06 R146, 16 R413). -/
def execQuiescenceSample (s : State) : Host.Outcome State Fault Refusal :=
  match s.event with
  | some (.quiescenceSample pan n) => .next (s.taken.quietSample pan n)
  | _ => .fault .noSuchEvent

/-- The numbers of a panorama's instance reach a member's device, and the strands that wait there for a declared generation are released (06 R147). Older numbers, which
came late, change nothing. -/
def State.heardDetector (s : State) (p : Nat) (numbers : Nat) (declared : Bool) : State :=
  match s.panAt p with
  | none => s
  | some q =>
    let gen := BitVec.ofNat 32 numbers
    let last := BitVec.ofNat 32 (numbers / 2 ^ 32)
    let d := q.detector
    let newer := decide ((gen - d.gen).toNat < 2 ^ 31)
    let later := declared && (!d.everDeclared || decide ((last - d.declared).toNat < 2 ^ 31))
    let d := { d with gen := if newer then gen else d.gen, declared := if later then last else d.declared, everDeclared := d.everDeclared || declared }
    q.launches.foldl (fun (s : State) (x : Nat) => s.releaseQuiet x) (s.mapPan p (fun q => { q with detector := d }))

/-! ## The intake, posts and barriers from elsewhere (06 R141, 08 R202, R209, 13 R330) -/

/-- The strand of a spawn message (13 R330). -/
def spawnBirth (cell : Cell) (m : Msg) : Birth :=
  { pc := blkWord m.payload 0
    x := ((List.range 6).foldl (fun x k => Table.set x (k + 1) (blkWord m.payload (16 + 8 * k))) []).set 7 m.srcGsi
    segL := cell.segL, segH := cell.segH, fmode := 0, base := BitVec.ofNat 2 (blkBits m.payload 64 2) }

/-- The slot of 0 to 254 that the intake delivers into: the one that the cell's last strand left (06 R129), or the lowest that is free (06 R141). -/
def Core.intakeInto (k : Core) : Option Nat := (k.intakeSlot.filter (fun i => !(k.slot i).occupied)).or k.freeSlot

/-- INTAKE_DELIVERY (06 R141, 13 R328, R330): in the cycle that comes, which has had no delivery yet, the oldest entry becomes a strand, after its
acquire. The strand is READY from the cycle after that one. -/
def State.deliverIntake (s : State) (c : Nat) : State :=
  let k := s.core c
  match k.cell, k.intake, k.intakeInto with
  | some cell, m :: r, some i =>
    if cell.ended || cell.preempt != .running || k.intakeAt == k.cycles + 1 then s
    else
      let s := s.setCore c { k with intake := r, intakeGranted := k.intakeGranted + 1, intakeAt := k.cycles + 1, intakeSlot := none }
      let s := s.create c i (spawnBirth cell m)
      let s := s.setSlot c i { s.slot c i with readyAt := k.cycles + 2 }
      (s.acquire c 4).returnCredit (creditOf m s.device.toNat)
  | _, _, _ => s

def execIntakeDelivery (s : State) : Host.Outcome State Fault Refusal :=
  match s.event with
  | some (.intakeDelivery c) => .next (s.taken.deliverIntake c)
  | _ => .fault .noSuchEvent

/-- A post for a cell that is saved is held in its context (14 R369, R370). -/
def Gang.holdPost (ga : Gang) (c i n : Nat) : Gang :=
  { ga with saved := ga.saved.map (fun e => if savedAt e.2 = c then (e.1, { e.2 with posts := e.2.posts ++ [⟨i, n, none⟩] }) else e) }

/-- A post from elsewhere reaches a core: its cell takes it, or the saved cell that lay there. -/
def State.postArrival (s : State) (c i n : Nat) : State :=
  if (s.core c).cell.isSome then s.postFrom c i n false
  else { s with launches := s.launches.map (fun l => (l.1, { l.2 with gangs := l.2.gangs.map (fun g => (g.1, g.2.holdPost c i n)) })) }

/-- REMOTE_POST_ARRIVAL (08 R202, 10 R260). -/
def execRemotePostArrival (s : State) : Host.Outcome State Fault Refusal :=
  match s.event with
  | some (.remotePostArrival c i n) => .next (s.taken.postArrival c i n)
  | _ => .fault .noSuchEvent

/-- DOMAIN_BARRIER_ARRIVAL (08 R205, R209): an arrival of a cell on another device; kind 6 tells that a cell has ended. One that is here before the commit of its
panorama waits for it. -/
def State.barrierArrival (s : State) (p ch member cell kind : Nat) (v : Word) : State :=
  let h := s.chan 0 true ch
  let key := member * 128 + cell
  if h.owner ≠ some (p, 0) then
    if (s.panAt p).elim true (fun q => !q.committed) then s.push (.domainBarrierArrival p ch member cell kind v) else s
  else if kind = 6 then (s.setChan 0 true ch { h with mask := h.mask.filter (fun k => k != key) }).evalChan 0 true ch
  else (s.setChan 0 true ch (h.arriveFar key kind v)).evalChan 0 true ch

def execDomainBarrierArrival (s : State) : Host.Outcome State Fault Refusal :=
  match s.event with
  | some (.domainBarrierArrival p ch m k kind v) => .next (s.taken.barrierArrival p ch m k kind v)
  | _ => .fault .noSuchEvent

/-! ## The mnt replies (15 R384, R390 to R392) -/

/-- SPAREBUD (15 R384). -/
def Stack.spareBud (k : Stack) : Word :=
  BitVec.ofNat 64 (k.rows % 2 ^ 16 + k.banks % 2 ^ 8 * 2 ^ 16 + k.lanes % 2 ^ 7 * 2 ^ 24 + min k.retired (2 ^ 24 - 1) * 2 ^ 32
    + (if k.xrows then 2 ^ 56 else 0) + (if k.xbanks then 2 ^ 57 else 0) + (if k.xlanes then 2 ^ 58 else 0))

/-- ACTIVE of a repair (15 R391). -/
def Repair.code : Repair → Nat
  | .row .. => 1
  | .frame .. => 1
  | .bank .. => 2
  | .lane _ => 3
  | .retrain _ => 3

/-- The state record of a stack (15 R391). -/
def Stack.record (k : Stack) : Word :=
  BitVec.ofNat 64 (k.active.elim 0 Repair.code + (if k.degraded.isEmpty then 0 else 4) + min k.ce (2 ^ 24 - 1) * 2 ^ 8 + min k.ue 65535 * 2 ^ 32
    + (k.phase.foldl (fun a e => max a e.2.natAbs) 0) % 2 ^ 8 * 2 ^ 48)

/-- The notice at or after n (15 R389, R390). -/
def noticeAt (l : List Word) (n : Nat) : Word :=
  let d (w : Word) : Nat := (bitsOf w.toNat 32 32 + 2 ^ 32 - n) % 2 ^ 32
  (l.filter (fun w => decide (d w < 2 ^ 31))).foldl (fun a w => if a = 0 ∨ d w < d a then w else a) 0

/-- The discards of a range from va on: the bytes discarded (15 R392). -/
def State.discardPages (lo hi part : Nat) : Nat → Nat → Nat → State → State × Nat
  | 0, _, n, s => (s, n)
  | fuel + 1, va, n, s =>
    if hi ≤ va then (s, n)
    else
      match s.walk part va with
      | .invalid => State.discardPages lo hi part fuel (va + 2 ^ 16) n s
      | .leaf e size _ =>
        let b := va / size * size
        if lo ≤ b ∧ b + size ≤ hi ∧ pteWr e then
          let s := if !pteP e && !pteDisc e && !pteLost e then s.dropFrame (pteFrame e) size else s
          let s := s.updateLeaf part va (fun e =>
            (e ||| 0x100) &&& ~~~(if pteLost e then (0x240 : Word) else 0x200))
          State.discardPages lo hi part fuel (b + size) (n + size) s
        else State.discardPages lo hi part fuel (b + size) n s

/-- A page of a range is being migrated: it is marked when that has ended (15 R392). -/
def State.migratingIn (s : State) (part l n : Nat) : Bool :=
  s.hbm.any (fun k => (k.2.active.toList ++ k.2.waiting).any (fun r => match r with
    | .frame f _ => (List.range (n / 2 ^ 16)).any (fun j => match s.walk part (l + j * 2 ^ 16) with
      | .leaf e size _ => pteP e && (pteFrame e + (l + j * 2 ^ 16) % size) / 2 ^ 16 == f
      | .invalid => false)
    | _ => false))

/-- mnt.discard (15 R392). -/
def State.discard (s : State) (c part l n : Nat) : State × Nat :=
  let k := s.core c
  let s := s.setCore c { k with lines := k.lines.filter (fun x => !(x.part == part && decide (l ≤ x.va) && decide (x.va < l + n))) }
  s.discardPages l (l + n) part (n / 2 ^ 16) l 0

/-- What the mnt operations do at their replies (15 R390 to R392). -/
def mntAnswer (cx : Ctx) (s : State) : Trig :=
  let c := cx.core
  let t := cx.m.val
  let n := t.toNat % 16
  match opOf cx.m.dst with
  | 3 => cx.result s rDbg (if 12 ≤ n then ones else (s.stack n).spareBud)
  | 4 => cx.result s rDbg (noticeAt (s.part (s.cell c).part).notices (t.toNat % 2 ^ 32))
  | 5 =>
    if t.getLsbD 63 then
      let k := s.core c
      cx.result s rDbg (BitVec.ofNat 64 (min k.ce (2 ^ 24 - 1) * 2 ^ 8 + min k.ue 65535 * 2 ^ 32))
    else cx.result s rDbg (if 12 ≤ n then ones else (s.stack n).record)
  | _ =>
    match discardRange (s.slot c cx.slot) t with
    | .error f => .fault f
    | .ok (l, n) =>
      let r := s.discard c (s.cell c).part l n
      cx.result r.1 rDbg (BitVec.ofNat 64 r.2)

/-- The held word is an mnt.discard whose range meets a page that is being migrated (15 R392). -/
def State.discardWaits (s : State) (c i : Nat) : Bool :=
  let sl := s.slot c i
  match sl.held with
  | none => false
  | some h =>
    match resolvingMove h.moves with
    | none => false
    | some m =>
      match discardRange (sl.writeMoves h.moves) m.val with
      | .ok (l, n) => h.why == .mnt && opOf m.dst == 6 && s.migratingIn (s.cell c).part l n
      | .error _ => false

/-- The reply to an mnt word; that of a discard waits for the end of a migration (15 R390, R392). -/
def State.mntReply (s : State) (c i : Nat) : State := if s.discardWaits c i then s.push (.mntReply c i) else s.replyTo c i .mnt mntAnswer

/-- MNT_REPLY (15 R390). -/
def execMntReply (s : State) : Host.Outcome State Fault Refusal :=
  match s.event with
  | some (.mntReply c i) => .next (s.taken.mntReply c i)
  | _ => .fault .noSuchEvent

end Sys2Proof.Machine
end

