-- ==== Sys2Proof/Machine/EngineEvents.lean ====
section
/-! DEFINITION. The events of the copy, matrix and vector engines (02 R55, 10 R241 to R262, 11 R265 to R287, 12 R290 to R308). -/

namespace Sys2Proof.Machine

/-- ENGINE_SLOT_GRANT (02 R55): the word that has waited longest for a slot of the unit issues its trigger again. -/
def State.slotGrant (s : State) (c unit : Nat) : State :=
  let k := s.core c
  match k.slotWait.find? (k.inLine unit) with
  | some (i, _) =>
    if s.freeSlots c unit = 0 then s
    else
      let s := s.retry c i
      let again : Bool := match (s.slot c i).held with
        | some h => h.why == .engine unit
        | none => false
      if again then s else (s.leaveLine c i).slotFreed c unit
  | none => s

def execEngineSlotGrant (s : State) : Host.Outcome State Fault Refusal :=
  match s.event with
  | some (.engineSlotGrant c unit) => .next (s.taken.slotGrant c unit)
  | _ => .fault .noSuchEvent

/-! ## The copy engine (10 R241, R259, R261) -/

/-- A change of a command of a core's copy engine. -/
def State.mapCpy (s : State) (c seq : Nat) (f : Cmd → Cmd) : State :=
  let k := s.core c
  s.setCore c { k with cpy := k.cpy.map (fun m => m.seq == seq) f }

/-- The command that starts next: commands start in acceptance order, a SERIAL one after all earlier ones have finished (10 R241, R261). -/
def nextStart : List Cmd → Bool → Option Cmd
  | [], _ => none
  | m :: r, done =>
    if m.active then nextStart r (done && m.finished)
    else if cpySerial m.blk && !done then none
    else some m

/-- CPY_ACTIVATE (10 R241): one command enters an active position. -/
def State.cpyActivate (s : State) (c : Nat) : State :=
  let e := (s.core c).cpy
  if 8 ≤ (e.cmds.filter (fun m => m.active && !m.finished)).length then s
  else
    match nextStart e.cmds true with
    | none => s
    | some m =>
      let s := (s.mapCpy c m.seq (fun m => { m with active := true })).pushOnce (.cpyPiece c)
      if (nextStart (s.core c).cpy.cmds true).isSome then s.pushOnce (.cpyActivate c) else s

def execCpyActivate (s : State) : Host.Outcome State Fault Refusal :=
  match s.event with
  | some (.cpyActivate c) => .next (s.taken.cpyActivate c)
  | _ => .fault .noSuchEvent

/-- The command whose turn it is: the first with something to do after the one last served (10 R241). -/
def Engine.turnOf (e : Engine) : Option Cmd :=
  match ((e.cmds.dropWhile (fun m => m.seq != e.turn)).drop 1).find? Cmd.ready with
  | some m => some m
  | none => e.cmds.find? Cmd.ready

/-- CPY_PIECE (10 R241, R262): one piece of the command whose turn it is. -/
def State.cpyPiece (s : State) (c : Nat) : State :=
  match (s.core c).cpy.turnOf with
  | none => s
  | some m =>
    let r := s.cpyStep m
    let m' := { r.2 with finished := r.2.through, wrote := [] }
    let s := (r.1.heal c r.2.wrote).mapCpy c m.seq (fun _ => m')
    let k := s.core c
    let s := s.setCore c { k with cpy := { k.cpy with turn := m.seq } }
    let s := if m'.cpyReads then s else s.retryFences c
    let s := if m'.finished then ((s.pushOnce (.cpyCompletion c m.seq)).pushOnce (.cpyActivate c)) else s
    if ((s.core c).cpy.cmds.any Cmd.ready) then s.pushOnce (.cpyPiece c) else s

def execCpyPiece (s : State) : Host.Outcome State Fault Refusal :=
  match s.event with
  | some (.cpyPiece c) => .next (s.taken.cpyPiece c)
  | _ => .fault .noSuchEvent

/-- A copy engine without a command; the turn stays where it was, with the command before it (10 R241). -/
def Engine.leave (e : Engine) (seq : Nat) : Engine :=
  { e with cmds := e.cmds.filter (fun x => x.seq != seq)
           turn := if e.turn = seq then ((e.cmds.takeWhile (fun x => x.seq != seq)).getLast?).elim seq (·.seq) else e.turn }

/-- CPY_COMPLETION (10 R259): status, then the post, then the slot frees. -/
def State.cpyComplete (s : State) (c seq : Nat) : State :=
  match (s.core c).cpy.cmds.find? (fun m => m.seq == seq && m.finished) with
  | none => s
  | some m =>
    let s := ((s.putStatus c m.loc 48 8 m.status1).putStatus c m.loc 56 8 m.status0).postDone c m.port
    let k := s.core c
    let s := s.setCore c { k with cpy := k.cpy.leave seq }
    (s.afterCmd c 0).pushOnce (.cpyActivate c)

def execCpyCompletion (s : State) : Host.Outcome State Fault Refusal :=
  match s.event with
  | some (.cpyCompletion c seq) => .next (s.taken.cpyComplete c seq)
  | _ => .fault .noSuchEvent

/-! ## The matrix engine (11 R265, R278, R285, R287) -/

/-- The own command of a core's matrix engine with a number. -/
def State.mxCmd (s : State) (c seq : Nat) : Option Cmd := (s.core c).mx.cmds.find? (fun m => m.parent.isNone && m.seq == seq)

/-- A slot of core c's matrix engine has freed: the words and the parts that wait for one may go on. -/
def State.mxFreed (s : State) (c : Nat) : State :=
  let asks := s.cores.flatMap (fun e => (e.2.mx.cmds.filter (fun m => m.waiting.contains c)).map (fun m => (e.1, m.seq)))
  asks.foldl (fun s a => s.pushOnce (.mxPartAccept a.1 a.2 c)) (s.slotFreed c 1)

/-- A command that waits for no core and no part has finished. -/
def State.mxSettle (s : State) (c seq : Nat) : State :=
  match s.mxCmd c seq with
  | some m =>
    if m.waiting.isEmpty && m.parts == 0 && !m.finished then
      ((s.mapMx c seq (fun m => { m with finished := true })).retryFences c).pushOnce (.mxCompletion c seq)
    else s
  | none => s

/-- Every grid core has answered: the word of mx.gmma retires (11 R278). -/
def State.gmmaAnswered (s : State) (c seq : Nat) : State :=
  match s.mxCmd c seq with
  | some m =>
    if m.waiting.isEmpty then
      s.replyTo c m.slot (.gmma seq) (fun cx s => cx.result s rMx (BitVec.ofNat 64 seq))
    else s
  | none => s

/-- MX_PART_ACCEPT (11 R278): a grid core accepts its part, after waiting for a slot, or has no cell of the gang. -/
def State.mxPartAccept (s : State) (c seq target : Nat) : State :=
  match s.mxCmd c seq with
  | none => s
  | some m =>
    if !m.waiting.contains target then s
    else
      let cell := s.cell c
      let here := match (s.core target).cell with
        | some k => k.launch == cell.launch && k.gang == cell.gang && !k.ended
        | none => false
      let answered (m : Cmd) : Cmd := { m with waiting := m.waiting.filter (fun t => t != target) }
      if !here then
        let s := s.mapMx c seq (fun m => { answered m with fault := minFault m.fault cSegRights })
        (s.gmmaAnswered c seq).mxSettle c seq
      else if s.freeSlots target 1 = 0 then s
      else
        let place := (gridCores c cell.geom (passOf m.blk)).find? (fun g => g.1 == target)
        let s := s.mxEnter m target (place.elim 0 (·.2.1)) (place.elim 0 (·.2.2))
        (s.mapMx c seq (fun m => { answered m with parts := m.parts + 1 })).gmmaAnswered c seq

def execMxPartAccept (s : State) : Host.Outcome State Fault Refusal :=
  match s.event with
  | some (.mxPartAccept c seq target) => .next (s.taken.mxPartAccept c seq target)
  | _ => .fault .noSuchEvent

/-- The bytes of a granule by its memory: an accumulator element, device memory, or a store or B plane. -/
def granuleBytes (k : Nat) : Nat := if k / 2 ^ 48 < 2000 then 8 else if k / 2 ^ 48 < 3000 then 4 else 32

/-- A finished part goes into its command: flags, the smallest fault, and the bytes of granules that no other part met
(11 R284, R287). -/
def Cmd.mergePart (m p : Cmd) : Cmd :=
  let new := p.lost.filter (fun k => !m.lost.contains k)
  { m with flags := m.flags ||| p.flags, fault := minFault m.fault p.fault, dropped := m.dropped + (new.map granuleBytes).sum
           lost := m.lost ++ new, parts := m.parts - 1 }

/-- The end of a pass: a part leaves its core's engine, an own command waits for its completion. -/
def State.passDone (s : State) (m : Cmd) : State :=
  match m.parent with
  | some (d, q) =>
    let k := s.core m.core
    let s := s.setCore m.core { k with mx := { k.mx with cmds := k.mx.cmds.filter (fun x => !x.same m) } }
    let s := ((s.mapMx d q (fun x => x.mergePart m)).mxSettle d q).mxFreed m.core
    (s.answerDrains).tryReturn m.core
  | none => ((s.putMx m).retryFences m.core).pushOnce (.mxCompletion m.core m.seq)

/-- MX_PASS_START (11 R265): the next pass or part takes the array. -/
def State.mxPass (s : State) (c : Nat) : State :=
  match nextOn Cmd.isPass (s.core c).mx.cmds 0 with
  | none => s
  | some m =>
    let r := s.runPass m
    (r.1.passDone r.2).mxKick c

def execMxPassStart (s : State) : Host.Outcome State Fault Refusal :=
  match s.event with
  | some (.mxPassStart c) => .next (s.taken.mxPass c)
  | _ => .fault .noSuchEvent

/-- MX_TRANSFER_START (11 R265, R280): the next transfer runs, or its elements whose wait has ended. -/
def State.mxTransfer (s : State) (c : Nat) : State :=
  match nextOn Cmd.isTransfer (s.core c).mx.cmds 0 with
  | none => s
  | some m =>
    if m.last ≤ m.first && !m.woken then s
    else
      let r := s.runTransfer m
      let s := (r.1.heal c r.2.wrote).putMx { r.2 with wrote := [] }
      if r.2.finished then (((s.retryFences c).pushOnce (.mxCompletion c m.seq)).mxKick c) else s

def execMxTransferStart (s : State) : Host.Outcome State Fault Refusal :=
  match s.event with
  | some (.mxTransferStart c) => .next (s.taken.mxTransfer c)
  | _ => .fault .noSuchEvent

/-- MX_COMPLETION (11 R284, R285): passes, and transfers among themselves, complete in entry order. -/
def State.mxComplete (s : State) (c seq : Nat) : State :=
  match s.mxCmd c seq with
  | none => s
  | some m =>
    let before := (s.core c).mx.cmds.takeWhile (fun x => !(x.parent.isNone && x.seq == seq))
    if !m.finished || before.any (fun x => x.parent.isNone && x.isTransfer == m.isTransfer) then s
    else
      let s := (s.putStatus c m.loc 60 4 m.status).postDone c m.port
      let k := s.core c
      let s := s.setCore c { k with mx := { k.mx with cmds := k.mx.cmds.filter (fun x => !(x.parent.isNone && x.seq == seq)) } }
      let s := ((s.core c).mx.cmds.filter (fun x => x.parent.isNone && x.finished)).foldl (fun s x => s.pushOnce (.mxCompletion c x.seq)) s
      ((s.mxFreed c).afterCmd c 1).mxKick c

def execMxCompletion (s : State) : Host.Outcome State Fault Refusal :=
  match s.event with
  | some (.mxCompletion c seq) => .next (s.taken.mxComplete c seq)
  | _ => .fault .noSuchEvent

/-! ## The vector engine (12 R290, R305, R306) -/

/-- Puts the first command of a core's vector engine. -/
def State.putVx (s : State) (c : Nat) (m : Cmd) : State :=
  let k := s.core c
  s.setCore c { k with vx := { k.vx with cmds := m :: k.vx.cmds.drop 1 } }

/-- What follows a chunk or the start: the next chunk, or the completion. -/
def State.vxNext (s : State) (c : Nat) (m : Cmd) : State :=
  if m.finished then (s.retryFences c).pushOnce (.vxCompletion c m.seq) else s.pushOnce (.vxChunk c)

/-- VX_COMMAND_START (12 R290). -/
def State.vxStart (s : State) (c : Nat) : State :=
  match (s.core c).vx.cmds with
  | m :: _ => if m.active then s else let m := s.vxBegin m; (s.putVx c m).vxNext c m
  | [] => s

def execVxCommandStart (s : State) : Host.Outcome State Fault Refusal :=
  match s.event with
  | some (.vxCommandStart c) => .next (s.taken.vxStart c)
  | _ => .fault .noSuchEvent

/-- VX_CHUNK (12 R306). -/
def State.vxChunk (s : State) (c : Nat) : State :=
  match (s.core c).vx.cmds with
  | m :: _ =>
    if !m.active || m.finished then s
    else
      let r := s.vxStep m
      let m' := { r.2 with wrote := [] }
      ((r.1.heal c r.2.wrote).putVx c m').vxNext c m'
  | [] => s

def execVxChunk (s : State) : Host.Outcome State Fault Refusal :=
  match s.event with
  | some (.vxChunk c) => .next (s.taken.vxChunk c)
  | _ => .fault .noSuchEvent

/-- VX_COMPLETION (12 R305, R306). -/
def State.vxComplete (s : State) (c seq : Nat) : State :=
  match (s.core c).vx.cmds with
  | m :: r =>
    if m.seq ≠ seq || !m.finished then s
    else
      let s := (s.putStatus c m.loc 60 4 m.status).postDone c m.port
      let k := s.core c
      let s := (s.setCore c { k with vx := { k.vx with cmds := r } }).afterCmd c 2
      if (s.core c).vx.cmds.isEmpty then s else s.pushOnce (.vxCommandStart c)
  | [] => s

def execVxCompletion (s : State) : Host.Outcome State Fault Refusal :=
  match s.event with
  | some (.vxCompletion c seq) => .next (s.taken.vxComplete c seq)
  | _ => .fault .noSuchEvent

end Sys2Proof.Machine
end

