-- ==== Sys2Proof/Machine/FabEvents.lean ====
section
/-! DEFINITION. The events of the fabric unit, of panoramas and of the collective engine, at the source and at the target (13 R316 to
R346). -/

namespace Sys2Proof.Machine

/-! ## Replies at the source (13 R322, R323, R335) -/

/-- The generic address of a held access. -/
def State.heldEa (s : State) (c i : Nat) (h : HeldWord) : Word :=
  match resolvingMove h.moves with
  | some m => accessEa m.dst m.val ((s.slot c i).writeMoves h.moves)
  | none => 0

/-- A word that is held keeps its reply, its reason and its slot state as given. -/
def State.rehold (s : State) (c i : Nat) (h : HeldWord) (st : SlotState) : State :=
  s.setSlot c i { s.slot c i with st := st, age := 0, held := some h }

/-- The reply of an access to another device: its value, DATA_LOST, a fault, a NACK that is sent again or that grants a withdrawal, or a
page reply (13 R322, R323, 02 R57). -/
def State.accessReply (s : State) (c i device : Nat) (h : HeldWord) (rep : Reply) : State :=
  match rep with
  | .value v fl => s.finishAccess c i (some (v.toNat, fl))
  | .lost .. => s.finishAccess c i none
  | .fault code => s.faultHeld c i h (faultAt code (s.heldEa c i h))
  | .nack t =>
    if (s.slot c i).stopReq then s.toStopped c i
    else (s.rehold c i { h with reply := some (.nack t) } .waitFe).push (.feRetryResend c i)
  | .page =>
    if (s.slot c i).stopReq then s.toStopped c i
    else s.rehold c i { h with why := .peerPage device, reply := none } .waitPage
  | .wake => s

/-- The reply of a stop that a word waits for (06 R135, 14 R360). -/
def stopAnswer (j serial : Nat) (cx : Ctx) (s : State) : Trig :=
  let c := cx.core
  let tgt := s.slot c j
  let here := tgt.occupied && tgt.serial.toNat == serial
  if blockOf cx.m.dst = 0x0E then
    if here then cx.result (s.killStrand c j ((s.slot c cx.slot).operand 0x48)) rStrand 1 else cx.result s rStrand 0
  else cx.result s rSys (if !here then ones else if tgt.st = .stopped then 1 else 0)

/-- The cores of this device that hold cells of a member. -/
def State.memberCores (s : State) (p m : Nat) : List Nat :=
  (s.cores.filter (fun e => match e.2.cell with
    | some k => panValid k.paninfo && panId k.paninfo == p && panMember k.paninfo == m
    | none => false)).map (·.1)

/-- The number of members that refused. -/
def refusals (ans : Table Nat) : Nat := (ans.filter (fun e => e.2 != 0)).length

/-- The named members answer where they can; a pan.attach word retires when all have (13 R335). -/
def State.attachProgress (s : State) (c i : Nat) : State :=
  match (s.slot c i).held with
  | none => s
  | some h =>
    match h.why, resolvingMove h.moves with
    | .panWait, some m =>
      let cell := s.cell c
      let named := panNamed cell m.val
      let r := named.foldl (fun (a : State × Table Nat) x => a.1.attachOne cell a.2 x) (s, h.answers)
      let s := r.1
      if (unanswered named r.2).isEmpty then s.completeHeld c i (fun cx s => cx.result s rFab (BitVec.ofNat 64 (refusals r.2)))
      else s.rehold c i { h with answers := r.2 } .issued
    | _, _ => s

/-- The strands of a member's cells whose pan.attach word waits: core and slot. -/
def State.attachers (s : State) (p own : Nat) : List (Nat × Nat) :=
  (s.memberCores p own).flatMap (fun c => ((s.core c).heldWhere (fun w => w == .panWait)).map (fun i => (c, i)))

/-- A member's answer to an attach of member own of a panorama: 0 for accepted. An attach that was taken back stops the words that were asked to stop, and is made again
where another word still waits for it (13 R335, R347). -/
def State.attachReply (s : State) (p own m : Nat) (rep : Reply) : State :=
  let s := s.mapPan p (fun q => { q with asking := q.asking.filter (fun x => x != (own, m)) })
  let waits (s : State) (x : Nat × Nat) : Bool := match (s.slot x.1 x.2).held.bind (fun h => (resolvingMove h.moves).map (fun mv => (h, mv))) with
    | some (h, mv) => (unanswered (panNamed (s.cell x.1) mv.val) h.answers).contains m
    | none => false
  match rep with
  | .value v _ =>
    let a := if v = 0 then 0 else 1
    let s := if a = 0 then s.holdMember p own m else s
    (s.attachers p own).foldl (fun s x => match (s.slot x.1 x.2).held with
      | some h => if waits s x then (s.rehold x.1 x.2 { h with answers := h.answers.set m a } .issued).attachProgress x.1 x.2 else s
      | none => s) s
  | .nack _ =>
    let ws := (s.attachers p own).filter (waits s)
    let asked (x : Nat × Nat) : Bool := (s.slot x.1 x.2).stopReq
    let s := (ws.filter asked).foldl (fun s x => s.toStopped x.1 x.2) s
    match ws.find? (fun x => !asked x) with
    | some x => s.askMembers x.1 [m]
    | none => s
  | _ => s

/-- REMOTE_ACCESS_REPLY (02 R54, 13 R322, R323): for a strand's word, for an engine command, whose number counts from 256, or for an attach. -/
def State.remoteReply (s : State) (c i : Nat) (rep : Reply) : State :=
  if 2 ^ 34 ≤ i then s.attachReply ((i - 2 ^ 34) / 512 / 512) ((i - 2 ^ 34) / 512 % 512) ((i - 2 ^ 34) % 512) rep
  else if 256 ≤ i then
    let seq := i - 256
    (s.mapCpy c seq (fun m =>
      if rep = .wake then { m with sleeping := m.sleeping.map (fun t => { t with reply := some .wake }) }
      else { m with transit := m.transit.map (fun t => { t with reply := some rep }) })).pushOnce (.cpyPiece c)
  else
    match (s.slot c i).held with
    | none => s
    | some h =>
      match h.why with
      | .remote d => s.accessReply c i d h rep
      | .fePeer d => s.accessReply c i d h rep
      | .peerPage _ => if rep = .wake then s.pageRetry c i else s
      | .stopping j n => s.completeHeld c i (stopAnswer j n)
      | .detector =>
        match rep with
        | .value v _ => s.completeHeld c i (fun cx s => cx.result s rMsg (v.setWidth 64))
        | _ => s
      | .panReply =>
        match rep with
        | .value v _ => s.completeHeld c i (fun cx s => cx.result s rFab (v.setWidth 64))
        | .fault code => s.faultHeld c i h (bare code)
        | _ => s
      | _ => s

def execRemoteAccessReply (s : State) : Host.Outcome State Fault Refusal :=
  match s.event with
  | some (.remoteAccessReply c i rep) => .next (s.taken.remoteReply c i rep)
  | _ => .fault .noSuchEvent

/-! ## Requests at the target (13 R321 to R323, R335, R336) -/

/-- The answer to a request. -/
def State.answer (s : State) (r : RemoteReq) (rep : Reply) : State := s.emit (.remoteReply r.srcDev r.srcCore r.srcSlot rep)

/-- The 8-byte halves of n bytes that a mask of lost bytes touches. -/
def lostHalves (mask : Nat) : Nat := (if bitsOf mask 0 8 = 0 then 0 else 1) + (if bitsOf mask 8 8 = 0 then 0 else 2)

/-- The answer to an access at a controller; lost is what its uncorrectable bytes leave of a read. -/
def State.answerAccess (s : State) (r : RemoteReq) (a : AccRes) (lost : Reply) : State :=
  match a with
  | .done v fl => s.answer r (.value (BitVec.ofNat 128 v) fl)
  | .lost => s.answer r lost
  | .parked => s
  | .nacked t => s.answer r (.nack t)

/-- A panorama access at the member's core (13 R321). -/
def State.panTarget (s : State) (r : RemoteReq) : State :=
  match s.member r.panid r.member with
  | none => s.answer r (.fault cSegRights)
  | some mb =>
    let c := mb.cluster * 96 + r.core
    let ok := match (s.core c).cell with
      | some cell => panValid cell.paninfo && panId cell.paninfo == r.panid && panMember cell.paninfo == r.member
      | none => false
    if s.frozenPan r.panid then s.answer r (.nack 0)
    else if !ok then s.answer r (.fault cSegRights)
    else
      let a := r.acc.addr % 2 ^ 21
      let m := (s.core c).store
      let lost := Reply.lost (BitVec.ofNat 128 (m.read a r.acc.n)) (lostHalves (lostBytes 8 m a r.acc.n))
      let x := s.coreAccess c ⟨{ r.acc with addr := a }, .remote r⟩ r.ticket
      let s := if x.2 = .lost then x.1.countCore c a r.acc.n else x.1
      match x.2, r.post with
      | .done .., some (sem, n) =>
        if (s.cell c).sems ≤ sem then s.answer r (.value 1 0) else (s.postFrom c sem n false).answer r (.value 0 0)
      | a, _ => s.answerAccess r a lost

/-- A domain access at the device memory of the peer partition, which admits the binding (13 R318, R321, R323; 07 R173). -/
def State.domainTarget (s : State) (r : RemoteReq) : State :=
  let part := r.member
  let va := r.acc.addr % 2 ^ 42
  let q := s.part part
  if !(q.bind.has r.srcDev && q.bind.get 0 r.srcDev == r.srcPart) then s.answer r (.fault cSegRights)
  else
    let phys := match s.walk part va with
      | .leaf e size _ => pteFrame e + va % size
      | .invalid => 0
    let lost := Reply.lost (BitVec.ofNat 128 (s.memory.read phys r.acc.n)) (lostHalves (lostBytes 32 s.memory phys r.acc.n))
    let x := s.deviceAccess 0 part ⟨{ r.acc with addr := va }, .remote r⟩ r.ticket
    match x.2 with
    | .fault code => x.1.answer r (.fault code)
    | .held n => x.1.delay n (.far r)
    | .page => ({ x.1 with asleep := x.1.asleep ++ [r] }.answer r .page).pushOnce (.pageWake part va)
    | .res a =>
      let s := if a = .lost then x.1.countStack phys r.acc.n else x.1
      let s := match a with
        | .done .. => if accWrites r.acc then s.setDirtyBit part va else s
        | _ => s
      s.answerAccess r a lost

/-- An access of a source is the one it asks back. -/
def Waiter.from_ (r : RemoteReq) (x : Waiter) : Bool :=
  match x.who with
  | .remote q => q.srcDev == r.srcDev && q.srcCore == r.srcCore && q.srcSlot == r.srcSlot
  | .strand .. => false

/-- A source asks its waiting access back (02 R57): it is removed from the list where it waits, and the accesses behind it are served. One that sleeps for a page, and an
attach that waits for a PENDING member, are forgotten; an attach already answered stays (13 R347). -/
def State.withdrawRemote (s : State) (r : RemoteReq) : State :=
  match s.cores.find? (fun e => e.2.retry.entries.any (Waiter.from_ r)) with
  | some (c, k) =>
    (s.serveCore c { k.retry with entries := k.retry.entries.filter (fun x => !Waiter.from_ r x) }).answer r (.nack 0)
  | none =>
    match s.hbm.find? (fun e => e.2.retry.entries.any (Waiter.from_ r)) with
    | some (n, k) =>
      (s.serveStack n { k.retry with entries := k.retry.entries.filter (fun x => !Waiter.from_ r x) }).answer r (.nack 0)
    | none =>
      if 2 ^ 34 ≤ r.srcSlot then
        let mine (q : RemoteReq) : Bool := q.srcDev == r.srcDev && q.srcSlot == r.srcSlot
        if s.pans.any (fun e => e.2.asks.any mine) then
          { s with pans := s.pans.map (fun (e : Nat × Panorama) => (e.1, { e.2 with asks := e.2.asks.filter (fun q => !mine q) })) }.answer r (.nack 0)
        else s
      else { s with asleep := s.asleep.filter (fun q => !(q.srcDev == r.srcDev && q.srcCore == r.srcCore && q.srcSlot == r.srcSlot)) }

/-- The answer of a member to an attach request, as the source reads it. -/
def attachCode (ok : Bool) : Reply := .value (if ok then 0 else 1) 0

/-- REMOTE_REQUEST (13 R321 to R323, R335, R336; 06 R146, R147). -/
def State.remoteRequest (s : State) (r : RemoteReq) : State :=
  match r.space with
  | 0 =>
    let a := s.attachLocal r.panid r.member r.srcMember (r.acc.fe == 1)
    match a.2 with
    | some ok => a.1.answer r (attachCode ok)
    | none => a.1.mapPan r.panid (fun q => { q with asks := q.asks ++ [r] })
  | 1 => s.withdrawRemote r
  | 2 =>
    match s.member r.panid r.member with
    | some mb => s.answer r (.value ((panRecord mb r.srcMember r.member).setWidth 128) 0)
    | none => s.answer r (.value 3 0)
  | 5 => s.domainTarget r
  | 6 =>
    let s := s.armPan r.panid
    s.answer r (.value (((s.panAt r.panid).elim 0 (fun q => q.detector.gen)).setWidth 128) 0)
  | 7 => s.heardDetector r.panid r.acc.data.toNat (r.acc.fe == 1)
  | _ => s.panTarget r

def execRemoteRequest (s : State) : Host.Outcome State Fault Refusal :=
  match s.event with
  | some (.remoteRequest r) => .next (s.taken.remoteRequest r)
  | _ => .fault .noSuchEvent

/-- The attaches that wait for PENDING members of a panorama are answered (13 R335). -/
def State.answerAttaches (s : State) (p : Nat) : State :=
  let asks := match s.panAt p with
    | some q => q.asks
    | none => []
  let s := s.mapPan p (fun q => { q with asks := [] })
  let s := asks.foldl (fun s r => s.remoteRequest r) s
  let words := s.cores.flatMap (fun e => (e.2.heldWhere (fun w => w == .panWait)).map (fun i => (e.1, i)))
  words.foldl (fun s x => if panId (s.cell x.1).paninfo = p then s.attachProgress x.1 x.2 else s) s

/-! ## Reservations (13 R328) -/

/-- RESERVE_REQUEST (13 R328). -/
def execReserveRequest (s : State) : Host.Outcome State Fault Refusal :=
  match s.event with
  | some (.reserveRequest r) => .next (s.taken.reserve r)
  | _ => .fault .noSuchEvent

/-- RESERVE_RESEND (13 R328): the RESERVE is sent again under its ticket. -/
def State.reserveAgain (s : State) (c seq : Nat) : State :=
  match s.fabCmd c seq with
  | none => s
  | some m =>
    if m.first ≠ 0 then s
    else
      match s.msgTarget m with
      | .error _ => s.fabAdvance c seq
      | .ok (d, k) => s.askCredits (s.reserveOf m d k)

def execReserveResend (s : State) : Host.Outcome State Fault Refusal :=
  match s.event with
  | some (.reserveResend c seq) => .next (s.taken.reserveAgain c seq)
  | _ => .fault .noSuchEvent

/-- CREDIT_RETURN (13 R328). -/
def execCreditReturn (s : State) : Host.Outcome State Fault Refusal :=
  match s.event with
  | some (.creditReturn r) => .next (s.taken.creditBack r)
  | _ => .fault .noSuchEvent

/-- An entry leaves the cache, and its credits go to the target (13 R328). -/
def State.releaseEntry (s : State) (c : Nat) (e : Credit) : State :=
  let k := s.core c
  (s.setCore c { k with credits := k.credits.filter (fun x => x != e) }).giveEntry c e

/-- CREDIT_IDLE_RELEASE (13 R328): the credits of entry n that have stayed unused are released. -/
def State.creditIdle (s : State) (c n : Nat) : State :=
  match (s.core c).credits.find? (fun e => e.entry == n) with
  | some e => s.releaseEntry c e
  | none => s

def execCreditIdleRelease (s : State) : Host.Outcome State Fault Refusal :=
  match s.event with
  | some (.creditIdleRelease c n) => .next (s.taken.creditIdle c n)
  | _ => .fault .noSuchEvent

/-! ## Messages at the target (13 R329, R332; 06 R138, R141) -/

/-- A message is refused without delivery, or refused to be tried again, as it is where its cell is saved, or delivered (13 R329, R332). -/
def State.messageHere (s : State) (m : Msg) (closed : Cell → Bool) (deliver : State → State) : State :=
  let ack (s : State) (code : Nat) : State := s.ackTo m.srcDev m.srcCore m.srcSeq code
  match s.reachOf m.core m.srcDev m.srcPart m.panid m.dest m.pan m.ring with
  | .nowhere => ack s cSegRights
  | .saved => ack s 256
  | .here => if closed (s.cell m.core) then ack s 256 else ack (deliver s) 0

/-- A message arrives under a credit of the cell that lies at its target. One whose credit is of a cell that lay there before takes one of this cell's (13 R328). -/
def State.underCredit (s : State) (m : Msg) : State × Msg :=
  let id := s.cellId m.core
  (if m.object = id then s else s.setCore m.core ((s.core m.core).grantCredits m.ring 1), { m with object := id })

/-- A message at the core where its target lies now (13 R332). -/
def State.msgHere (s : State) (m : Msg) : Msg := { m with core := s.targetCore m.pan m.panid m.dest m.core }

/-- MESSAGE_ARRIVAL (06 R140, 13 R329, R332). A ring accepts nothing while its cell is pre-empted. -/
def State.messageIn (s : State) (m : Msg) : State :=
  let m := s.msgHere m
  let r := m.ring.getD 0
  let g := (s.core m.core).ring r
  s.messageHere m (fun cell => cell.preempt != .running || decide (g.size ≤ (g.tail - g.head).toNat))
    (fun s =>
      let u := s.underCredit m
      u.1.ringArrival m.core r m.payload (creditOf u.2 s.device.toNat))

def execMessageArrival (s : State) : Host.Outcome State Fault Refusal :=
  match s.event with
  | some (.messageArrival m) => .next (s.taken.messageIn m)
  | _ => .fault .noSuchEvent

/-- SPAWN_INTAKE_ARRIVAL (06 R141, 13 R329, R332). The intake closes at its cell's completion signal. -/
def State.spawnIn (s : State) (m : Msg) : State :=
  let m := { s.msgHere m with ring := none }
  let k := s.core m.core
  s.messageHere m (fun cell => !cell.intakeOpen || decide (64 ≤ k.intake.length)) (fun s =>
    let u := s.underCredit m
    let s := u.1
    let k := s.core m.core
    let s := s.setCore m.core { k with intake := k.intake ++ [u.2], intakeGranted := k.intakeGranted - 1 }
    ((s.noteActivity k.cellD.launch).pushOnce (.intakeDelivery m.core)))

def execSpawnIntakeArrival (s : State) : Host.Outcome State Fault Refusal :=
  match s.event with
  | some (.spawnIntakeArrival m) => .next (s.taken.spawnIn m)
  | _ => .fault .noSuchEvent

/-! ## Acknowledgements and retries at the source (13 R326, R329, R332) -/

/-- A message command of a core, or of a saved cell (14 R370). -/
def State.messageCmd (s : State) (c seq : Nat) : Option Cmd :=
  if seq < courierSeq then s.fabCmd c seq else (s.cluster (clusterOf c)).couriers.find? (fun m => m.core == c && m.seq == seq)

def State.mapMessage (s : State) (c seq : Nat) (f : Cmd → Cmd) : State :=
  if seq < courierSeq then s.mapFab c seq f
  else
    let k := s.cluster (clusterOf c)
    s.setCluster (clusterOf c) { k with couriers := k.couriers.map (fun m => if m.core = c ∧ m.seq = seq then f m else m) }

/-- The end of a message (13 R329): its credit returns where it was not used, then STATUS, the post, and the slot. The status and the post of a message that the
cluster manager carries are held while the cell is saved or being restored (14 R366, R369, R370). -/
def State.messageDone (s : State) (m : Cmd) (fault : Nat) : State :=
  let m := { m with fault := minFault m.fault fault }
  if m.seq < courierSeq then
    let s := (s.putStatus m.core m.loc 56 8 m.status0).postDone m.core m.port
    let back := match s.msgTarget m with
      | .ok (d, k) => if fault ≠ 0 ∧ m.first ≠ 0 then some { creditOf (s.msgOf m k) d with credits := 1 } else none
      | .error _ => none
    let k := s.core m.core
    let s := s.setCore m.core { k with fab := { k.fab with cmds := k.fab.cmds.filter (fun x => x.seq != m.seq) } }
    let s := match back with
      | some r => (s.addCredits m.core r).fabResume m.core
      | none => s.fabResume m.core
    s.afterCmd m.core 3
  else
    let gone (s : State) : State :=
      let k := s.cluster (clusterOf m.core)
      s.setCluster (clusterOf m.core) { k with couriers := k.couriers.filter (fun x => !(x.core == m.core && x.seq == m.seq)) }
    let s := match s.msgTarget m with
      | .ok (d, k) => if fault ≠ 0 then s.giveUp { creditOf (s.msgOf m k) d with credits := 1 } else s
      | .error _ => s
    let s := gone s
    let status := { m with seq := m.seq % 2 ^ 32 }.status0
    let post : HeldPost := ⟨portSem m.port, if portNoPost m.port then 0 else portN m.port, some (m.loc, status)⟩
    match s.liveCore m with
    | some c =>
      if (s.cell c).preempt = .restoring then s.setCore c { s.core c with posts := (s.core c).posts ++ [post] }
      else (s.putStatus c m.loc 56 8 status).postDone c m.port
    | none => s.mapGang m.row0 m.col0 (fun ga => { ga with
        saved := ga.saved.map (fun e => if e.1 = m.parts then (e.1, { e.2 with posts := e.2.posts ++ [post] }) else e) })

/-- MESSAGE_ACKNOWLEDGE (13 R329, R332): 256 is a refusal under which the sender keeps its credit and tries again. -/
def State.messageAck (s : State) (c seq fault : Nat) : State :=
  match s.messageCmd c seq with
  | none => s
  | some m =>
    if fault = 256 then ((s.mapMessage c seq (fun m => { m with first := 2 })).pushOnce (.refusedArrivalRetry c seq)).answerDrains
    else s.messageDone m fault

def execMessageAcknowledge (s : State) : Host.Outcome State Fault Refusal :=
  match s.event with
  | some (.messageAcknowledge c seq fault) => .next (s.taken.messageAck c seq fault)
  | _ => .fault .noSuchEvent

/-- REFUSED_ARRIVAL_RETRY (13 R332): the message goes to where its target is now. That of a saved panorama member waits for its restore. -/
def State.retryMessage (s : State) (c seq : Nat) : State :=
  match s.messageCmd c seq with
  | none => s
  | some m =>
    if m.first ≠ 2 then s
    else if msgPan m.blk && s.frozenPan (panId (s.senderCell m).paninfo) then s.pushOnce (.refusedArrivalRetry c seq)
    else
      match s.msgTarget m with
      | .error code => s.pushOnce (.messageAcknowledge c seq code)
      | .ok (d, k) =>
        let msg := s.msgOf m k
        let s := s.mapMessage c seq (fun m => { m with first := 1 })
        if d = s.device.toNat then s.push (if m.ring.isSome then .messageArrival msg else .spawnIntakeArrival msg)
        else s.emit (.message msg)

def execRefusedArrivalRetry (s : State) : Host.Outcome State Fault Refusal :=
  match s.event with
  | some (.refusedArrivalRetry c seq) => .next (s.taken.retryMessage c seq)
  | _ => .fault .noSuchEvent

/-! ## Detach and departure (13 R335, R337) -/

/-- The access of a word goes to a member. -/
def State.wordTo (s : State) (c i m : Nat) : Bool :=
  match (s.slot c i).held.bind (fun h => (resolvingMove h.moves).map (fun mv => (h, mv))) with
  | none => false
  | some (h, mv) =>
    let sl := (s.slot c i).writeMoves h.moves
    let ea := accessEa mv.dst mv.val sl
    let g := sl.seg (segNo ea)
    let sent : Bool := match h.why with
      | .engine _ => false
      | _ => true
    sent && blockOf mv.dst == 0x1B && ((decide (opOf mv.dst ≤ 2) && g.space == 3 && (g.base + offOf ea) / 2 ^ 28 == m)
      || (opOf mv.dst == 8 && mv.val.toNat % 512 == m))

/-- The element of a copy that another device has been asked for lies at a member. -/
def Cmd.elemTo (m : Cmd) (member : Nat) (t : Transit) : Bool :=
  let x := m.elem t.elem (t.entry.getD 0)
  let at_ (b : Block) (o : Option Int) : Bool := match o with
    | some o => let g := m.seg (segNo (mapBase b)); g.space == 3 && (g.base + o.toNat) / 2 ^ 28 == member
    | none => false
  if t.val.isNone then at_ m.smap x.src else at_ m.dmap x.dst

/-- A request of a gang to a member has been sent and is not answered yet, a message that the cluster manager carries for a saved cell among them (13 R335, 14 R370). -/
def State.outstanding (s : State) (p own m : Nat) : Bool :=
  let ofGang (x : Cmd) : Bool := let i := (s.senderCell x).paninfo; panValid i && panId i == p && panMember i == own
  s.clusters.any (fun e => e.2.couriers.any (fun x => msgPan x.blk && msgDest x.blk == m && ofGang x)) ||
  (s.memberCores p own).any (fun c =>
    let k := s.core c
    k.slots.any (fun e => s.wordTo c e.1 m)
      || k.cpy.cmds.any (fun x => (x.transit.toList ++ x.sleeping).any (x.elemTo m))
      || k.fab.cmds.any (fun x => msgPan x.blk && msgDest x.blk == m && (x.first != 0 || x.woken)))

/-- An access of a holder gang still waits at a core of the member. -/
def State.stillAsking (s : State) (p m holder : Nat) : Bool :=
  (s.memberCores p m).any (fun c => (s.core c).retry.entries.any (fun x => match x.who with
    | .strand d _ => panValid (s.cell d).paninfo && panId (s.cell d).paninfo == p && panMember (s.cell d).paninfo == holder && holder != m
    | .remote r => r.panid == p && r.srcMember == holder && r.space == 3))

/-- One hold of a gang is taken away. -/
def eraseOne (h : Nat) : List Nat → List Nat
  | [] => []
  | x :: r => if x = h then r else x :: eraseOne h r

/-- DETACH_REMOVAL (13 R335): the removal goes out, and arrives, after the gang's earlier requests have been answered. -/
def State.removeHold (s : State) (p m holder : Nat) : State :=
  if s.outstanding p holder m || s.stillAsking p m holder then s.pushOnce (.detachRemoval p m holder)
  else
    match s.member p m with
    | some mb =>
      if mb.device ≠ s.device.toNat then s.emit (.detach p m holder)
      else (s.mapMember p m (fun x => { x with holders := eraseOne holder x.holders })).pushOnce (.memberDeparture p m)
    | none => s

def execDetachRemoval (s : State) : Host.Outcome State Fault Refusal :=
  match s.event with
  | some (.detachRemoval p m h) => .next (s.taken.removeHold p m h)
  | _ => .fault .noSuchEvent

/-! ## The collective engine (13 R338 to R344) -/

/-- COL_MATCH (13 R340): another position has accepted a command. -/
def State.colMatched (s : State) (d : Nat) (a : ColAsk) : State :=
  (s.setDie d { s.die d with asks := (s.die d).asks ++ [a] }).colMatchAll d

def execColMatch (s : State) : Host.Outcome State Fault Refusal :=
  match s.event with
  | some (.colMatch d a) => .next (s.taken.colMatched d a)
  | _ => .fault .noSuchEvent

/-- Buckets of a command are read in ascending order: first counts those read, parts those in flight, so that first − parts is the oldest.
The values that this position read are kept in tables, and the lost ones in pend (13 R342). -/
def Cmd.bucketIn (m : Cmd) : Nat := m.first - m.parts

/-- This position's own contribution to the oldest bucket in flight. -/
def Cmd.ownPeer (m : Cmd) (pos : Nat) : Peer :=
  let v := collOf m.blk
  let b := m.bucketIn
  { pos := pos, elems := (List.range v.bucket).map (fun j => (m.tables.get 0 (b * v.bucket + j)).toNat)
    lost := (List.range v.bucket).filter (fun j => m.pend.any (fun e => e.1 == b * v.bucket + j)) }

/-- The read of the next bucket: its gate is open, and at most four are in flight (13 R342). What goes round the ring says which elements are uncorrectable, so that
no position writes what depends on them (13 R344). -/
def State.colRead (s : State) (d : Nat) (m : Cmd) : State :=
  let v := collOf m.blk
  let n := elemBits v.fmt / 8
  let b := m.first
  if m.last ≤ b || 4 ≤ m.parts || !s.gateOpen m b then s
  else
    let is := upFrom (b * v.bucket) v.bucket
    let r := s.bucketRead m n is
    match r.2 with
    | .page va => (r.1.pushOnce (.pageWake m.part va)).pushOnce (.colBucket d m.seq [])
    | .held => r.1.pushOnce (.colBucket d m.seq [])
    | .fail code => r.1.colAbandon d m code true
    | .ok vs ls =>
      let g (m : Cmd) : Cmd :=
        let m := ls.foldl (fun m i =>
          match s.walk m.part ((m.seg (segNo v.src)).base + offOf v.src + i * n) with
          | .leaf e size _ => m.drop 3000 32 [pteFrame e + ((m.seg (segNo v.src)).base + offOf v.src + i * n) % size]
          | .invalid => m) m
        { m with first := b + 1, parts := m.parts + 1, pend := m.pend ++ ls.map (fun i => (i, none))
                 tables := (List.zip is vs).foldl (fun (t : Table Word) (x : Nat × Nat) => Table.set t x.1 (BitVec.ofNat 64 x.2)) m.tables }
      let s := (r.1.mapCol d m.seq g).emit (.colData d m.seq b vs (ls.map (fun i => i - b * v.bucket)))
      if b + 1 < m.last then s.pushOnce (.colBucket d m.seq []) else s

/-- The pages of the DST elements that this position writes: the first that is absent, that fails, or (code 0) that lies in a region under repair. -/
def State.colPages (s : State) (m : Cmd) (n : Nat) : List Nat → State × Option (Nat × Option Nat)
  | [] => (s, none)
  | i :: r =>
    let v := collOf m.blk
    let va := (m.seg (segNo v.dst)).base + offOf v.dst + i * n
    let t := s.colPage m va
    match t.2 with
    | .ok phys _ _ => if (t.1.heldAt phys).isSome then (t.1, some (va, some 0)) else t.1.colPages m n r
    | .park => (t.1, some (va, none))
    | .fault code => (t.1, some (va, some code))

/-- The ring has brought the other positions' elements of the oldest bucket in flight: DST is written, and BPOST follows (13 R341, R342,
R344). -/
def State.colWrite (s : State) (d : Nat) (m : Cmd) (peers : List Peer) : State :=
  let v := collOf m.blk
  let n := elemBits v.fmt / 8
  let b := m.bucketIn
  let pos := ringPos s.device.toNat v.dim
  let all := m.ownPeer pos :: peers.filter (fun p => p.pos != pos)
  let outs : List (Nat × Nat × FFlags × Bool) := (List.range v.bucket).filterMap (fun j => (colElem v all pos j).map (fun x => (b * v.bucket + j, x)))
  let good := outs.filter (fun o => !o.2.2.2)
  let r := s.colPages m n (good.map (·.1))
  match r.2 with
  | some (va, none) => (r.1.pushOnce (.pageWake m.part va)).push (.colBucket d m.seq peers)
  | some (_, some 0) => r.1.push (.colBucket d m.seq peers)
  | some (_, some code) => r.1.colAbandon d m code true
  | none =>
    let s := good.foldl (fun s o => s.colPut m ((m.seg (segNo v.dst)).base + offOf v.dst + o.1 * n) n o.2.1) r.1
    let lost := (List.range (ringLen v.dim)).any (fun p => (List.range v.bucket).any (fun j => (colElem v all p j).elim false (·.2.2)))
    let fl := good.foldl (fun (f : FFlags) (o : Nat × Nat × FFlags × Bool) => f ||| o.2.2.1) m.flags
    let g (m : Cmd) : Cmd :=
      let m := { m with flags := fl, parts := m.parts - 1
                        tables := m.tables.filter (fun e => decide ((b + 1) * v.bucket ≤ e.1)) }
      let m := if lost then { m with fault := minFault m.fault cDataLost } else m
      { m with finished := m.finished || (decide (m.last ≤ m.first) && m.parts == 0) }
    let s := s.mapCol d m.seq g
    let s := if v.bpost then s.postFrom m.core v.bsem 1 true else s
    match s.colCmd d m.seq with
    | some x => if x.finished then s.pushOnce (.colCompletion d m.seq) else s.pushOnce (.colBucket d m.seq [])
    | none => s

/-- COL_BUCKET (13 R342): with no peers the next bucket is read; with peers the oldest bucket in flight is written. -/
def State.colStep (s : State) (d seq : Nat) (peers : List Peer) : State :=
  match s.colCmd d seq with
  | none => s
  | some m =>
    if !m.active || m.finished then s
    else if peers.isEmpty then s.colRead d m
    else if m.parts = 0 then s
    else s.colWrite d m peers

def execColBucket (s : State) : Host.Outcome State Fault Refusal :=
  match s.event with
  | some (.colBucket d seq peers) => .next (s.taken.colStep d seq peers)
  | _ => .fault .noSuchEvent

/-- COL_ABORT (13 R344): the abort of another position reaches this one. -/
def State.colAborted (s : State) (d seq fault : Nat) : State :=
  match s.colCmd d seq with
  | some m => if m.finished then s else s.colAbandon d m fault false
  | none => s

def execColAbort (s : State) : Host.Outcome State Fault Refusal :=
  match s.event with
  | some (.colAbort d seq fault) => .next (s.taken.colAborted d seq fault)
  | _ => .fault .noSuchEvent

/-- COL_COMPLETION (13 R343): STATUS, the post, and the slot; the next matched command may start (13 R338). -/
def State.colComplete (s : State) (d seq : Nat) : State :=
  match s.colCmd d seq with
  | none => s
  | some m =>
    if !m.finished then s
    else
      let s := (s.putStatus m.core m.loc 56 8 (m.status + m.seq * 2 ^ 32)).postDone m.core m.port
      let k := s.die d
      let s := s.setDie d { k with col := { k.col with cmds := k.col.cmds.filter (fun x => x.seq != seq) } }
      (s.afterCmd m.core 4).colStart d

def execColCompletion (s : State) : Host.Outcome State Fault Refusal :=
  match s.event with
  | some (.colCompletion d seq) => .next (s.taken.colComplete d seq)
  | _ => .fault .noSuchEvent

end Sys2Proof.Machine
end

