-- ==== Sys2Proof/Machine/Queues.lean ====
section
/-! DEFINITION. What the command complex does with memory, event channels, queues, doorbells and the packets that need no launch (16 R394 to
R404, R416, R418 to R422). -/

namespace Sys2Proof.Machine

/-! ## The command complex and a partition's memory (07 R168, R171, 16 R399, R403) -/

/-- What an access of the command complex comes to: a value, or the fault code and the virtual address; code 0 says that the page has no
frame yet, or that a region under repair is met, so that the access is made again later. -/
abbrev Fw (α : Type) := Except (Nat × Nat) α

/-- The page of an address, made resident, with its rights checked: the physical address and DISC. -/
def State.fwPage (s : State) (part va : Nat) (rd wr : Bool) : State × Fw (Nat × Bool) :=
  let s := s.makeResident part va
  match (if va < 2 ^ 42 then s.walk part va else .invalid) with
  | .invalid => (s, .error (cPageInvalid, va))
  | .leaf e size _ =>
    if pteLost e then (s, .error (cDataLost, va))
    else if (rd && !pteRd e) || (wr && !pteWr e) then (s, .error (cPageInvalid, va))
    else if !pteP e then (s, .error (0, va))
    else (s, .ok (pteFrame e + va % size, pteDisc e))

/-- The pieces of n bytes at a that lie in one 64-byte line each: offset and length. -/
def linePieces (a n : Nat) : List (Nat × Nat) :=
  if n = 0 then []
  else (upFrom (a / 64) ((a + n + 63) / 64 - a / 64)).map (fun w => (max a (64 * w) - a, min (a + n) (64 * w + 64) - max a (64 * w)))

/-- Reads pieces of a range and adds them up as a little-endian number. -/
def State.fwReadPieces (part va : Nat) : List (Nat × Nat) → Nat → State → State × Fw Nat
  | [], acc, s => (s, .ok acc)
  | (o, k) :: r, acc, s =>
    let p := s.fwPage part (va + o) true false
    match p.2 with
    | .error e => (p.1, .error e)
    | .ok (phys, disc) =>
      if disc then State.fwReadPieces part va r acc p.1
      else if (p.1.heldAt phys).isSome then (p.1, .error (0, va + o))
      else if p.1.memory.lost 32 phys k then (p.1.countStack phys k, .error (cDataLost, va + o))
      else State.fwReadPieces part va r (acc + p.1.memory.read phys k * 2 ^ (8 * o)) p.1

/-- n bytes of a partition's memory. -/
def State.fwRead (s : State) (part va n : Nat) : State × Fw Nat := State.fwReadPieces part va (linePieces va n) 0 s

/-- Stores the bytes of v outside a mask at a physical address within one line; a piece of which nothing is lost is one write (07 R176). -/
def State.fwKeep (s : State) (phys n v lost : Nat) : State :=
  let pieces (m : Mem) : Mem := (storePieces phys n v lost).foldl (fun m p => m.write 32 (phys + p.1) p.2.1 p.2.2) m
  { s with memory := if lost = 0 then s.memory.write 32 phys n v else pieces s.memory }

/-- The same, and every word touched becomes full; the accesses that wait for those bits are served (07 R156, 16 R404). -/
def State.fwStore (s : State) (phys n v lost : Nat) : State :=
  let s := s.fwKeep phys n v lost
  let full (m : Mem) : Mem := (wordPieces phys n).foldl (fun m p => m.setFull ((phys + p.1) / 8) true) m
  let s := { s with memory := full s.memory }
  s.serveStack (stackOf phys) (s.stack (stackOf phys)).retry

/-- Writes pieces of a range; full says whether the words become full, wr whether the page must permit the write. D is set in each leaf entry (07 R173, R175). -/
def State.fwWritePieces (part va v : Nat) (full wr : Bool) : List (Nat × Nat) → State → State × Fw Unit
  | [], s => (s, .ok ())
  | (o, k) :: r, s =>
    let p := s.fwPage part (va + o) false wr
    match p.2 with
    | .error e => (p.1, .error e)
    | .ok (phys, _) =>
      if full && (p.1.heldFor part (va + o) k).isSome then (p.1, .error (0, va + o)) else
      let s := p.1.cancelDiscard part (va + o)
      let w := bitsOf v (8 * o) (8 * k)
      let s := (if full then s.fwStore phys k w 0 else s.fwKeep phys k w 0).setDirtyBit part (va + o)
      State.fwWritePieces part va v full wr r s

/-- Writes n bytes of a partition's memory, and sets their words full: an image's section or a host write (03 R72, 18 R441). -/
def State.fwWrite (s : State) (part va n v : Nat) (wr : Bool) : State × Fw Unit :=
  State.fwWritePieces part va v true wr (linePieces va n) s

/-- Writes n bytes of a partition's memory, with the full/empty bits as they are (07 R183): the packets of a doorbell and a QREAD's block. A hold
would delay it where nothing can see the delay (notes/assumptions/6.md). -/
def State.fwPut (s : State) (part va n v : Nat) (wr : Bool) : State × Fw Unit :=
  State.fwWritePieces part va v false wr (linePieces va n) s

/-! ## Queue control blocks (16 R394, R395) -/

def State.queueAt (s : State) (q : Nat) : Queue := s.queues.get Queue.none q

/-- The block of a queue that is not in the cache lies in the table (16 R394, R396). -/
def State.keepBlock (s : State) (q : Nat) : State :=
  if s.blockCache.contains q then s else { s with memory := s.memory.write 32 (Config.queueTable + 64 * q) 64 (s.queueAt q).cb.toNat }

/-- A change of a queue; one of its block is made where the block is, in the cache or in the table (16 R394, R396). -/
def State.mapQueue (s : State) (q : Nat) (f : Queue → Queue) : State :=
  let t := { s with queues := s.queues.set q (f (s.queueAt q)) }
  if (f (s.queueAt q)).cb = (s.queueAt q).cb then t else t.keepBlock q

/-- Fields of a control block (16 R395). -/
def cbRing (b : Block) : Nat := blkField b 0 8
def cbLog2 (b : Block) : Nat := blkBits b 64 5
def cbPart (b : Block) : Nat := blkBits b 72 4
def cbPrio (b : Block) : Nat := blkBits b 76 3
def cbState (b : Block) : Nat := blkBits b 80 2
def cbOpmask (b : Block) : Nat := blkBits b 96 12
def cbEvch (b : Block) : Nat := blkBits b 112 4
def cbRdidx (b : Block) : Nat := blkField b 16 4
def cbWridx (b : Block) : Nat := blkField b 20 4
def cbDone (b : Block) : Nat := blkField b 56 8

/-- The packets appended and not issued. -/
def cbPending (b : Block) : Nat := (cbWridx b + 2 ^ 32 - cbRdidx b) % 2 ^ 32

/-- The virtual address of packet i. -/
def cbSlot (b : Block) (i : Nat) : Nat := cbRing b + 64 * (i % 2 ^ cbLog2 b)

/-- A control block that QSET may write (16 R395, R418): limits kept, RZ fields 0. -/
def cbOk (b : Block) : Bool :=
  cbRing b % 64 == 0 && decide (4 ≤ cbLog2 b) && decide (cbLog2 b ≤ 16) && cbState b != 3
    && blkBits b 69 3 == 0 && blkBits b 79 1 == 0 && blkBits b 82 6 == 0 && blkBits b 108 4 == 0 && blkBits b 116 12 == 0
    && (List.range 4).all (fun k => blkBits b (192 + 64 * k + 53) 11 == 0)

/-- STATE and ERR of a control block. -/
def cbStop (b : Block) (state err : Nat) : Block := blkSet (blkSet b 80 2 state) 88 8 err

def cbSetRdidx (b : Block) (v : Nat) : Block := blkSet b 128 32 (v % 2 ^ 32)

def cbSetWridx (b : Block) (v : Nat) : Block := blkSet b 160 32 (v % 2 ^ 32)

/-- An enabled validator range: its first and its end address, and WR. -/
def cbRanges (b : Block) : List (Nat × Nat × Bool) :=
  (List.range 4).filterMap (fun k =>
    let lo := blkBits b (192 + 64 * k) 26
    let n := blkBits b (192 + 64 * k + 26) 26
    if n = 0 then none else some (lo * 2 ^ 16, (lo + n) * 2 ^ 16, blkBits b (192 + 64 * k + 52) 1 == 1))

/-- A range of addresses lies in one enabled validator range, which admits writes where asked (16 R401, item 3). -/
def inRange (b : Block) (va n : Nat) (wr : Bool) : Bool :=
  (cbRanges b).any (fun (r : Nat × Nat × Bool) => decide (r.1 ≤ va) && decide (va + n ≤ r.2.1) && (!wr || r.2.2))

/-! ## Event channels (16 R419 to R421) -/

/-- An event record without its SEQ (16 R420). -/
def eventRecord (code detail queue tag info0 info1 : Nat) : BitVec 256 :=
  BitVec.ofNat 256 (code % 256 + detail % 256 * 2 ^ 8 + queue % 2 ^ 32 * 2 ^ 32 + tag % 2 ^ 32 * 2 ^ 64 + info0 % 2 ^ 64 * 2 ^ 128
    + info1 % 2 ^ 64 * 2 ^ 192)

/-- The record as it is written, with its SEQ. -/
def withSeq (r : BitVec 256) (n : BitVec 32) : BitVec 256 := BitVec.ofNat 256 (r.toNat + n.toNat * 2 ^ 96)

/-- Fields of a channel's description (16 R419). -/
def evHaddr (c : BitVec 256) : Nat := entField c 0 8
def evRkey (c : BitVec 256) : Nat := entField c 8 4
def evQpn (c : BitVec 256) : Nat := entField c 12 3
def evLog2n (c : BitVec 256) : Nat := entField c 15 1
def evN (c : BitVec 256) : Nat := entField c 16 1
def evT (c : BitVec 256) : Nat := entField c 17 1
def evCidx (c : BitVec 256) : Nat := entField c 24 8

/-- A description that EVCH may set. -/
def evOk (c : BitVec 256) : Bool :=
  decide (4 ≤ evLog2n c) && decide (evLog2n c ≤ 16) && decide (1 ≤ evN c) && decide (evT c ≤ 100) && entField c 18 6 == 0

def State.evchan (s : State) (part ch : Nat) : EventChan := (s.part part).channels.get EventChan.none ch

def State.setEvchan (s : State) (part ch : Nat) (v : EventChan) : State :=
  let p := s.part part
  s.setPart part { p with channels := p.channels.set ch v }

/-- Numbers records from a SEQ on. -/
def numbered (n : BitVec 32) : List (BitVec 256) → List (BitVec 256)
  | [] => []
  | r :: l => withSeq r (n + 1) :: numbered (n + 1) l

/-- One RDMA WRITE for each contiguous run of ring entries: at most two, where the run passes the end of the ring. -/
def State.emitRecords (s : State) (cfg : BitVec 256) (at_ : Nat) (l : List (BitVec 256)) : State :=
  let size := 2 ^ evLog2n cfg
  let head := l.take (size - at_)
  let tail := l.drop (size - at_)
  let s := if head.isEmpty then s else s.emit (.eventRecords (evHaddr cfg + 32 * at_) (evRkey cfg) (evQpn cfg) head)
  if tail.isEmpty then s else s.emit (.eventRecords (evHaddr cfg) (evRkey cfg) (evQpn cfg) tail)

/-- A channel writes its pending events while the ring has free entries, judged from CIDX; what is left waits for space. Events that were
dropped are told by an OVERFLOW event behind those kept (16 R421). -/
def State.flushChan (s : State) (part ch : Nat) : State :=
  let h := s.evchan part ch
  let r := s.fwRead part (evCidx h.cfg) 4
  let s := r.1
  let free := match r.2 with
    | .ok v => 2 ^ evLog2n h.cfg - (h.written + 2 ^ 32 - v) % 2 ^ 32
    | .error _ => 0
  let free := if s.host.qpError.contains (evQpn h.cfg) then 0 else free
  let all := if h.lost ≠ 0 ∧ h.pending.length < 4096 then h.pending ++ [eventRecord 0x34 0 0 0 h.lost 0] else h.pending
  let lost := if h.lost ≠ 0 ∧ h.pending.length < 4096 then 0 else h.lost
  let out := numbered h.seq (all.take free)
  let s := s.emitRecords h.cfg (h.written % 2 ^ evLog2n h.cfg) out
  let s := s.setEvchan part ch { h with pending := all.drop free, lost := lost, seq := h.seq + BitVec.ofNat 32 out.length
                                        written := (h.written + out.length) % 2 ^ 32, unacked := h.unacked ++ out }
  let s := if out.isEmpty then s else s.pushOnce (.eventRetransmit part ch)
  if (all.drop free).isEmpty && lost == 0 then s else s.pushOnce (.eventRingSpace part ch)

/-- An event enters its channel: it is dropped and counted where 4,096 wait, flushed at once, or held for coalescing (16 R421). -/
def State.addEvent (s : State) (part ch : Nat) (r : BitVec 256) : State :=
  let h := s.evchan part ch
  if !h.configured then s
  else if 4096 ≤ h.pending.length then (s.setEvchan part ch { h with lost := h.lost + 1 }).pushOnce (.eventRingSpace part ch)
  else
    let s := s.setEvchan part ch { h with pending := h.pending ++ [r] }
    if entField r 0 1 ≠ 0 || evT h.cfg == 0 || decide (evN h.cfg ≤ h.pending.length + 1) then s.flushChan part ch
    else s.pushOnce (.eventCoalesceTimeout part ch)

/-- An event of a queue on the channel that its block names (16 R420). -/
def State.queueEvent (s : State) (q code detail tag info0 info1 : Nat) : State :=
  let b := (s.queueAt q).cb
  s.addEvent (cbPart b) (cbEvch b) (eventRecord code detail q tag info0 info1)

/-- EVENT_COALESCE_TIMEOUT (16 R421). -/
def execEventCoalesceTimeout (s : State) : Host.Outcome State Fault Refusal :=
  match s.event with
  | some (.eventCoalesceTimeout p ch) => .next (s.taken.flushChan p ch)
  | _ => .fault .noSuchEvent

/-- EVENT_RING_SPACE (16 R421). -/
def execEventRingSpace (s : State) : Host.Outcome State Fault Refusal :=
  match s.event with
  | some (.eventRingSpace p ch) => .next (s.taken.flushChan p ch)
  | _ => .fault .noSuchEvent

/-! ## Issue, stop and completion of packets (16 R398 to R402) -/

/-- Fields of a packet's header (16 R398). -/
def pkOp (p : Block) : Nat := blkField p 0 1
def pkEvent (p : Block) : Bool := p.getLsbD 8
def pkCores (p : Block) : Bool := p.getLsbD 9
def pkTag (p : Block) : Nat := blkField p 4 4

/-- Bytes of a packet as a number: A and B of a CONFIG, SIGADDR, VALUE and so on. -/
def pk8 (p : Block) (byte : Nat) : Nat := blkField p byte 8

/-- The packets that issue only after every earlier one has completed, and hold later ones (16 R399). -/
def opWaits (op : Nat) : Bool := op == 4 || op == 5 || (decide (7 ≤ op) && decide (op ≤ 10))

/-- The queue fetches its next packet when nothing holds it. -/
def State.kickQueue (s : State) (q : Nat) : State :=
  let k := s.queueAt q
  if cbState k.cb = 1 && k.fetched.isNone && k.wait.isNone && cbPending k.cb != 0 then s.pushOnce (.packetFetch q) else s

/-! ## Doorbells and the control-block cache (16 R396, R397) -/

/-- Fields of a doorbell's header. -/
def dbQueue (h : Block) : Nat := blkBits h 0 20
def dbMode (h : Block) : Nat := blkField h 4 1
def dbCount (h : Block) : Nat := blkField h 5 2

def dbOk (d : DoorbellSend) : Bool :=
  blkBits d.header 20 12 == 0 && decide (dbMode d.header ≤ 1) && blkBits d.header 56 456 == 0
    && (dbMode d.header == 1 || dbCount d.header == d.packets.length)

/-- Writes packets into the ring from index i on; one that meets no writable page is not written (notes/assumptions/28.md). -/
def State.writePackets (s : State) (part : Nat) (b : Block) (i : Nat) : List Block → State
  | [] => s
  | p :: r => State.writePackets (s.fwPut part (cbSlot b i) 64 p.toNat false).1 part b (i + 1) r

/-- REFUSED: on the queue's channel where the queue is of the binding's partition, else on the lowest channel that the binding's partition has set (16 R397, 18 R441;
notes/assumptions/102.md). -/
def State.refuse (s : State) (q part : Nat) : State :=
  if (s.queueAt q).part = some part then s.queueEvent q 0x33 0 0 0 0
  else
    match (List.range 16).find? (fun ch => (s.evchan part ch).configured) with
    | some ch => s.addEvent part ch (eventRecord 0x33 0 q 0 0 0)
    | none => s

/-- The command complex acts on a doorbell whose queue's block is in the cache. A pair that management has not bound names no partition. -/
def State.ringNow (s : State) (d : DoorbellSend) : State :=
  let q := dbQueue d.header
  let k := s.queueAt q
  let part := if s.host.qpPart.has d.qp then some (s.host.qpPart.get 0 d.qp) else none
  let known := k.part.isSome && k.part == part
  if cbState k.cb = 0 || cbState k.cb = 3 || !known || !dbOk d then part.elim s (s.refuse q)
  else
    let n := dbCount d.header
    if 2 ^ cbLog2 k.cb < cbPending k.cb + n then s.queueEvent q 0x32 0 0 0 0
    else
      let s := if dbMode d.header = 0 then s.writePackets (cbPart k.cb) k.cb (cbWridx k.cb) d.packets else s
      (s.mapQueue q (fun k => { k with cb := cbSetWridx k.cb (cbWridx k.cb + n) })).kickQueue q

/-- A block is pinned while its queue has a packet between fetch and completion. -/
def State.blockPinned (s : State) (q : Nat) : Bool := (s.queueAt q).fetched.isSome || !(s.queueAt q).issued.isEmpty

/-- Two queues' blocks share a set of the 512 (notes/assumptions/92.md). -/
def sameSet (a b : Nat) : Bool := a % 512 == b % 512

/-- The block of a queue is read from the table into the cache (16 R394, R396). -/
def State.readBlock (s : State) (q : Nat) : State :=
  { s with queues := s.queues.set q { s.queueAt q with cb := BitVec.ofNat 512 (s.memory.read (Config.queueTable + 64 * q) 64) }, blockCache := q :: s.blockCache }

/-- The block of a queue comes into the cache, where it becomes the most recently used of its set of 8; a replaced block, the least recently used that is not pinned, is
written back. none where every way is pinned. -/
def State.loadBlock (s : State) (q : Nat) : Option State :=
  if s.blockCache.contains q then some { s with blockCache := q :: removeNat q s.blockCache }
  else if (s.blockCache.filter (sameSet q)).length < 8 then some (s.readBlock q)
  else
    (s.blockCache.filter (fun x => sameSet q x && !s.blockPinned x)).getLast?.map (fun v =>
      (({ s with blockCache := removeNat v s.blockCache }).keepBlock v).readBlock q)

/-- A doorbell reaches the command complex: it is held behind those that wait, or where its queue's block finds no way. -/
def State.ring (s : State) (d : DoorbellSend) : State :=
  match (if s.bells.any (fun x => sameSet (dbQueue x.header) (dbQueue d.header)) then none else s.loadBlock (dbQueue d.header)) with
  | some s => s.ringNow d
  | none => { s with bells := s.bells ++ [d] }

/-- A way may have become free: the held doorbells are served again, in order of arrival. -/
def State.serveBells (s : State) : State := s.bells.foldl (fun s d => s.ring d) { s with bells := [] }

/-- A queue stops with a reason; a fetched packet is not issued any more (16 R399, R402). -/
def State.stopQueue (s : State) (q err : Nat) : State :=
  (s.mapQueue q (fun k => { k with cb := cbStop k.cb 2 err, fetched := none })).serveBells

/-- A packet is rejected: it retires without effect, and RDIDX stays (16 R402). -/
def State.rejectPacket (s : State) (q detail tag : Nat) : State :=
  ((s.stopQueue q detail).mapQueue q (fun k => { k with rejected := true })).queueEvent q 0x30 detail tag 0 0

/-- The event that carries out a packet. -/
def packetEvent (q : Nat) (p : Block) : Event :=
  match pkOp p with
  | 0 => .nop q p
  | 1 => .launch q p
  | 2 => .panlaunch q p
  | 3 => .wait q p
  | 4 => .signal q p
  | 5 => .barrier q p
  | 6 => .copy q p
  | 7 => .event q p
  | 8 =>
    match blkField p 8 1 with
    | 0 => .configQset q p
    | 1 => .configQread q p
    | 2 => .configQresume q p
    | 3 => .configLog q p
    | 4 => .configBind q p
    | 5 => .configEvch q p
    | 6 => .configLimits q p
    | _ => .configTrace q p
  | 9 =>
    match blkField p 8 1 with
    | 0 => .tableMap q p
    | 1 => .tableUnmap q p
    | 2 => .tableProtect q p
    | _ => .tableReserve q p
  | 10 => .discard q p
  | _ => .mark q p

/-- The fetched packet is carried out when its turn has come: one that waits, when no earlier packet is uncompleted; any other, when no
packet that holds later ones is (16 R399). -/
def State.tryIssue (s : State) (q : Nat) : State :=
  let k := s.queueAt q
  match k.fetched with
  | none => s
  | some p =>
    let clear := if opWaits (pkOp p) then k.issued.isEmpty && k.wait.isNone
      else k.wait.isNone && !k.issued.any (fun i => opWaits (pkOp i.packet))
    if cbState k.cb = 1 && clear then s.pushOnce (packetEvent q p) else s

/-- The packet issues: RDIDX advances, and the next one may be fetched (16 R399, R411). -/
def State.issue (s : State) (q : Nat) (p : Block) (info : Word) : State :=
  let k := s.queueAt q
  let i := cbRdidx k.cb
  let s := s.mapQueue q (fun k => { k with cb := cbSetRdidx k.cb (i + 1), fetched := none, issued := k.issued ++ [⟨i, p, info, 0, 0⟩] })
  (s.pushOnce .dispatchDecision).kickQueue q

/-- What a packet's event does while the packet is the one fetched; a packet whose queue has stopped is not issued (16 R399). f gets the
index that the packet issues under. -/
def State.packet (s : State) (q : Nat) (p : Block) (f : State → Nat → State) : State :=
  let k := s.queueAt q
  if cbState k.cb = 1 ∧ k.fetched = some p then f s (cbRdidx k.cb) else s

/-- The packet issues and completes. -/
def State.issueDone (s : State) (q : Nat) (p : Block) (i : Nat) : State := (s.issue q p 0).pushOnce (.packetComplete q i)

/-- An issued packet retires without completing, and its queue stops (16 R403, R410). -/
def State.retirePacket (s : State) (q i err : Nat) : State :=
  (s.mapQueue q (fun k => { k with issued := k.issued.filter (fun x => x.index != i) })).stopQueue q err

/-- The TAG of an issued packet. -/
def State.tagOf (s : State) (q i : Nat) : Nat := ((s.queueAt q).issued.find? (fun x => x.index == i)).elim 0 (fun x => pkTag x.packet)

/-- An issued packet fails at a memory access: FAULTED, and the queue stops (16 R403, R404). -/
def State.failPacket (s : State) (q i code : Nat) (va : Nat) : State :=
  let tag := s.tagOf q i
  (s.retirePacket q i code).queueEvent q 0x38 code tag va 0

/-- PACKET_COMPLETE (16 R399): DONE advances, COMPLETE is sent where the packet asks for it, and a packet that waited for it may issue. -/
def State.completePacket (s : State) (q i : Nat) : State :=
  let k := s.queueAt q
  match k.issued.find? (fun x => x.index == i) with
  | none => s
  | some x =>
    let s := (s.mapQueue q (fun k => { k with
      cb := blkSet k.cb 448 64 ((cbDone k.cb + 1) % 2 ^ 64), issued := k.issued.filter (fun x => x.index != i) })).serveBells
    let s := if pkEvent x.packet then s.queueEvent q 0 0 (pkTag x.packet) x.info.toNat 0 else s
    (s.tryIssue q).kickQueue q

def execPacketComplete (s : State) : Host.Outcome State Fault Refusal :=
  match s.event with
  | some (.packetComplete q i) => .next (s.taken.completePacket q i)
  | _ => .fault .noSuchEvent

/-! ## The validator (16 R398, R401) -/

/-- The bytes from 8 up that lie in none of the fields listed are 0. -/
def unusedZero (p : Block) (used : List (Nat × Nat)) : Bool :=
  (upFrom 8 56).all (fun b => used.any (fun (u : Nat × Nat) => decide (u.1 ≤ b) && decide (b < u.1 + u.2)) || blkField p b 1 == 0)

/-- The header's reserved bits (16 R398). -/
def headerOk (p : Block) : Bool := blkBits p 10 22 == 0 && (pkOp p == 1 || !pkCores p)

/-- The page size of a TABLE packet: 0 to 2 (16 R417). -/
def tableSize (p : Block) : Nat := match blkField p 10 1 with | 0 => 2 ^ 16 | 1 => 2 ^ 21 | _ => 2 ^ 30

/-- Item 2: RZ fields and limits of a packet (16 R400, R401, R403 to R405, R414, R416 to R418). -/
def layoutOk (p : Block) : Bool :=
  headerOk p &&
  match pkOp p with
  | 0 => unusedZero p []
  | 1 => unusedZero p [(8, 24)] && pk8 p 8 % 256 == 0 && pk8 p 16 % 8 == 0
  | 2 => unusedZero p [(8, 24)] && pk8 p 16 % 8 == 0
  | 3 => unusedZero p [(8, 17)] && pk8 p 8 % 8 == 0 && decide (blkField p 24 1 ≤ 1)
  | 4 => unusedZero p [(8, 17)] && pk8 p 8 % 8 == 0 && decide (blkField p 24 1 ≤ 1)
  | 5 => unusedZero p []
  | 6 =>
    let src := pk8 p 8
    let dst := pk8 p 16
    let n := pk8 p 24
    unusedZero p [(8, 24)] && src % 64 == 0 && dst % 64 == 0 && n % 64 == 0 && decide (1 ≤ n) && decide (n ≤ 2 ^ 40)
      && (decide (src + n ≤ dst) || decide (dst + n ≤ src))
  | 7 => unusedZero p [(8, 16)]
  | 8 =>
    unusedZero p [(8, 1), (16, 16)] &&
    (match blkField p 8 1 with
    | 0 => decide (pk8 p 16 < 2 ^ 20)
    | 1 => decide (pk8 p 16 < 2 ^ 20)
    | 2 => decide (pk8 p 16 < 2 ^ 20) && decide (pk8 p 24 ≤ 1)
    | 3 => decide (pk8 p 16 ≤ 1) && pk8 p 24 == 0
    | 4 => pk8 p 24 == 0
    | 5 => decide (pk8 p 16 ≤ 15)
    | 6 => decide (pk8 p 16 < 2 ^ 33) && pk8 p 24 == 0
    | 7 => decide (pk8 p 16 ≤ 1) && pk8 p 24 == 0
    | _ => false)
  | 9 =>
    unusedZero p [(8, 3), (16, 16)] && decide (blkField p 8 1 ≤ 3) && decide (blkField p 9 1 ≤ 7) && decide (blkField p 10 1 ≤ 2)
      && pk8 p 16 % tableSize p == 0 && pk8 p 24 % tableSize p == 0
  | 10 => unusedZero p [(8, 16)] && pk8 p 8 % 2 ^ 16 == 0 && pk8 p 16 % 2 ^ 16 == 0
  | _ => unusedZero p [(56, 8)]

/-- Item 3: the addresses that a packet names lie in the queue's ranges; LDESC and PDESC with what their descriptors say are checked with
item 4. -/
def addressesOk (b p : Block) : Bool :=
  let sig := pk8 p 16 == 0 || inRange b (pk8 p 16) 8 true
  match pkOp p with
  | 1 => inRange b (pk8 p 8) 256 false && sig
  | 2 => inRange b (pk8 p 8) 64 false && sig
  | 3 => inRange b (pk8 p 8) 8 false
  | 4 => inRange b (pk8 p 8) 8 true
  | 6 => inRange b (pk8 p 8) (pk8 p 24) false && inRange b (pk8 p 16) (pk8 p 24) true
  | 8 =>
    (match blkField p 8 1 with
    | 0 => inRange b (pk8 p 24) 64 false
    | 1 => inRange b (pk8 p 24) 64 true
    | 4 => inRange b (pk8 p 16) 288 false
    | 5 => inRange b (pk8 p 24) 32 false
    | _ => true)
  | 9 => inRange b (pk8 p 16) (pk8 p 24) true
  | 10 => inRange b (pk8 p 8) (pk8 p 16) true
  | _ => true

/-- The first of items 1 to 3 that fails (16 R401); opcodes above 0x0B have no OPMASK bit. own says that a queue which the packet names is of the partition, a
limit of QSET, QREAD and QRESUME (16 R394, R418). -/
def validate (b p : Block) (own : Bool) : Option Nat :=
  if bitsOf (cbOpmask b) (pkOp p) 1 = 0 then some 1
  else if !layoutOk p || !own then some 2
  else if !addressesOk b p then some 3
  else none

/-- A queue that a CONFIG names belongs to the partition of the queue it came on (16 R394). -/
def State.sameOwner (s : State) (q a : Nat) : Bool := (s.queueAt a).part == some (cbPart (s.queueAt q).cb)

/-- The queue that a packet names, if it names one, is of its own queue's partition (16 R418). -/
def State.ownPacket (s : State) (q : Nat) (p : Block) : Bool := pkOp p != 8 || decide (2 < blkField p 8 1) || s.sameOwner q (pk8 p 16)

/-- A BIND list: each byte a partition, or none (16 R418). -/
def bindOk (v : Nat) : Bool := (List.range 288).all (fun d => decide (bitsOf v (8 * d) 8 < 16) || bitsOf v (8 * d) 8 == 255)

/-- The block that a CONFIG names, with the check of its layout: address, length and check (16 R418). -/
def configBlock (p : Block) : Option (Nat × Nat × (Nat → Bool)) :=
  if pkOp p ≠ 8 then none
  else
    match blkField p 8 1 with
    | 0 => some (pk8 p 24, 64, fun v => cbOk (BitVec.ofNat 512 v))
    | 4 => some (pk8 p 16, 288, bindOk)
    | 5 => some (pk8 p 24, 32, fun v => evOk (BitVec.ofNat 256 v))
    | _ => none

/-- The block that a packet names is read and checked: true where it is well formed, or where the packet names none (16 R401 item 2, R418). -/
def State.blockCheck (s : State) (q : Nat) (p : Block) : State × Fw Bool :=
  match configBlock p with
  | none => (s, .ok true)
  | some (va, n, good) =>
    let r := s.fwRead (cbPart (s.queueAt q).cb) va n
    (r.1, match r.2 with
      | .ok v => .ok (good v)
      | .error e => .error e)

/-- A packet that has been read is validated; what it names is judged in the order of R401, a malformed block of a CONFIG after the addresses, under item 2
(16 R401, R418; notes/assumptions/28.md). -/
def State.judgePacket (s : State) (q : Nat) (p : Block) : State :=
  match validate (s.queueAt q).cb p (s.ownPacket q p) with
  | some n => s.rejectPacket q n (pkTag p)
  | none =>
    let r := s.blockCheck q p
    match r.2 with
    | .error (0, _) => r.1.pushOnce (.packetFetch q)
    | .ok true => (r.1.mapQueue q (fun k => { k with fetched := some p })).tryIssue q
    | _ => r.1.rejectPacket q 2 (pkTag p)

/-- The packet at RDIDX is read, with the queue's block in the cache. -/
def State.readPacket (s : State) (q : Nat) : State :=
  let k := s.queueAt q
  let r := s.fwRead (cbPart k.cb) (cbSlot k.cb (cbRdidx k.cb)) 64
  match r.2 with
  | .error (0, _) => r.1.pushOnce (.packetFetch q)
  | .error _ => r.1.rejectPacket q 5 0
  | .ok v => r.1.judgePacket q (BitVec.ofNat 512 v)

/-- PACKET_FETCH (16 R396, R399, R401, R402): the packet at RDIDX is read and validated, and issues when its turn has come. A fetch whose queue's block finds no way
waits for one. -/
def State.fetchPacket (s : State) (q : Nat) : State :=
  let k := s.queueAt q
  if cbState k.cb ≠ 1 || k.fetched.isSome || k.wait.isSome || cbPending k.cb == 0 then s
  else
    match s.loadBlock q with
    | some s => s.readPacket q
    | none => s.pushOnce (.packetFetch q)

def execPacketFetch (s : State) : Host.Outcome State Fault Refusal :=
  match s.event with
  | some (.packetFetch q) => .next (s.taken.fetchPacket q)
  | _ => .fault .noSuchEvent

/-! ## The intake of doorbells (18 R440 to R443) -/

/-- The bytes of a held request; one on a debug pair is a SEND of one line. -/
def Held.bytes : Held → Nat
  | .send d => d.length
  | .debug .. => 64

/-- The queue pair of a held request. -/
def Held.qp : Held → Nat
  | .send d => d.qp
  | .debug qp _ => qp

/-- What the intake drops it counts (18 R439, R440, R442). -/
def State.countDrop (s : State) : State := { s with host := { s.host with dropped := s.host.dropped + 1 } }

/-- The intake holds a request that comes while the front end is gated or still serves held ones, and sends PFC XOFF at 1.5 MiB (18 R442, R443). -/
def State.holdSend (s : State) (d : Held) : State :=
  let bytes := s.host.intakeBytes + d.bytes
  let xoff := decide (0x180000 ≤ bytes) && !s.host.paused
  let s := ({ s with host := { s.host with held := s.host.held ++ [d], intakeBytes := bytes, paused := s.host.paused || xoff } }).pushOnce .frontEndWake
  if xoff then (s.emit (.pfc true)).pushOnce (.platformEventMessage 57) else s

/-- A SEND has a length that a doorbell may have (18 R440). -/
def sendLengthOk (d : DoorbellSend) : Bool := d.length == 64 * (d.packets.length + 1) && decide (d.length ≤ 4096)

/-- The front end serves a request on a queue pair: dropped and counted in the error state; an unsupported one gets an invalid-request NAK and puts the pair in that
state; a SEND of a length that no doorbell has gets the NAK (18 R440). -/
def State.serveSend (s : State) (d : DoorbellSend) : State :=
  if s.host.qpError.contains d.qp then s.countDrop
  else if d.kind = .unsupported then ({ s with host := { s.host with qpError := insertNat d.qp s.host.qpError } }).emit (.nak d.qp 1)
  else if !sendLengthOk d then s.emit (.nak d.qp 1)
  else s.ring d

/-- What arrives at the intake beside RDMA WRITE and READ (18 R439, R440, R442, R443): foreign frames and requests of another transport are dropped and counted, and so
are frames of another priority than the RoCEv2 traffic's where the 2 MiB are full; the rest is held, or served. -/
def State.sendArrival (s : State) (d : DoorbellSend) : State :=
  if d.kind = .foreign ∨ d.kind = .otherTransport ∨ s.host.qpError.contains d.qp then s.countDrop
  else if d.priority ≠ s.host.priority ∧ 2 ^ 21 < s.host.intakeBytes + d.length then s.countDrop
  else if s.host.gated || !s.host.held.isEmpty then s.holdSend (.send d)
  else s.serveSend d

/-- DOORBELL (16 R397, 18 R440, R443). -/
def execDoorbell (s : State) : Host.Outcome State Fault Refusal :=
  match s.event with
  | some (.doorbell d) => .next (s.taken.sendArrival d)
  | _ => .fault .noSuchEvent

/-! ## NOP, BARRIER, EVENT and MARK (16 R400) -/

/-- NOP. -/
def execNop (s : State) : Host.Outcome State Fault Refusal :=
  match s.event with
  | some (.nop q p) => .next (s.taken.packet q p (fun s i => s.issueDone q p i))
  | _ => .fault .noSuchEvent

/-- BARRIER. -/
def execBarrier (s : State) : Host.Outcome State Fault Refusal :=
  match s.event with
  | some (.barrier q p) => .next (s.taken.packet q p (fun s i => s.issueDone q p i))
  | _ => .fault .noSuchEvent

/-- EVENT: a USER record with the packet's TAG, INFO0 and INFO1. -/
def execEvent (s : State) : Host.Outcome State Fault Refusal :=
  match s.event with
  | some (.event q p) =>
    .next (s.taken.packet q p (fun s i => (s.issueDone q p i).queueEvent q 0x37 0 (pkTag p) (pk8 p 8) (pk8 p 16)))
  | _ => .fault .noSuchEvent

/-- MARK: a PKT record in each cluster that traces packets of the partition (17 R435). -/
def execMark (s : State) : Host.Outcome State Fault Refusal :=
  match s.event with
  | some (.mark q p) =>
    .next (s.taken.packet q p (fun s i =>
      let part := cbPart (s.queueAt q).cb
      let ws := [traceHeader 2 4 0 0 0, BitVec.ofNat 64 q, BitVec.ofNat 64 (pkTag p), BitVec.ofNat 64 (pk8 p 56)]
      ((List.range 8).foldl (fun s cl => (s.trace cl 2 part ws).1) s).issueDone q p i))
  | _ => .fault .noSuchEvent

/-! ## SIGNAL and WAIT (16 R403) -/

/-- An access to a signal at its stack controller: its old value, or the fault. -/
def State.signalAccess (s : State) (part va : Nat) (op : AccessOp) (v : Nat) : State × Fw Nat :=
  let p := s.fwPage part va (op != .store) (op != .load)
  match p.2 with
  | .error e => (p.1, .error e)
  | .ok _ =>
    let r := p.1.deviceAccess 0 part ⟨⟨op, va, 8, 0, BitVec.ofNat 128 v, 0⟩, .strand 0 0⟩ none
    match r.2 with
    | .fault code => (r.1, .error (code, va))
    | .res (.done old _) => (if op = .load then r.1 else r.1.setDirtyBit part va, .ok old)
    | .res .lost => (r.1, .error (cDataLost, va))
    | _ => (r.1, .error (0, va))

/-- amo.add of a value to a signal (16 R403, R409). -/
def State.signalAdd (s : State) (part va v : Nat) : State × Fw Nat := s.signalAccess part va (.amo 0) v

/-- Every queue whose WAIT holds reads its signal again (16 R403). -/
def State.pollWaits (s : State) : State :=
  s.queues.foldl (fun s e => if e.2.wait.isSome then s.pushOnce (.signalPoll e.1) else s) s

/-- SIGNAL: amo.add or amo.swap of VALUE. -/
def State.runSignal (s : State) (q : Nat) (p : Block) (i : Nat) : State :=
  let part := cbPart (s.queueAt q).cb
  let r := s.signalAccess part (pk8 p 8) (.amo (if blkField p 24 1 = 0 then 0 else 8)) (pk8 p 16)
  match r.2 with
  | .ok _ => (r.1.issueDone q p i).pollWaits
  | .error (0, _) => r.1.push (.signal q p)
  | .error (code, va) => (r.1.issue q p 0).failPacket q i code va

def execSignal (s : State) : Host.Outcome State Fault Refusal :=
  match s.event with
  | some (.signal q p) => .next (s.taken.packet q p (fun s i => s.runSignal q p i))
  | _ => .fault .noSuchEvent

/-- The condition of a WAIT. -/
def waitHolds (p : Block) (v : Nat) : Bool := if blkField p 24 1 = 0 then decide (pk8 p 16 ≤ v) else v == pk8 p 16

/-- The WAIT that holds a queue reads its signal: it completes, fails, or is read again. -/
def State.pollWait (s : State) (q : Nat) : State :=
  let k := s.queueAt q
  match k.wait with
  | none => s
  | some (i, p) =>
    let r := s.signalAccess (cbPart k.cb) (pk8 p 8) .load 0
    let clear (s : State) : State := s.mapQueue q (fun k => { k with wait := none })
    match r.2 with
    | .ok v =>
      if waitHolds p v then ((clear r.1).push (.packetComplete q i)).pushOnce .dispatchDecision else r.1.pushOnce (.signalPoll q)
    | .error (0, _) => r.1.pushOnce (.signalPoll q)
    | .error (code, va) => (clear r.1).failPacket q i code va

/-- WAIT: it issues, holds later packets, and reads its signal. -/
def execWait (s : State) : Host.Outcome State Fault Refusal :=
  match s.event with
  | some (.wait q p) =>
    .next (s.taken.packet q p (fun s i => ((s.mapQueue q (fun k => { k with wait := some (i, p) })).issue q p 0).pollWait q))
  | _ => .fault .noSuchEvent

/-- SIGNAL_POLL. -/
def execSignalPoll (s : State) : Host.Outcome State Fault Refusal :=
  match s.event with
  | some (.signalPoll q) => .next (s.taken.pollWait q)
  | _ => .fault .noSuchEvent

/-! ## COPY (16 R404) -/

/-- Copies the lines k to k + n − 1 of a COPY: how far it came, the bytes dropped, and what ended it before its last line. -/
def State.copyLines (part src dst : Nat) : Nat → Nat → Nat → State → State × Nat × Nat × Option (Nat × Nat)
  | 0, k, lost, s => (s, k, lost, none)
  | n + 1, k, lost, s =>
    let a := s.fwPage part (src + 64 * k) true false
    match a.2 with
    | .error e => (a.1, k, lost, some e)
    | .ok (from_, disc) =>
      let b := a.1.fwPage part (dst + 64 * k) false true
      match b.2 with
      | .error e => (b.1, k, lost, some e)
      | .ok (into, _) =>
        let s := b.1
        if (!disc && (s.heldAt from_).isSome) || (s.heldFor part (dst + 64 * k) 64).isSome then (s, k, lost, some (0, dst + 64 * k)) else
        let v := if disc then 0 else s.memory.read from_ 64
        let mask := if disc then 0 else lostBytes 32 s.memory from_ 64
        let s := if mask = 0 then s else s.countStack from_ 64
        let s := ((s.cancelDiscard part (dst + 64 * k)).fwStore into 64 v mask).setDirtyBit part (dst + 64 * k)
        State.copyLines part src dst n (k + 1) (lost + countBits mask 64) s

/-- An issued COPY that has lines left. -/
def Issued.copies (p : Block) (x : Issued) : Bool := x.packet == p && decide (x.lines < pk8 p 24 / 64)

/-- A COPY has come as far as it can now: it completes, fails, or waits for a page or a repair. -/
def State.copyEnd (s : State) (q i tag lost : Nat) (why : Option (Nat × Nat)) : State :=
  match why with
  | none => let s := s.pushOnce (.packetComplete q i); if lost = 0 then s else s.queueEvent q 0x35 0 tag lost 0
  | some (0, _) => s
  | some (code, va) => s.failPacket q i code va

/-- The oldest issued COPY with a packet's fields goes on from the line it has come to, in one step as far as it can (notes/assumptions/29.md). It is tried again while
some is left. -/
def State.runCopy (s : State) (q : Nat) (p : Block) : State :=
  match (s.queueAt q).issued.find? (Issued.copies p) with
  | none => s
  | some x =>
    let r := State.copyLines (cbPart (s.queueAt q).cb) (pk8 p 8) (pk8 p 16) (pk8 p 24 / 64 - x.lines) x.lines x.lost s
    let s := r.1.mapQueue q (fun k => { k with issued := k.issued.map (fun y => if y.index = x.index then { y with lines := r.2.1, lost := r.2.2.1 } else y) })
    let s := s.copyEnd q x.index (pkTag p) r.2.2.1 r.2.2.2
    if (s.queueAt q).issued.any (Issued.copies p) then s.push (.copy q p) else s

/-- COPY issues in its turn, and then goes on independently of its queue (16 R399, R402, R404). -/
def execCopy (s : State) : Host.Outcome State Fault Refusal :=
  match s.event with
  | some (.copy q p) => .next ((s.taken.packet q p (fun s _ => s.issue q p 0)).runCopy q p)
  | _ => .fault .noSuchEvent

/-! ## DISCARD (16 R416) -/

/-- DISCARD acts as mnt.discard without a line cache, after the end of a migration of a page of its range (15 R392); INFO0 of its COMPLETE holds the bytes discarded. -/
def State.runDiscard (s : State) (q : Nat) (p : Block) (i : Nat) : State :=
  let va := pk8 p 8
  let n := pk8 p 16
  let part := cbPart (s.queueAt q).cb
  if s.migratingIn part va n then s.push (.discard q p)
  else
  let r := s.discardPages va (va + n) part (n / 2 ^ 16) va 0
  (r.1.issue q p (BitVec.ofNat 64 r.2)).pushOnce (.packetComplete q i)

def execDiscard (s : State) : Host.Outcome State Fault Refusal :=
  match s.event with
  | some (.discard q p) => .next (s.taken.packet q p (fun s i => s.runDiscard q p i))
  | _ => .fault .noSuchEvent

/-! ## CONFIG (16 R418) -/

/-- The packet's effect where it is not refused: it issues, its change takes effect, and it completes. -/
def State.config (s : State) (q : Nat) (p : Block) (i : Nat) (refused : Bool) (f : State → State) : State :=
  if refused then s.rejectPacket q 2 (pkTag p) else (f (s.issue q p 0)).pushOnce (.packetComplete q i)

/-- The packet reads n bytes at an address, which it read for the validator before (notes/assumptions/28.md); what cannot be read now is refused. -/
def State.configRead (s : State) (q : Nat) (p : Block) (va n : Nat) (f : State → Nat → State) : State :=
  let r := s.fwRead (cbPart (s.queueAt q).cb) va n
  match r.2 with
  | .ok v => f r.1 v
  | .error (0, _) => r.1.push (packetEvent q p)
  | .error _ => r.1.rejectPacket q 2 (pkTag p)

/-- QSET. DONE counts from the write on (16 R395). -/
def State.runQset (s : State) (q : Nat) (p : Block) (i : Nat) : State :=
  let a := pk8 p 16
  s.configRead q p (pk8 p 24) 64 (fun s v =>
    let b : Block := BitVec.ofNat 512 v
    let refused := !cbOk b || !s.sameOwner q a || !(s.queueAt a).issued.isEmpty || (s.queueAt a).part != some (cbPart b)
    s.config q p i refused (fun s =>
      ((s.mapQueue a (fun k => { k with cb := blkSet b 448 64 0, wait := none, fetched := none, rejected := false })).serveBells).kickQueue a))

def execConfigQset (s : State) : Host.Outcome State Fault Refusal :=
  match s.event with
  | some (.configQset q p) => .next (s.taken.packet q p (fun s i => s.runQset q p i))
  | _ => .fault .noSuchEvent

/-- QREAD. A write of the block that fails is a failed access of the packet (notes/assumptions/28.md). -/
def State.runQread (s : State) (q : Nat) (p : Block) (i : Nat) : State :=
  let a := pk8 p 16
  if !s.sameOwner q a then s.rejectPacket q 2 (pkTag p)
  else
    let t := s.issue q p 0
    let r := t.fwPut (cbPart (t.queueAt q).cb) (pk8 p 24) 64 (t.queueAt a).cb.toNat true
    match r.2 with
    | .ok _ => r.1.pushOnce (.packetComplete q i)
    | .error (0, _) => s.push (.configQread q p)
    | .error (code, va) => r.1.failPacket q i code va

def execConfigQread (s : State) : Host.Outcome State Fault Refusal :=
  match s.event with
  | some (.configQread q p) => .next (s.taken.packet q p (fun s i => s.runQread q p i))
  | _ => .fault .noSuchEvent

/-- A stopped queue runs again; with skip a rejected packet is passed. -/
def State.resumeQueue (s : State) (a : Nat) (skip : Bool) : State :=
  let k := s.queueAt a
  if cbState k.cb ≠ 2 then s
  else
    let b := blkSet k.cb 80 2 1
    let b := if skip && k.rejected then cbSetRdidx b (cbRdidx b + 1) else b
    (s.mapQueue a (fun k => { k with cb := b, rejected := false })).kickQueue a

/-- QRESUME. -/
def execConfigQresume (s : State) : Host.Outcome State Fault Refusal :=
  match s.event with
  | some (.configQresume q p) =>
    .next (s.taken.packet q p (fun s i =>
      s.config q p i (!s.sameOwner q (pk8 p 16)) (fun s => s.resumeQueue (pk8 p 16) (pk8 p 24 == 1))))
  | _ => .fault .noSuchEvent

/-- The log area of a core reads 0 with full bits (07 R174). -/
def Core.clearLog (k : Core) : Core := { k with store := k.store.clearRange 8 0x17F000 0x1000, logCount := 0, logMerged := 0, logFilter := [] }

/-- The cores that hold a cell of a partition. -/
def State.partCores (s : State) (part : Nat) : List Nat :=
  (s.cores.filter (fun e => match e.2.cell with
    | some k => k.part == part
    | none => false)).map (·.1)

/-- A lsu or amo word of slot i of core d, not yet retired, waits at a word of core c's log area (07 R174). -/
def State.wordAtLog (s : State) (c d i : Nat) : Bool :=
  match (s.slot d i).held with
  | none => false
  | some h =>
    match h.why, resolvingMove h.moves with
    | .engine _, _ => false
    | _, none => false
    | _, some m =>
      let sl := (s.slot d i).writeMoves h.moves
      let ea := accessEa m.dst m.val sl
      let g := sl.seg (segNo ea)
      let l := g.base + offOf ea
      (blockOf m.dst == 0x0B || blockOf m.dst == 0x0C)
        && ((g.space == 1 && d == c) || (g.space == 2 && clusterTarget d l == c)) && decide (0x17F000 ≤ l % 2 ^ 21)

/-- A command of a core's copy, matrix or vector engine whose range touches the core's log area; a multicast's destination is judged by its mask (07 R174, 10 R255). -/
def Cmd.atLog (s : State) (c : Nat) (m : Cmd) : Bool :=
  let k := opOf m.op
  let touches (x : Word × Int × Int) : Bool := (m.seg (segNo x.1)).meetsLog c x.2.1 x.2.2
  let spans (l : List (Word × Nat × Nat)) : Bool := l.any (fun x => touches (x.1, (offOf x.1 : Int), ((offOf x.1 + x.2.1 : Nat) : Int)))
  if blockOf m.op = 0x18 then
    let l := cpySpans k m.blk m.smap m.dmap
    if k = 5 then (l.take 1).any touches || m.castAtLog c else l.any touches
  else if blockOf m.op = 0x19 then
    if k ≤ 1 then spans (passOperands m.blk)
    else k != 2 && spans [((transferOf m.blk).addr, (transferOf m.blk).span, 0)]
  else ((s.setCore c { s.core c with logging := true }).vxRanges c k m.blk).isSome

/-- Nothing that touches the log area of a core is under way: logging may start there (07 R174). -/
def State.logQuiet (s : State) (c : Nat) : Bool :=
  let k := s.core c
  !(k.cpy.cmds ++ k.mx.cmds ++ k.vx.cmds).any (Cmd.atLog s c)
    && s.cores.all (fun e => e.2.slots.all (fun x => !s.wordAtLog c e.1 x.1))

/-- The log area of a core is cleared and its logging is set; the accesses that wait there are served (07 R156, R174). -/
def State.setLog (s : State) (c : Nat) (on : Bool) : State :=
  let s := s.setCore c { (s.core c).clearLog with logging := on }
  s.serveCore c (s.core c).retry

/-- Logging starts at the cores that are quiet; the packet completes when it is on everywhere (07 R174). -/
def State.logOn (s : State) (q : Nat) (p : Block) (i part : Nat) : State :=
  let s := (s.partCores part).foldl (fun s c =>
    if !(s.core c).logging && s.logQuiet c then s.setLog c true else s) s
  if (s.partCores part).all (fun c => (s.core c).logging) then s.pushOnce (.packetComplete q i) else s.push (.configLog q p)

/-- Logging stops after the merge of what is unmerged (07 R174). -/
def State.logOff (s : State) (part : Nat) : State :=
  (s.partCores part).foldl (fun s c =>
    (s.logMergeEvent c).setLog c false) s

/-- LOG: refused while a cell of the partition declares STORE above the log area; carried out again until every core has changed. -/
def State.runLog (s : State) (q : Nat) (p : Block) : State :=
  let k := s.queueAt q
  let part := cbPart k.cb
  let on := pk8 p 16 == 1
  let going := k.issued.find? (fun x => x.packet == p)
  if cbState k.cb = 1 ∧ k.fetched = some p then
    if on && (s.partCores part).any (fun c => decide (0x17F000 < (s.cell c).storeDecl)) then s.rejectPacket q 2 (pkTag p)
    else
      let i := cbRdidx k.cb
      let s := (s.issue q p 0).setPart part { s.part part with logging := on }
      if on then s.logOn q p i part else (s.logOff part).pushOnce (.packetComplete q i)
  else
    match going with
    | some x => if on then s.logOn q p x.index part else s
    | none => s

def execConfigLog (s : State) : Host.Outcome State Fault Refusal :=
  match s.event with
  | some (.configLog q p) => .next (s.taken.runLog q p)
  | _ => .fault .noSuchEvent

/-- BIND: byte d names the peer partition on device d, 0xFF none (13 R318). -/
def State.runBind (s : State) (q : Nat) (p : Block) (i : Nat) : State :=
  s.configRead q p (pk8 p 16) 288 (fun s v =>
    let entry (d : Nat) : Nat := bitsOf v (8 * d) 8
    let part := cbPart (s.queueAt q).cb
    s.config q p i (!bindOk v) (fun s => s.setPart part { s.part part with
      bind := (List.range 288).filterMap (fun d => if entry d = 255 then none else some (d, entry d)) }))

def execConfigBind (s : State) : Host.Outcome State Fault Refusal :=
  match s.event with
  | some (.configBind q p) => .next (s.taken.packet q p (fun s i => s.runBind q p i))
  | _ => .fault .noSuchEvent

/-- EVCH: the channel starts anew with its description (notes/assumptions/30.md). -/
def State.runEvch (s : State) (q : Nat) (p : Block) (i : Nat) : State :=
  s.configRead q p (pk8 p 24) 32 (fun s v =>
    let c : BitVec 256 := BitVec.ofNat 256 v
    s.config q p i (!evOk c) (fun s =>
      s.setEvchan (cbPart (s.queueAt q).cb) (pk8 p 16) { EventChan.none with cfg := c, configured := true }))

def execConfigEvch (s : State) : Host.Outcome State Fault Refusal :=
  match s.event with
  | some (.configEvch q p) => .next (s.taken.packet q p (fun s i => s.runEvch q p i))
  | _ => .fault .noSuchEvent

/-- LIMITS (13 R345, 14 R372). -/
def execConfigLimits (s : State) : Host.Outcome State Fault Refusal :=
  match s.event with
  | some (.configLimits q p) =>
    .next (s.taken.packet q p (fun s i => s.config q p i false (fun s =>
      let part := cbPart (s.queueAt q).cb
      s.setPart part { s.part part with limitUs := pk8 p 16 % 2 ^ 32, weights := bitsOf (pk8 p 16) 32 1 == 1 })))
  | _ => .fault .noSuchEvent

/-- TRACE: the partition's bit in TRCCTL.PARTS of every cluster (17 R434). -/
def execConfigTrace (s : State) : Host.Outcome State Fault Refusal :=
  match s.event with
  | some (.configTrace q p) =>
    .next (s.taken.packet q p (fun s i => s.config q p i false (fun s =>
      let bit : BitVec 16 := BitVec.ofNat 16 (2 ^ cbPart (s.queueAt q).cb)
      (List.range 8).foldl (fun s cl =>
        let k := s.cluster cl
        s.setCluster cl { k with trace := { k.trace with
          parts := if pk8 p 16 = 1 then k.trace.parts ||| bit else k.trace.parts &&& ~~~bit } }) s)))
  | _ => .fault .noSuchEvent

end Sys2Proof.Machine
end

