-- ==== Sys2Proof/Machine/Tables.lean ====
section
/-! DEFINITION. TABLE packets: firmware's changes of a partition's page tables (07 R167, R168, 16 R417). -/

namespace Sys2Proof.Machine

/-- The table word at a physical address. -/
def State.tableWord (s : State) (a : Nat) : Word := BitVec.ofNat 64 (s.memory.read a 8)

/-- Firmware writes a table word. -/
def State.putEntry (s : State) (a v : Nat) : State := { s with memory := s.memory.write 32 a 8 v }

/-- A table of a level with every entry invalid, from the memory kept for tables (07 R167). -/
def State.newTable (s : State) (l : Nat) : Option (Nat × State) :=
  let size := 8 * levelEntries l
  match s.tableFree.find? (fun (e : Nat × Nat) => e.2 == size) with
  | some e => some (e.1, { s with tableFree := s.tableFree.erase e, memory := s.memory.clearRange 32 e.1 size })
  | none =>
    let a := (s.tableNext + size - 1) / size * size
    if Config.physBytes < a + size then none else some (a, { s with tableNext := a + size, memory := s.memory.clearRange 32 a size })

/-- A page entry is valid and well formed. -/
def pteValid (l : Nat) (e : Word) : Bool := e.getLsbD 0 && !malformed l e

/-- A leaf at level l becomes a table of the next level over the same frames, with the same rights, D, DISC and LOST (15 R386 step 2). -/
def State.splitLeaf (s : State) (l a : Nat) (e : Word) : Option (Nat × State) :=
  match s.newTable (l + 1) with
  | none => none
  | some (t, s) =>
    let size := 2 ^ levelShift (l + 1)
    let n := levelEntries (l + 1)
    let s := (List.range n).foldl (fun s k => s.putEntry (t + 8 * k) (e.toNat + k * size)) s
    let old := (pteFrame e, 2 ^ levelShift l)
    let s := if s.frames.contains old then
        { s with frames := (List.range n).map (fun k => (pteFrame e + k * size, size)) ++ s.frames.erase old } else s
    some (t, s.putEntry a (1 + t))

/-- A leaf becomes pages of the level wanted, all of it (16 R417, larger leaf); false where no table can be made. -/
def State.splitTo (want : Nat) : Nat → Nat → Nat → State → State × Bool
  | 0, _, _, s => (s, true)
  | fuel + 1, l, a, s =>
    if want ≤ l then (s, true)
    else
      match s.splitLeaf l a (s.tableWord a) with
      | none => (s, false)
      | some (t, s) => (List.range (levelEntries (l + 1))).foldl (fun r k => if r.2 then State.splitTo want fuel (l + 1) (t + 8 * k) r.1 else r) (s, true)

/-- What the walk to an entry finds: its place, no table that leads to it, or no memory for a table that it needs. -/
inductive Entry where
  | at_ (a : Nat)
  | absent
  | noTable
  deriving DecidableEq, Repr

/-- The entry of va at the level wanted: larger leaves are split, and missing tables made where asked. -/
def State.entryFor (make : Bool) (va want : Nat) : Nat → Nat → Nat → State → State × Entry
  | 0, _, _, s => (s, .absent)
  | fuel + 1, l, base, s =>
    let a := entryAt l base va
    if l = want then (s, .at_ a)
    else
      let e := s.tableWord a
      if !pteValid l e then
        if !make then (s, .absent)
        else
          match s.newTable (l + 1) with
          | none => (s, .noTable)
          | some (t, s) => State.entryFor make va want fuel (l + 1) t (s.putEntry a (1 + t))
      else
        let r := if bitsOf e.toNat 1 2 = 1 then State.splitTo want 3 l a s else (s, true)
        if r.2 then State.entryFor make va want fuel (l + 1) (bitsOf (r.1.tableWord a).toNat 8 32 * 256) r.1 else (r.1, .noTable)

/-- RIGHTS in the places of a page entry. -/
def rightsOf (p : Block) : Nat := blkField p 9 1 % 8 * 8

/-- An entry's frame belongs to it: resident, or kept while not resident; a lost frame stays retired (15 R387). -/
def pteOwns (e : Word) : Bool := (pteP e || !pteDisc e) && !pteLost e

/-- What a SUB does to a page entry; false is a MAP with no free frame. -/
def State.actPage (sub rights l a : Nat) (s : State) : State × Bool :=
  let e := s.tableWord a
  let size := 2 ^ levelShift l
  let valid := pteValid l e
  let withRights := e.toNat - bitsOf e.toNat 3 3 * 8 + rights
  let free (s : State) : State := if valid && pteOwns e then s.dropFrame (pteFrame e) size else s
  match sub with
  | 0 =>
    if valid then (s.putEntry a withRights, true)
    else
      match s.freeFrame size with
      | some b => ((s.takeFrame b size).putEntry a (3 + rights + 0x40 + b), true)
      | none => (s, false)
  | 1 => (if valid then (free s).putEntry a 0 else s, true)
  | 2 => (if valid then s.putEntry a withRights else s, true)
  | _ => ((free s).putEntry a (3 + rights + 0x100), true)

/-- A SUB acts on an entry, or on each entry of the smaller table that it points to; UNMAP frees that table. -/
def State.actEntry (sub rights : Nat) : Nat → Nat → Nat → State → State × Bool
  | 0, _, _, s => (s, true)
  | fuel + 1, l, a, s =>
    let e := s.tableWord a
    if pteValid l e && bitsOf e.toNat 1 2 == 0 then
      let t := bitsOf e.toNat 8 32 * 256
      let n := levelEntries (l + 1)
      let r := (List.range n).foldl (fun (r : State × Bool) k => if r.2 then State.actEntry sub rights fuel (l + 1) (t + 8 * k) r.1 else r) (s, true)
      if sub = 1 then ({ r.1.putEntry a 0 with tableFree := (t, 8 * n) :: r.1.tableFree }, r.2) else r
    else s.actPage sub rights l a

/-- The level whose leaves have a packet's page size. -/
def tableLevel (p : Block) : Nat := match blkField p 10 1 with | 0 => 3 | 1 => 2 | _ => 1

/-- A SUB acts on the page of va; false says that no frame, or no memory for a table that it or a split needs, was free (16 R417; notes/assumptions/101.md). -/
def State.tablePage (s : State) (part : Nat) (p : Block) (va : Nat) : State × Bool :=
  let sub := blkField p 8 1
  match (s.part part).root with
  | none => (s, false)
  | some root =>
    let make := sub == 0 || sub == 3
    let r := State.entryFor make va (tableLevel p) 3 1 root s
    match r.2 with
    | .absent => (r.1, true)
    | .noTable => (r.1, false)
    | .at_ a => State.actEntry sub (rightsOf p) 3 (tableLevel p) a r.1

/-- Line caches that hold the range are written back (16 R417 UNMAP). -/
def State.cleanRange (s : State) (part va n : Nat) : State :=
  s.cores.foldl (fun s e => s.cleanLines e.1 (fun l => l.part == part && decide (va ≤ l.va) && decide (l.va < va + n))) s

/-- A TABLE packet acts on its pages in ascending order, and every TLB confirms. -/
def State.runTable (s : State) (q : Nat) (p : Block) (i : Nat) : State :=
  let part := cbPart (s.queueAt q).cb
  let va := pk8 p 16
  let n := pk8 p 24
  let s := if blkField p 8 1 = 1 then s.cleanRange part va n else s
  let r := (List.range (n / tableSize p)).foldl (fun (r : State × Bool) k =>
    if r.2 then r.1.tablePage part p (va + k * tableSize p) else r) (s, true)
  let s := (r.1.flushTlb part va n).issueDone q p i
  if r.2 then s else s.queueEvent q 0x36 0 (pkTag p) 0 0

/-- TABLE MAP. -/
def execTableMap (s : State) : Host.Outcome State Fault Refusal :=
  match s.event with
  | some (.tableMap q p) => .next (s.taken.packet q p (fun s i => s.runTable q p i))
  | _ => .fault .noSuchEvent

/-- TABLE UNMAP. -/
def execTableUnmap (s : State) : Host.Outcome State Fault Refusal :=
  match s.event with
  | some (.tableUnmap q p) => .next (s.taken.packet q p (fun s i => s.runTable q p i))
  | _ => .fault .noSuchEvent

/-- TABLE PROTECT. -/
def execTableProtect (s : State) : Host.Outcome State Fault Refusal :=
  match s.event with
  | some (.tableProtect q p) => .next (s.taken.packet q p (fun s i => s.runTable q p i))
  | _ => .fault .noSuchEvent

/-- TABLE RESERVE. -/
def execTableReserve (s : State) : Host.Outcome State Fault Refusal :=
  match s.event with
  | some (.tableReserve q p) => .next (s.taken.packet q p (fun s i => s.runTable q p i))
  | _ => .fault .noSuchEvent

end Sys2Proof.Machine
end

