-- ==== Sys2Proof/Machine/Launch.lean ====
section
/-! DEFINITION. Launch descriptors, LAUNCH packets and the placement of gangs (01 R21, R22, 16 R401, R405 to R408). -/

namespace Sys2Proof.Machine

/-! ## The launch descriptor (16 R406) -/

/-- Bytes byte to byte + n − 1 of a launch descriptor. -/
def ldField (d : BitVec 2048) (byte n : Nat) : Nat := bitsOf d.toNat (8 * byte) (8 * n)

def ldImage (d : BitVec 2048) : Nat := ldField d 0 8
def ldGangs (d : BitVec 2048) : Nat := ldField d 8 2
def ldStrands (d : BitVec 2048) : Nat := ldField d 10 1
def ldClass (d : BitVec 2048) : Nat := ldField d 11 1
def ldHmask (d : BitVec 2048) : Nat := ldField d 12 4
def ldHrec (d : BitVec 2048) : Nat := ldField d 16 4
def ldSavesz (d : BitVec 2048) : Nat := ldField d 20 4
def ldPools (d : BitVec 2048) : Nat := ldField d 24 1
def ldBars (d : BitVec 2048) : Nat := ldField d 25 1
def ldBarexp (d : BitVec 2048) : Nat := ldField d 26 1
def ldLrec (d : BitVec 2048) : Nat := ldField d 28 4
def ldRing (d : BitVec 2048) (k : Nat) : Nat := ldField d (32 + 4 * k) 4
def ldSegL (d : BitVec 2048) (k : Nat) : Word := BitVec.ofNat 64 (ldField d (64 + 16 * k) 8)
def ldSegH (d : BitVec 2048) (k : Nat) : Word := BitVec.ofNat 64 (ldField d (72 + 16 * k) 8)
def ldSeg (d : BitVec 2048) (k : Nat) : Seg := segOf (ldSegL d k) (ldSegH d k)

/-- BASE and SIZE of a ring of the descriptor. -/
def ringBase (r : Nat) : Nat := bitsOf r 0 15 * 64
def ringSize (r : Nat) : Nat := if bitsOf r 15 3 = 0 then 0 else 2 ^ (bitsOf r 15 3 + 3)

/-- Two rings overlap. -/
def ringsMeet (a b : Nat) : Bool :=
  ringSize a != 0 && ringSize b != 0 && decide (ringBase a < ringBase b + 64 * ringSize b) && decide (ringBase b < ringBase a + 64 * ringSize a)

/-- Fields of a gang's entry. -/
def gangW (g : Word) : Nat := bitsOf g.toNat 0 4
def gangH (g : Word) : Nat := bitsOf g.toNat 4 4
def gangMask (g : Word) : Nat := bitsOf g.toNat 8 8

/-- The descriptor's own checks (16 R406). -/
def descOk (d : BitVec 2048) (gangs : List Word) : Bool :=
  let rings := (List.range 8).map (ldRing d)
  let s7 := ldSeg d 7
  ldImage d % 64 == 0 && decide (1 ≤ ldGangs d) && decide (1 ≤ ldStrands d) && decide (1 ≤ ldClass d) && decide (ldClass d ≤ 3)
    && bitsOf (ldHmask d) 0 1 == 0 && bitsOf (ldHmask d) 14 1 == 0 && bitsOf (ldHmask d) 18 14 == 0
    && ldHrec d % 64 == 0 && decide (ldHrec d < 0x180000) && decide (ldPools d ≤ 16) && decide (ldBars d ≤ 32)
    && (if ldBars d = 0 then ldBarexp d == 0 else ldBarexp d != 0) && ldField d 27 1 == 0
    && ldLrec d % 64 == 0 && decide (ldLrec d < 0x180000)
    && rings.all (fun r => decide (bitsOf r 0 15 < 0x6000) && bitsOf r 18 14 == 0 && decide (ringBase r + 64 * ringSize r ≤ 0x180000))
    && (List.range 8).all (fun k => (List.range k).all (fun j => !ringsMeet (ldRing d k) (ldRing d j)))
    && (List.range 8).all (fun k => ldSegL d k &&& ~~~segLMask == 0 && ldSegH d k &&& ~~~segHMask == 0)
    && (s7.space == 1 || s7.space == 4) && s7.ex
    && gangs.all (fun g => decide (1 ≤ gangW g) && decide (gangW g ≤ 12) && decide (1 ≤ gangH g) && decide (gangH g ≤ 8) && bitsOf g.toNat 16 48 == 0)

/-- Reads a launch descriptor and its gangs. -/
def State.readDesc (s : State) (part va : Nat) : State × Fw (BitVec 2048 × List Word) :=
  let r := s.fwRead part va 256
  match r.2 with
  | .error e => (r.1, .error e)
  | .ok v =>
    let d : BitVec 2048 := BitVec.ofNat 2048 v
    let n := ldGangs d
    let r := r.1.fwRead part (va + 256) (8 * n)
    match r.2 with
    | .error e => (r.1, .error e)
    | .ok g => (r.1, .ok (d, (List.range n).map (fun k => BitVec.ofNat 64 (bitsOf g (64 * k) 64))))

/-! ## Launches (16 R399, R405) -/

/-- A gang that waits to be placed. -/
def Gang.waiting (shape : Word) : Gang :=
  { shape := shape, cluster := none, origin := 0, channels := [], pools := [], loaded := false, ended := false, preempt := .running, cores := []
    saved := [], savedChannels := [], savedPools := [], requested := false }

/-- A new launch with its gangs; a launch of a panorama's member that was asked for by another device names queue 2^20. -/
def Launch.new (queue index part : Nat) (desc : BitVec 2048) (gangs : List Word) (coresident : Bool) (pan : Option Nat) (member : Nat) : Launch :=
  { queue := queue, index := index, part := part, desc := desc, gangs := (List.zip (List.range gangs.length) (gangs.map Gang.waiting))
    coresident := coresident, imageOk := false, image := 0, sections := [], written := (0, 0), ending := none, pan := pan, member := member, detector := Detector.fresh }

def State.addLaunch (s : State) (l : Launch) : State :=
  { s with launches := s.launches ++ [(s.nextLaunch, l)], nextLaunch := s.nextLaunch + 1 }

/-- LAUNCH: item 4 of the validator, then the launch is issued (16 R401, R405). -/
def State.runLaunch (s : State) (q : Nat) (p : Block) (i : Nat) : State :=
  let b := (s.queueAt q).cb
  let r := s.readDesc (cbPart b) (pk8 p 8)
  match r.2 with
  | .error (0, _) => r.1.push (.launch q p)
  | .error _ => r.1.rejectPacket q 4 (pkTag p)
  | .ok (d, gs) =>
    if !descOk d gs || !inRange b (pk8 p 8) (256 + 8 * gs.length) false || !inRange b (ldImage d) 64 false then r.1.rejectPacket q 4 (pkTag p)
    else
      (r.1.issue q p 0).addLaunch (Launch.new q i (cbPart b) d gs (pkCores p) none 0)

def execLaunch (s : State) : Host.Outcome State Fault Refusal :=
  match s.event with
  | some (.launch q p) => .next (s.taken.packet q p (fun s i => s.runLaunch q p i))
  | _ => .fault .noSuchEvent

/-! ## Placement (01 R11, R15, R22, 16 R408) -/

/-- The package cores of a rectangle of a cluster, in rank order (01 R22). -/
def rectCores (cl origin w h : Nat) : List Nat := (List.range h).flatMap (fun r => (List.range w).map (fun c => 96 * cl + origin + 12 * r + c))

/-- A core that no cell and no placed gang holds. -/
def State.coreFree (s : State) (c : Nat) : Bool :=
  (s.core c).cell.isNone && !s.launches.any (fun e => e.2.gangs.any (fun g => g.2.cluster.isSome && !g.2.loaded && !g.2.ended && g.2.cores.contains c))

/-- A rectangle at an origin lies in a cluster, and its cores are free. -/
def State.rectFree (s : State) (cl origin w h : Nat) : Bool :=
  decide (origin % 12 + w ≤ 12) && decide (origin / 12 + h ≤ 8) && (rectCores cl origin w h).all s.coreFree

/-- The free channels and pools of a cluster, in rising order. -/
def Cluster.freeChannels (k : Cluster) : List Nat := (List.range 32).filter (fun n => (k.channels.get Channel.free n).owner.isNone)
def Cluster.freePools (k : Cluster) : List Nat := (List.range 16).filter (fun n => (k.pools.get Pool.free n).owner.isNone)

/-- The lowest origin in a cluster where a gang of a launch fits, when the cluster serves and has the channels and pools (16 R408). -/
def State.fitIn (s : State) (d : BitVec 2048) (shape : Word) (cl : Nat) : Option Nat :=
  let k := s.cluster cl
  if !k.inService || (gangMask shape != 0 && bitsOf (gangMask shape) cl 1 == 0) || decide (k.freeChannels.length < ldBars d)
      || decide (k.freePools.length < ldPools d) then none
  else (List.range 96).find? (fun o => s.rectFree cl o (gangW shape) (gangH shape))

/-- The lowest permitted cluster where a gang fits, and the origin. -/
def State.findPlace (s : State) (d : BitVec 2048) (shape : Word) : Option (Nat × Nat) :=
  (List.range 8).findSome? (fun cl => (s.fitIn d shape cl).map (fun o => (cl, o)))

/-- A gang takes a rectangle, channels and pools (16 R408). The detector instance of a launch that is not CORESIDENT is sampled from its first dispatch on
(06 R145, 16 R413). -/
def State.takePlace (s : State) (l g : Nat) (shape : Word) (cl origin : Nat) (chs pools : List Nat) : State :=
  let k := s.cluster cl
  let own : Option (Nat × Nat) := some (l, g)
  let s := s.setCluster cl { k with
    channels := chs.foldl (fun (t : Table Channel) n => Table.set t n { Channel.free with owner := own }) k.channels
    pools := pools.foldl (fun (t : Table Pool) n => Table.set t n { Pool.free with owner := own }) k.pools }
  let s := s.mapLaunch l (fun la => { la with detector := { la.detector with placedSince := true } })
  let s := if (s.launchAt l).elim true (·.coresident) then s else s.pushOnce (.quiescenceSample false l)
  s.mapGang l g (fun ga => { ga with cluster := some cl, origin := origin, channels := chs, pools := pools
                                     cores := rectCores cl origin (gangW shape) (gangH shape) })

/-- The next gang of a launch is placed, or not. A gated cluster is woken first (18 R452). -/
def State.placeGang (s : State) (l g : Nat) : State × Bool :=
  match s.launchAt l with
  | none => (s, false)
  | some la =>
    let shape := ((la.gangs.find? (fun e => e.1 == g)).map (fun e => e.2.shape)).getD 0
    match s.findPlace la.desc shape with
    | none => (s, false)
    | some (cl, o) =>
      let k := s.cluster cl
      if !k.powered then (s.pushOnce (.clusterWake cl), false)
      else (s.takePlace l g shape cl o (k.freeChannels.take (ldBars la.desc)) (k.freePools.take (ldPools la.desc)), true)

/-- The gangs of a launch that wait, in gang order. -/
def Launch.toPlace (la : Launch) : List Nat := (la.gangs.filter (fun e => !e.2.loaded && !e.2.ended && e.2.cluster.isNone)).map (·.1)

/-- Places gangs in order until one does not fit; the placed ones load (16 R408). -/
def State.placeGangs (s : State) (l : Nat) : List Nat → State × Bool
  | [] => (s, true)
  | g :: r =>
    let x := s.placeGang l g
    if x.2 then State.placeGangs (x.1.push (.gangLoad l g)) l r else (x.1, false)

/-- Clusters that a launch waits for are woken. -/
def State.wakeClusters (s : State) : State :=
  (List.range 8).foldl (fun s cl => if (s.cluster cl).inService && !(s.cluster cl).powered then s.pushOnce (.clusterWake cl) else s) s

/-- The gangs of a launch are placed: a CORESIDENT launch all at once, or none (16 R408). -/
def State.placeLaunch (s : State) (l : Nat) (la : Launch) : State × Bool :=
  let r := s.placeGangs l la.toPlace
  if la.coresident && !r.2 then (s.wakeClusters, false) else r

end Sys2Proof.Machine
end

