-- ==== Sys2Proof/Machine/Panorama.lean ====
section
/-! DEFINITION. PANLAUNCH packets and the admission of a panorama in two phases (13 R333, 16 R414, R415). -/

namespace Sys2Proof.Machine

/-- The queue that stands for a PANLAUNCH issued on another device. -/
def noQueue : Nat := 2 ^ 20

/-- A panorama that is not committed is kept under a key above every PANID: its device, and a number that gives its place among the launches. -/
def panKey (device n : Nat) : Nat := 2 ^ 16 + device * 2 ^ 40 + n * 2 ^ 17

/-- The place of a key among the launches. -/
def keyOrder (key : Nat) : Nat := key % 2 ^ 40 / 2 ^ 17

/-- A panorama before its prepare. members are device, LDESC and partition. -/
def Panorama.asked (queue index part domch domexp : Nat) (members : List (Nat × Nat × Nat)) : Panorama :=
  { panid := 0, committed := false, queue := queue, index := index, part := part, domch := domch, domexp := domexp
    members := List.zip (List.range members.length) (members.map (fun (m : Nat × Nat × Nat) =>
      { device := m.1, state := 0, holders := [], launch := none, rect := 0, cluster := 0 : Member }))
    ldescs := List.zip (List.range members.length) (members.map (fun (m : Nat × Nat × Nat) => (m.2.1, m.2.2)))
    channels := [], preparing := false, prepared := [], places := [], busy := [], attached := [], asking := [], asks := [], held := [], frozen := false, farSaved := false, farBack := false
    ownSaved := false, ownBack := false, round := 0, reported := [], drainAsks := [], attempt := 0, finished := false
    ending := none, detector := Detector.fresh }

/-- The checks of a panorama descriptor of n bytes, v (16 R414). Member 0 is on this device. -/
def panDescOk (v device : Nat) : Bool :=
  let n := bitsOf v 0 16
  let domch := bitsOf v 16 8
  decide (2 ≤ n) && decide (n ≤ 288) && decide (domch ≤ 16) && (if domch = 0 then bitsOf v 24 8 == 0 else bitsOf v 24 8 != 0)
    && bitsOf v 32 480 == 0
    && (List.range n).all (fun m => decide (bitsOf v (512 + 128 * m) 9 < 288) && bitsOf v (512 + 128 * m + 9) 55 == 0)
    && bitsOf v 512 9 == device

/-- PANLAUNCH: the panorama descriptor is read and checked, and the admission waits for a dispatch decision (16 R414, R415). -/
def State.runPanlaunch (s : State) (q : Nat) (p : Block) (i : Nat) : State :=
  let b := (s.queueAt q).cb
  let part := cbPart b
  let va := pk8 p 8
  let r := s.fwRead part va 64
  match r.2 with
  | .error (0, _) => r.1.push (.panlaunch q p)
  | .error _ => r.1.rejectPacket q 4 (pkTag p)
  | .ok h =>
    let n := bitsOf h 0 16
    let r := r.1.fwRead part (va + 64) (16 * n)
    match r.2 with
    | .error (0, _) => r.1.push (.panlaunch q p)
    | .error _ => r.1.rejectPacket q 4 (pkTag p)
    | .ok t =>
      let v := h + t * 2 ^ 512
      if !panDescOk v s.device.toNat || !inRange b va (64 + 16 * n) false then r.1.rejectPacket q 4 (pkTag p)
      else
        let s := r.1.issue q p 0
        let ms : List (Nat × Nat × Nat) := (List.range n).map (fun m =>
          let d := bitsOf v (512 + 128 * m) 9
          (d, bitsOf v (576 + 128 * m) 64, if d = s.device.toNat then part else (s.part part).bind.get 255 d))
        let key := panKey s.device.toNat s.nextLaunch
        { s with pans := s.pans ++ [(key, Panorama.asked q i part (bitsOf v 16 8) (bitsOf v 24 8) ms)], nextLaunch := s.nextLaunch + 1 }

def execPanlaunch (s : State) : Host.Outcome State Fault Refusal :=
  match s.event with
  | some (.panlaunch q p) => .next (s.taken.packet q p (fun s i => s.runPanlaunch q p i))
  | _ => .fault .noSuchEvent

/-! ## Prepare (16 R415) -/

/-- The domain channels in use here. -/
def State.busyDomain (s : State) : List Nat := (s.domain.filter (fun e => e.2.owner.isSome)).map (·.1)

/-- The lowest domain channels that neither this device nor the answers name as used. -/
def State.pickDomain (s : State) (busy : List Nat) (n : Nat) : Option (List Nat) :=
  let free := (List.range 16).filter (fun k => !busy.contains k && !s.busyDomain.contains k)
  if free.length < n then none else some (free.take n)

/-- One member's gang is reserved: its descriptor read and checked, its launch made, and its gang placed. own is the validator of the
PANLAUNCH's queue, for members of the coordinator's device. -/
def State.prepareMember (s : State) (key queue index : Nat) (own : Option Block) (m ldesc part : Nat) : State × Bool :=
  let r := s.readDesc part ldesc
  match r.2 with
  | .error _ => (r.1, false)
  | .ok (d, gs) =>
    let inside := own.elim true (fun b => inRange b ldesc (256 + 8 * gs.length) false && inRange b (ldImage d) 64 false)
    if !descOk d gs || gs.length != 1 || !inside then (r.1, false)
    else
      let l := r.1.nextLaunch
      (r.1.addLaunch (Launch.new queue index part d gs true (some key) m)).placeGang l 0

/-- The members of this device are reserved, all of them or none. -/
def State.prepareAll (key queue index : Nat) (own : Option Block) : List (Nat × Nat × Nat) → State → State × Bool
  | [], s => (s, true)
  | (m, ldesc, part) :: r, s =>
    let x := s.prepareMember key queue index own m ldesc part
    if x.2 then State.prepareAll key queue index own r x.1 else (x.1, false)

/-- The reservations of a panorama that is not committed are dropped. -/
def State.dropReservation (s : State) (key : Nat) : State :=
  let mine := (s.launches.filter (fun e => e.2.pan == some key)).map (·.1)
  let s := mine.foldl (fun s l => s.freeOwned l 0) s
  { s with launches := s.launches.filter (fun e => e.2.pan != some key) }

/-- The members of a panorama on this device: member, LDESC and partition. -/
def State.ownMembers (s : State) (q : Panorama) : List (Nat × Nat × Nat) :=
  (q.members.filter (fun e => e.2.device == s.device.toNat)).map (fun e => (e.1, (q.ldescs.get (0, 0) e.1).1, (q.ldescs.get (0, 0) e.1).2))

/-- Where the reserved members of this device are placed. -/
def State.ownPlaces (s : State) (key : Nat) : List PanPlace :=
  (s.launches.filter (fun e => e.2.pan == some key)).filterMap (fun e => (e.2.gangs.find? (fun _ => true)).bind (fun x =>
    x.2.cluster.map (fun cl => (e.2.member, cl, x.2.origin + 128 * gangW x.2.shape + 2048 * gangH x.2.shape))))

/-- The other devices of a panorama. -/
def State.farDevices (s : State) (q : Panorama) : List Nat :=
  q.members.foldl (fun l e => if e.2.device = s.device.toNat then l else insertNat e.2.device l) []

/-- The coordinator prepares: its own members, then the other devices (16 R415). False says that the panorama cannot be placed. -/
def State.panPrepare (s : State) (key : Nat) (q : Panorama) : State × Bool :=
  let x := State.prepareAll key q.queue q.index (some (s.queueAt q.queue).cb) (s.ownMembers q) s
  let ok := x.2 && (s.pickDomain [] q.domch).isSome && !q.ldescs.any (fun e => e.2.2 == 255)
    && !(s.farDevices q).any s.router.unreachable.contains
  if !ok then (s.wakeClusters, false)
  else
    let far := s.farDevices q
    let n := q.attempt + 1
    let s := x.1.mapPan key (fun q => { q with preparing := true, attempt := n, prepared := [], places := x.1.ownPlaces key, busy := [] })
    if far.isEmpty then (s.push (.panAdmissionCommit key n true 0 [] []), true)
    else
      let ask : PanAsk := { key := key, attempt := n, srcDev := s.device.toNat, srcPart := q.part, domch := q.domch, domexp := q.domexp
                            members := q.members.map (fun e => (e.2.device, q.ldescs.get (0, 0) e.1)) }
      (far.foldl (fun s d => s.emit (.prepare d ask)) s, true)

/-- A member's device is asked: it reserves its members and answers. Its partitions must be bound to the coordinator's (13 R318). While the PANLAUNCH
waits, the cores and channels that return here are reported (16 R415). -/
def State.panAsked (s : State) (a : PanAsk) : State :=
  let q := Panorama.asked noQueue 0 a.srcPart a.domch a.domexp a.members
  let mine := s.ownMembers q
  let admitted := mine.all (fun (m : Nat × Nat × Nat) => (s.part m.2.2).bind.has a.srcDev && (s.part m.2.2).bind.get 0 a.srcDev == a.srcPart)
  let x := State.prepareAll a.key noQueue 0 none mine s
  let waits := s.panWaits.filter (fun (e : Nat × Nat) => e.1 != a.key)
  if admitted && x.2 then
    let s := { x.1 with
      panWaits := waits, pans := x.1.pans.filter (fun (e : Nat × Panorama) => e.1 != a.key) ++ [(a.key, { q with preparing := true, attempt := a.attempt })] }
    s.emit (.prepared a.srcDev a.key a.attempt true (s.ownPlaces a.key) s.busyDomain)
  else { s.wakeClusters with panWaits := waits ++ [(a.key, a.srcDev)] }.emit (.prepared a.srcDev a.key a.attempt false [] s.busyDomain)

/-- An admission is aborted by its coordinator: every reservation is freed, and the PANLAUNCH waits for another decision. Launches that the reservation kept out
get one (notes/assumptions/98.md). -/
def State.panAbort (s : State) (key : Nat) (q : Panorama) : State :=
  let s := (s.farDevices q).foldl (fun s d => s.emit (.commit d key q.attempt false 0 [] [])) s
  let s := (s.dropReservation key).mapPan key (fun q => { q with preparing := false })
  if s.launches.any (fun e => e.2.pan.isNone && e.2.ending.isNone && !e.2.toPlace.isEmpty) then s.pushOnce .dispatchDecision else s

/-- A device's answer reaches the coordinator; one to an attempt that has been aborted says nothing. -/
def State.panAnswered (s : State) (key device attempt : Nat) (ready : Bool) (places : List PanPlace) (busy : List Nat) : State :=
  match s.panAt key with
  | none => s
  | some q =>
    if !q.preparing || q.attempt != attempt then s
    else if !ready then s.panAbort key q
    else
      let q' := { q with prepared := insertNat device q.prepared, places := q.places ++ places, busy := q.busy ++ busy }
      let s := s.mapPan key (fun _ => q')
      if (s.farDevices q').all (fun d => q'.prepared.contains d) then s.push (.panAdmissionCommit key attempt true 0 [] []) else s

/-- PAN_ADMISSION_PREPARE (16 R415). -/
def execPanAdmissionPrepare (s : State) : Host.Outcome State Fault Refusal :=
  match s.event with
  | some (.panAdmissionPrepare (.ask a)) => .next (s.taken.panAsked a)
  | some (.panAdmissionPrepare (.answer key d n ready places busy)) => .next (s.taken.panAnswered key d n ready places busy)
  | _ => .fault .noSuchEvent

/-! ## Commit and abort -/

/-- The cells of a placed member, as the keys of a domain channel. -/
def placeKeys (p : PanPlace) : List Nat :=
  (rectCores 0 (p.2.2 % 128) (p.2.2 / 128 % 16) (p.2.2 / 2048)).map (fun c => p.1 * 128 + c)

/-- The commit takes effect at a device: the panorama has its PANID, its channels and its members' places, and its gangs load. -/
def State.panCommit (s : State) (key : Nat) (q : Panorama) (panid : Nat) (channels : List Nat) (places : List PanPlace) : State :=
  let own : List (Nat × Nat) := (s.launches.filter (fun e => e.2.pan == some key)).map (fun e => (e.2.member, e.1))
  let place (m : Nat) : Nat × Nat := match places.find? (fun (p : PanPlace) => p.1 == m) with
    | some p => p.2
    | none => (0, 0)
  let members := q.members.map (fun e =>
    (e.1, { e.2 with state := 0, cluster := (place e.1).1, rect := (place e.1).2, launch := (own.find? (fun (x : Nat × Nat) => x.1 == e.1)).map (·.2) }))
  let q := { q with panid := panid, committed := true, members := members, channels := channels, preparing := false, places := places }
  let chan : Channel := { Channel.free with owner := some (panid, 0), mask := places.flatMap placeKeys, expect := q.domexp }
  let s := { s with
    pans := s.pans.filter (fun e => e.1 != key && e.1 != panid) ++ [(panid, q)]
    launches := s.launches.map (fun e => if e.2.pan = some key then (e.1, { e.2 with pan := some panid }) else e)
    domain := channels.foldl (fun (t : Table Channel) n => Table.set t n chan) s.domain }
  own.foldl (fun s (e : Nat × Nat) => s.push (.gangLoad e.2 0)) s

/-- The next PANID: the admission counter skips values in use (16 R415). -/
def State.nextPanid (s : State) : Option Nat :=
  (List.range 128).findSome? (fun k =>
    let id := s.device.toNat * 128 + (s.panCount + k) % 128
    if (s.panAt id).any (fun q => !q.finished) then none else some id)

/-- PAN_ADMISSION_COMMIT (16 R415): the coordinator decides; a member's device follows its decision. -/
def State.panDecide (s : State) (key attempt : Nat) (commit : Bool) (panid : Nat) (channels : List Nat) (places : List PanPlace) : State :=
  match s.panAt key with
  | none => s
  | some q =>
    if q.committed || !q.preparing || q.attempt != attempt then s
    else if q.queue = noQueue then
      if commit then s.panCommit key q panid channels places
      else { (s.dropReservation key) with pans := s.pans.filter (fun e => e.1 != key), panWaits := s.panWaits ++ [(key, (key - 2 ^ 16) / 2 ^ 40)] }
    else
      match commit, s.pickDomain q.busy q.domch, s.nextPanid with
      | true, some chs, some id =>
        let s := { s with panCount := id % 128 + 1 }
        let s := (s.farDevices q).foldl (fun s d => s.emit (.commit d key attempt true id chs q.places)) s
        s.panCommit key q id chs q.places
      | _, _, _ => s.panAbort key q

def execPanAdmissionCommit (s : State) : Host.Outcome State Fault Refusal :=
  match s.event with
  | some (.panAdmissionCommit key n commit panid chs places) => .next (s.taken.panDecide key n commit panid chs places)
  | _ => .fault .noSuchEvent

end Sys2Proof.Machine
end

