-- ==== Sys2Proof/Machine/Priority.lean ====
section
/-! DEFINITION. Effective priority and the dispatch decision (16 R411, R412). -/

namespace Sys2Proof.Machine

/-- A packet as it stands in a ring, read without effect; one that cannot be read counts as a NOP. -/
def State.peek (s : State) (part va : Nat) : Block :=
  match (if va < 2 ^ 42 then s.walk part va else .invalid) with
  | .leaf e size _ => if pteP e && pteRd e then s.memory.block (pteFrame e + va % size) else 0
  | .invalid => 0

/-- A packet produces the signal at an address. -/
def produces (p : Block) (sig : Nat) : Bool :=
  match pkOp p with
  | 1 => pk8 p 16 == sig && sig != 0
  | 2 => pk8 p 16 == sig && sig != 0
  | 4 => pk8 p 8 == sig
  | 6 => decide (pk8 p 16 ≤ sig) && decide (sig + 8 ≤ pk8 p 16 + pk8 p 24)
  | _ => false

/-- The packets of a queue that may produce a signal: those issued, the head, and the first 64 after it (notes/assumptions/93.md). -/
def State.producers (s : State) (k : Queue) : List Block :=
  let n := min (cbPending k.cb) (if k.wait.isSome then 64 else 65)
  k.issued.map (·.packet) ++ (upFrom (cbRdidx k.cb) n).map (fun i => s.peek (cbPart k.cb) (cbSlot k.cb i))

/-- Queue w waits for a signal that a packet of queue k produces. -/
def dependsOn (w k : Queue) (packets : List Block) : Bool :=
  match w.wait with
  | some (_, p) => cbPart w.cb == cbPart k.cb && packets.any (fun x => produces x (pk8 p 8))
  | none => false

/-- One pass of the loop of R412. -/
def prioPass (ws : List (Nat × Queue)) (qs : List (Nat × Queue × List Block)) (eff : Table Nat) : Table Nat :=
  ws.foldl (fun eff w => qs.foldl (fun (eff : Table Nat) q =>
    if dependsOn w.2 q.2.1 q.2.2 && decide (eff.get 0 q.1 < eff.get 0 w.1) then Table.set eff q.1 (eff.get 0 w.1) else eff) eff) eff

/-- As many passes as can change anything: a priority rises at most 7 times. -/
def prioPasses (ws : List (Nat × Queue)) (qs : List (Nat × Queue × List Block)) : Nat → Table Nat → Table Nat
  | 0, eff => eff
  | n + 1, eff => prioPasses ws qs n (prioPass ws qs eff)

/-- The effective priority of each queue. -/
def State.effective (s : State) : Table Nat :=
  let ws := s.queues.filter (fun e => e.2.wait.isSome)
  let qs := s.queues.map (fun e => (e.1, e.2, s.producers e.2))
  prioPasses ws qs (7 * s.queues.length + 1) (s.queues.map (fun e => (e.1, cbPrio e.2.cb)))

/-- What a decision may place: a launch, or a panorama that is not committed. -/
inductive Candidate where
  | launch (l : Nat)
  | pan (key : Nat)
  deriving DecidableEq, Repr

/-- Puts a candidate behind those of higher effective priority, and of its own with an older issue. -/
def rankIn (x : Nat × Nat × Candidate) : List (Nat × Nat × Candidate) → List (Nat × Nat × Candidate)
  | [] => [x]
  | y :: r => if x.1 < y.1 ∨ (x.1 = y.1 ∧ y.2.1 ≤ x.2.1) then y :: rankIn x r else x :: y :: r

/-- The candidates in the order of the decision (16 R411). -/
def State.toDispatch (s : State) : List Candidate :=
  let eff := s.effective
  let ls : List (Nat × Nat × Candidate) := (s.launches.filter (fun e => e.2.pan.isNone && e.2.ending.isNone && !e.2.toPlace.isEmpty)).map
    (fun e => (eff.get 0 e.2.queue, e.1, Candidate.launch e.1))
  let ps : List (Nat × Nat × Candidate) := (s.pans.filter (fun e => !e.2.committed && !e.2.preparing && e.2.queue != noQueue)).map
    (fun e => (eff.get 0 e.2.queue, keyOrder e.1, Candidate.pan e.1))
  ((ls ++ ps).foldl (fun l x => rankIn x l) []).map (fun (x : Nat × Nat × Candidate) => x.2.2)

/-- Places candidates in order until one cannot be placed. -/
def State.placeAll (s : State) : List Candidate → State
  | [] => s
  | .launch l :: r =>
    match s.launchAt l with
    | none => State.placeAll s r
    | some la =>
      let x := s.placeLaunch l la
      if x.2 then State.placeAll x.1 r else x.1
  | .pan key :: r =>
    match s.panAt key with
    | none => State.placeAll s r
    | some q =>
      let x := s.panPrepare key q
      if x.2 then State.placeAll x.1 r else x.1

/-- The cluster of lowest number where a saved gang can go back: its rectangle, its channels and its pools are free there (14 R373). -/
def State.restorePlace (s : State) (ga : Gang) : Option Nat :=
  (List.range 8).find? (fun cl =>
    let k := s.cluster cl
    k.inService && k.powered && ga.saved.all (fun e => s.coreFree (cl * 96 + bitsOf e.2.cellD.cellinfo.toNat 0 7))
      && ga.channels.all (fun n => k.freeChannels.contains n) && ga.pools.all (fun n => k.freePools.contains n))

/-- Saved gangs that can go back are restored when no launch waits for the room (14 R373; notes/assumptions/31.md). -/
def State.offerRestores (s : State) : State :=
  s.launches.foldl (fun s e =>
    if e.2.ending.isSome then s
    else
      e.2.gangs.foldl (fun s g =>
        if g.2.saved.isEmpty then s
        else
          match s.restorePlace g.2 with
          | some cl => s.pushOnce (.restorePlacement e.1 g.1 cl)
          | none => s.wakeClusters) s) s

/-- DISPATCH_DECISION (16 R411). -/
def State.dispatchAll (s : State) : State := (s.placeAll s.toDispatch).offerRestores

def execDispatchDecision (s : State) : Host.Outcome State Fault Refusal :=
  match s.event with
  | some .dispatchDecision => .next s.taken.dispatchAll
  | _ => .fault .noSuchEvent

end Sys2Proof.Machine
end

