-- ==== Sys2Proof/Machine/Load.lean ====
section
/-! DEFINITION. The loading and release of a gang, and the ends of launches and panoramas (01 R17 to R23, 03 R72, R73, 06 R118 to R120,
13 R337, 16 R407, R409, R410). -/

namespace Sys2Proof.Machine

/-! ## The launch image (03 R72, R73) -/

def imNsect (h : Block) : Nat := blkField h 6 2
def imEntry (h : Block) : Nat := blkField h 8 8
def imHandler (h : Block) : Nat := blkField h 16 8
def imSems (h : Block) : Nat := blkField h 24 2
def imSpawn (h : Block) : Bool := blkBits h 208 1 == 1
def imHasHandler (h : Block) : Bool := blkBits h 209 1 == 1
def imStore (h : Block) : Nat := blkField h 32 8

def secSeg (e : BitVec 256) : Nat := entField e 0 1
def secKind (e : BitVec 256) : Nat := entField e 1 1
def secOffset (e : BitVec 256) : Nat := entField e 8 8
def secSize (e : BitVec 256) : Nat := entField e 16 8
def secFile (e : BitVec 256) : Nat := entField e 24 8

/-- Two sections overlap in one segment. -/
def secMeet (a b : BitVec 256) : Bool :=
  secSeg a == secSeg b && secSize a != 0 && secSize b != 0
    && decide (secOffset a < secOffset b + secSize b) && decide (secOffset b < secOffset a + secSize a)

/-- An offset of segment 7 is 8-byte aligned in a code section. -/
def codeAt (secs : List (BitVec 256)) (a : Nat) : Bool :=
  a % 8 == 0 && secs.any (fun e => secKind e == 0 && secSeg e == 7 && decide (secOffset e ≤ a) && decide (a < secOffset e + secSize e))

/-- Every byte of a range lies in some enabled validator range. -/
def covered (b : Block) : Nat → Nat → Nat → Bool
  | 0, lo, hi => decide (hi ≤ lo)
  | fuel + 1, lo, hi =>
    if hi ≤ lo then true
    else
      match (cbRanges b).find? (fun (r : Nat × Nat × Bool) => decide (r.1 ≤ lo) && decide (lo < r.2.1)) with
      | some r => covered b fuel r.2.1 hi
      | none => false

/-- The checks of a section by its entry and the descriptor's segments. -/
def sectionOk (d : BitVec 2048) (n : Nat) (e : BitVec 256) : Bool :=
  let g := ldSeg d (secSeg e)
  decide (secSeg e ≤ 7) && decide (secKind e ≤ 1) && entField e 2 6 == 0 && (secKind e != 0 || secSeg e == 7)
    && (g.space == 1 || g.space == 4) && decide (secOffset e + secSize e ≤ g.limit)
    && (g.space != 1 || decide (g.base + secOffset e + secSize e ≤ 0x180000))
    && decide (64 + 32 * n ≤ secFile e) && decide (secFile e + secSize e ≤ 2 ^ 40)

/-- The header's own checks; a SEMS above 1,024 and an NSECT of 0 or above 64 are refused too (notes/assumptions/32.md). -/
def headOk (h : Block) : Bool :=
  blkField h 0 4 == 0x4D534C50 && blkField h 4 2 == 1 && decide (1 ≤ imNsect h) && decide (imNsect h ≤ 64) && decide (imSems h ≤ 1024)
    && blkBits h 210 6 == 0 && blkField h 27 5 == 0 && blkField h 48 16 == 0
    && (if imHasHandler h then imHandler h != 2 ^ 64 - 1 else imHandler h == 2 ^ 64 - 1)

/-- The checks of a whole section table. -/
def sectionsOk (d : BitVec 2048) (h : Block) (secs : List (BitVec 256)) : Bool :=
  secs.all (sectionOk d (imNsect h)) && (List.range secs.length).all (fun k => (List.range k).all (fun j => !secMeet (secs.getD k 0) (secs.getD j 0)))
    && codeAt secs (imEntry h) && (!imHasHandler h || codeAt secs (imHandler h))

/-- The validator ranges of a launch's queue cover a range; no check is made for a member asked for by another device. -/
def State.imageRange (s : State) (la : Launch) (va n : Nat) : Bool := la.queue == noQueue || covered (s.queueAt la.queue).cb 5 va (va + n)

/-- Reads and checks the header and the section table, for the launch's first gang; an error is a DETAIL, 0 for a page without a frame. The STORE of a logging
partition is judged here, and not again at a later gang (notes/assumptions/97.md). -/
def State.readImage (s : State) (la : Launch) : State × Except Nat (Block × List (BitVec 256)) :=
  let im := ldImage la.desc
  let r := s.fwRead la.part im 64
  match r.2 with
  | .error (code, _) => (r.1, .error code)
  | .ok hv =>
    let h : Block := BitVec.ofNat 512 hv
    let n := imNsect h
    if !headOk h || !r.1.imageRange la (im + 64) (32 * n) then (r.1, .error cCmdInvalid)
    else
      let t := r.1.fwRead la.part (im + 64) (32 * n)
      match t.2 with
      | .error (code, _) => (t.1, .error code)
      | .ok v =>
        let secs := (List.range n).map (fun k => BitVec.ofNat 256 (bitsOf v (256 * k) 256))
        let log := (s.part la.part).logging && decide (0x17F000 < imStore h)
        if !sectionsOk la.desc h secs || !secs.all (fun e => t.1.imageRange la (im + secFile e) (secSize e)) || log then
          (t.1, .error cCmdInvalid)
        else (t.1, .ok (h, secs))

/-- The core-space sections in order, in a store image; every gang reads them. -/
def State.coreImage (la : Launch) : List (BitVec 256) → Mem → State → State × Except Nat Mem
  | [], m, s => (s, .ok m)
  | e :: r, m, s =>
    let g := ldSeg la.desc (secSeg e)
    if g.space ≠ 1 then State.coreImage la r m s
    else
      let x := s.fwRead la.part (ldImage la.desc + secFile e) (secSize e)
      match x.2 with
      | .error (code, _) => (x.1, .error code)
      | .ok v => State.coreImage la r (m.write 8 (g.base + secOffset e) (secSize e) v) x.1

/-- The device-space sections in order into the partition's memory, once for a launch: those before the k-th are written already, and of the k-th its first o bytes.
The answer keeps how far the writing has come. -/
def State.writeSections (la : Launch) (k o : Nat) : List (BitVec 256) → State → State × (Nat × Nat) × Except Nat Unit
  | [], s => (s, (k, o), .ok ())
  | e :: r, s =>
    let va := (ldSeg la.desc (secSeg e)).base + secOffset e
    let x := s.fwRead la.part (ldImage la.desc + secFile e + o) (secSize e - o)
    match x.2 with
    | .error (code, _) => (x.1, (k, o), .error code)
    | .ok v =>
      let y := x.1.fwWrite la.part (va + o) (secSize e - o) v false
      match y.2 with
      | .error (code, at_) => (y.1, (k, at_ - va), .error code)
      | .ok _ => State.writeSections la (k + 1) 0 r y.1

/-- The device-space sections of a launch. -/
def Launch.deviceSections (la : Launch) (secs : List (BitVec 256)) : List (BitVec 256) := secs.filter (fun e => (ldSeg la.desc (secSeg e)).space != 1)

/-- The image of launch l is there and its device-space sections are written; the store image of its cells is the answer, an error a DETAIL, 0 for a page without a frame.
What has been read and written once is not read and written again (03 R73). -/
def State.loadImage (s : State) (l : Nat) (la : Launch) : State × Except Nat (Block × Mem) :=
  let im : State × Except Nat (Block × List (BitVec 256)) := if la.imageOk then (s, .ok (la.image, la.sections)) else s.readImage la
  match im.2 with
  | .error code => (im.1, .error code)
  | .ok (h, secs) =>
    let w := State.writeSections la la.written.1 la.written.2 ((la.deviceSections secs).drop la.written.1) im.1
    let s := w.1.mapLaunch l (fun la => { la with imageOk := true, image := h, sections := secs, written := w.2.1 })
    match w.2.2 with
    | .error code => (s, .error code)
    | .ok _ =>
      let m := State.coreImage la secs Mem.blank s
      (m.1, m.2.map (fun store => (h, store)))

/-! ## Cells (06 R118 to R120, 13 R317, 16 R407) -/

/-- The launch record of a cell. -/
def launchRecord (d : BitVec 2048) (channels domain : List Nat) : Nat :=
  let mask (l : List Nat) : Nat := l.foldl (fun a k => a + 2 ^ k) 0
  mask channels + mask domain * 2 ^ 32 + ldField d 192 48 * 2 ^ 128

/-- PANINFO of a cell: the device's number, and the member's fields in a panorama. -/
def State.paninfoOf (s : State) (la : Launch) : Word :=
  let own := s.device.toNat * 2 ^ 18
  match la.pan.bind (s.panAt ·) with
  | some q => BitVec.ofNat 64 (la.member + (q.members.length - 1) * 2 ^ 9 + own + 2 ^ 27 + q.panid * 2 ^ 32)
  | none => BitVec.ofNat 64 own

/-- CELLINFO. -/
def cellinfoOf (la : Launch) (h : Block) (ga : Gang) (c rank : Nat) : Word :=
  BitVec.ofNat 64 (c % 96 + c / 96 * 2 ^ 8 + rank * 2 ^ 16 + la.part * 2 ^ 24 + imSems h * 2 ^ 32 + (if imSpawn h then 2 ^ 43 else 0)
    + (if imHasHandler h then 2 ^ 44 else 0) + (ga.pools.foldl (fun a k => a + 2 ^ k) 0) * 2 ^ 48)

/-- GEOM. -/
def geomOf (la : Launch) (g : Nat) (ga : Gang) (c : Nat) : Word :=
  BitVec.ofNat 64 (ga.origin % 12 + ga.origin / 12 * 2 ^ 4 + gangW ga.shape * 2 ^ 8 + gangH ga.shape * 2 ^ 12 + c % 96 % 12 * 2 ^ 16
    + c % 96 / 12 * 2 ^ 20 + g * 2 ^ 32 + (la.gangs.length - 1) * 2 ^ 48)

/-- The eight descriptors of a launch, low or high halves. -/
def descHalves (f : Nat → Word) : Table Word := (List.range 8).map (fun k => (k, f k))

/-- The cell that core c holds. -/
def State.cellOf (s : State) (l g : Nat) (la : Launch) (h : Block) (ga : Gang) (c rank : Nat) : Cell :=
  { launch := l, gang := g, part := la.part, cellinfo := cellinfoOf la h ga c rank, geom := geomOf la g ga c, paninfo := s.paninfoOf la
    sems := imSems h, spawn := imSpawn h, handler := imHasHandler h, entry := BitVec.ofNat 64 (imEntry h)
    handlerAt := BitVec.ofNat 64 (imHandler h), storeDecl := imStore h, hmask := BitVec.ofNat 32 (ldHmask la.desc), hrec := ldHrec la.desc
    savesz := ldSavesz la.desc, segL := descHalves (ldSegL la.desc), segH := descHalves (ldSegH la.desc), preempt := .running
    intakeOpen := true, ended := false }

/-- The receive rings of a descriptor (06 R138). -/
def descRings (d : BitVec 2048) : Table Ring :=
  (List.range 8).filterMap (fun k => if ringSize (ldRing d k) = 0 then none
    else some (k, { Ring.none with base := ringBase (ldRing d k), size := ringSize (ldRing d k) }))

/-- A core with a new cell and its store: everything else at its load state; counters, credits and the B plane stay with the core. -/
def State.fillCore (s : State) (c : Nat) (cell : Cell) (store : Mem) (rings : Table Ring) : State :=
  let k := s.core c
  s.setCore c { Core.idle with
    cell := some cell, store := store, rings := rings, logging := (s.part cell.part).logging, cycles := k.cycles, created := k.created
    ue := k.ue, ce := k.ce, plane := k.plane, credits := k.credits }

/-- The initial strands of a cell, in slot order (01 R18). -/
def State.startStrands (s : State) (c n cls : Nat) (cell : Cell) : State :=
  (List.range n).foldl (fun s i =>
    s.create c i { pc := cell.entry, x := [], segL := cell.segL, segH := cell.segH, fmode := 0, base := BitVec.ofNat 2 cls }) s

/-- One core of the gang is loaded: image, launch record, cell, strands. -/
def State.loadCore (s : State) (l g : Nat) (la : Launch) (h : Block) (ga : Gang) (store : Mem) (c rank : Nat) : State :=
  let domain := (la.pan.bind (s.panAt ·)).elim [] (·.channels)
  let cell := s.cellOf l g la h ga c rank
  let store := store.write 8 (ldLrec la.desc) 64 (launchRecord la.desc ga.channels domain)
  (s.fillCore c cell store (descRings la.desc)).startStrands c (ldStrands la.desc) (ldClass la.desc) cell

/-- Channels and pools of a gang at its load states (06 R142, 08 R204). -/
def State.readyOwned (s : State) (l g : Nat) (la : Launch) (ga : Gang) (cl : Nat) : State :=
  let k := s.cluster cl
  let chan : Channel := { Channel.free with owner := some (l, g), mask := ga.cores.map (· % 96), expect := ldBarexp la.desc }
  s.setCluster cl { k with
    channels := ga.channels.foldl (fun (t : Table Channel) n => Table.set t n chan) k.channels
    pools := ga.pools.foldl (fun (t : Table Pool) n => Table.set t n { Pool.free with owner := some (l, g) }) k.pools }

/-- The release of a gang (01 R23): for code in device space, the lines of its partition leave its cluster's instruction cache (05 R114); a member of a panorama
leaves PENDING (13 R334). -/
def State.release_ (s : State) (l g cl : Nat) (la : Launch) : State :=
  let s := s.mapGang l g (fun ga => { ga with loaded := true })
  let k := s.cluster cl
  let s := if (segOf (ldSegL la.desc 7) (ldSegH la.desc 7)).space = 4 then s.setCluster cl { k with code := k.code.filter (fun x => x.part != la.part) } else s
  match la.pan with
  | some p => (s.mapMember p la.member (fun m => if m.state = 0 then { m with state := 1 } else m)).answerAttaches p
  | none => s

/-- GANG_LOAD (01 R21 steps 4 to 6): the image is read, and checked for the first gang, its sections written, and every core of the
rectangle loaded and released at once. The first gang is the one whose step 4 comes first (notes/assumptions/97.md). -/
def State.gangLoad (s : State) (l g : Nat) : State :=
  match (s.launchAt l).bind (fun la => (la.gangs.find? (fun e => e.1 == g)).map (fun e => (la, e.2))) with
  | none => s
  | some (la, ga) =>
    match ga.cluster with
    | none => s
    | some cl =>
      if ga.loaded || ga.ended || la.ending.isSome then s
      else
        let im := s.loadImage l la
        match im.2 with
        | .error 0 => im.1.push (.gangLoad l g)
        | .error code => im.1.push (.launchEnd l code 0 0)
        | .ok (h, store) =>
          let s := im.1.readyOwned l g la ga cl
          let s := (List.zip ga.cores (List.range ga.cores.length)).foldl (fun s (x : Nat × Nat) => s.loadCore l g la h ga store x.1 x.2) s
          s.release_ l g cl la

def execGangLoad (s : State) : Host.Outcome State Fault Refusal :=
  match s.event with
  | some (.gangLoad l g) => .next (s.taken.gangLoad l g)
  | _ => .fault .noSuchEvent

/-! ## The end of a launch (16 R409, R410) -/

/-- The packet of a launch that ended early: ENDED, and its queue stops (16 R410). -/
def State.endedPacket (s : State) (q i detail : Nat) (info0 info1 : Word) : State :=
  let tag := s.tagOf q i
  (s.retirePacket q i detail).queueEvent q 0x31 detail tag info0.toNat info1.toNat

/-- SIGVAL is added to SIGADDR, and the packet completes; a signal that fails is skipped, and the queue stops (16 R409). None says that the
signal's page has no frame yet. -/
def State.signalPacket (s : State) (q i : Nat) : Option State :=
  match (s.queueAt q).issued.find? (fun x => x.index == i) with
  | none => some s
  | some x =>
    let sig := pk8 x.packet 16
    if sig = 0 then some (s.completePacket q i)
    else
      let r := s.signalAdd (cbPart (s.queueAt q).cb) sig (pk8 x.packet 24)
      match r.2 with
      | .ok _ => some ((r.1.completePacket q i).pollWaits)
      | .error (0, _) => none
      | .error (code, _) => some (((r.1.completePacket q i).stopQueue q code).queueEvent q 0x38 code (pkTag x.packet) sig 0)

/-- A panorama is over when every member has departed and none of its launches is left here: its channels are freed, and on member 0's
device its packet completes (16 R415). -/
def State.panDone (s : State) (p : Nat) : State :=
  match s.panAt p with
  | none => s
  | some q =>
    if q.finished || !q.committed || q.members.any (fun e => e.2.state != 3) || s.launches.any (fun e => e.2.pan == some p) then s
    else
      let clear (s : State) : State :=
        ({ s.mapPan p (fun q => { q with finished := true }) with
          domain := s.domain.map (fun (e : Nat × Channel) => if e.2.owner = some (p, 0) then (e.1, e.2.freed) else e) }).tellWaiting.push .dispatchDecision
      if q.queue = noQueue then clear s
      else
        match q.ending with
        | some (detail, a, b) => clear (s.endedPacket q.queue q.index detail a b)
        | none =>
          match s.signalPacket q.queue q.index with
          | some s => clear s
          | none => s.push (.memberDeparture p 0)

/-- LAUNCH_COMPLETION (16 R409, R410). -/
def State.finishLaunch (s : State) (l : Nat) : State :=
  match s.launchAt l with
  | none => s
  | some la =>
    if !la.over then s
    else
      let gone (s : State) : State := { s with launches := s.launches.filter (fun e => e.1 != l) }
      match la.pan, la.ending with
      | some p, _ => (gone s).panDone p
      | none, some (detail, a, b) => (gone s).endedPacket la.queue la.index detail a b
      | none, none =>
        match s.signalPacket la.queue la.index with
        | some s => gone s
        | none => s.push (.launchCompletion l)

def execLaunchCompletion (s : State) : Host.Outcome State Fault Refusal :=
  match s.event with
  | some (.launchCompletion l) => .next (s.taken.finishLaunch l)
  | _ => .fault .noSuchEvent

/-- The package core where a strand is, by its GSI, or where it was created. -/
def State.coreOfGsi (s : State) (gsi : Word) : Nat :=
  ((s.cores.find? (fun e => e.2.slots.any (fun x => x.2.occupied && x.2.gsi == gsi))).map (·.1)).getD (gsi.toNat % 1024)

/-- A fault that ends a launch, and a deadlock, are submitted to the filmstrip (17 R438). -/
def State.filmEnd (s : State) (detail : Nat) (gsi : Word) : State :=
  if 1 ≤ detail ∧ detail ≤ 0x11 then s.push (.filmstripRecord 0 detail (s.coreOfGsi gsi) gsi)
  else if detail = 0x20 then s.push (.filmstripRecord 2 0x20 s.mgmt.complex 0)
  else s

/-- Firmware ends a launch early; the launches of a panorama's members end together, here and on the other devices (16 R410, 18 R454). -/
def State.endWork (s : State) (l detail : Nat) (info0 info1 : Word) : State :=
  match s.launchAt l with
  | none => s
  | some la =>
    if la.ending.isSome then s
    else
      let s := s.filmEnd detail info1
      match la.pan.bind (s.panAt ·) with
      | none => s.endLaunch l detail info0 info1
      | some q =>
        let s := s.mapPan q.panid (fun q => { q with ending := some (q.ending.getD (detail, info0, info1)) })
        let s := if q.abroad then s.emit (.plain 15 4 [q.panid, detail, info0.toNat, info1.toNat]) else s
        q.launches.foldl (fun s x => s.endLaunch x detail info0 info1) s

/-- LAUNCH_END (16 R410). -/
def execLaunchEnd (s : State) : Host.Outcome State Fault Refusal :=
  match s.event with
  | some (.launchEnd l detail a b) => .next (s.taken.endWork l detail a b)
  | _ => .fault .noSuchEvent

/-! ## The departure of a member (13 R337) -/

/-- The saved gangs of a launch are given up (01 R20, 13 R337). -/
def State.dropSaved (s : State) (l : Nat) : State :=
  let s := s.returnCredits (((s.launchAt l).elim [] (·.gangs)).flatMap (fun g => g.2.savedIntake))
  let s := s.mapLaunch l (fun la => { la with gangs := la.gangs.map (fun g => (g.1, { g.2 with saved := [], savedChannels := [], savedPools := [], loaded := true })) })
  ((s.launchAt l).elim [] (·.gangs)).foldl (fun s g => s.checkGang l g.1) s

/-- A member that is EXITING, whose strands have ended and that has no holder departs: its own holds are removed, and its cores return.
A member on another device is known to have departed by that device's word. A saved member departs with its saved cells, where no strand of them is left. -/
def State.departMember (s : State) (p m : Nat) : State :=
  match s.panAt p, s.member p m with
  | some q, some mb =>
    if mb.device ≠ s.device.toNat then (s.mapMember p m (fun x => { x with state := 3 })).panDone p
    else if mb.state = 3 then s.panDone p
    else
      let cores := s.memberCores p m
      let saved := (mb.launch.bind s.launchAt).elim [] (fun la => la.gangs.flatMap (fun g => g.2.saved))
      if mb.state ≠ 2 || !mb.holders.isEmpty || !cores.all (fun c => (s.cell c).ended)
          || saved.any (fun x => x.2.slots.any (fun e => e.2.occupied)) then s
      else
        let s := if saved.isEmpty then s else s.dropSaved (mb.launch.getD 0)
        let s := match mb.launch with
          | some l => s.mapGang l 0 (fun ga => { ga with preempt := .running })
          | none => s
        let s := s.mapMember p m (fun x => { x with state := 3 })
        let own := (q.attached.filter (fun (x : Nat × Nat) => x.1 == m)).map (·.2)
        let s := own.foldl (fun s x => s.letGo p m x) s
        let s := if q.abroad then s.emit (.plain 15 3 [p, m]) else s
        let s := cores.foldl (fun s c => s.tryReturn c) s
        (match mb.launch with
          | some l => s.checkGang l 0
          | none => s).panDone p
  | _, _ => s

/-- MEMBER_DEPARTURE. -/
def execMemberDeparture (s : State) : Host.Outcome State Fault Refusal :=
  match s.event with
  | some (.memberDeparture p m) => .next (s.taken.departMember p m)
  | _ => .fault .noSuchEvent

end Sys2Proof.Machine
end

