-- ==== Sys2Proof/Machine/Traps.lean ====
section
/-! DEFINITION. The mailbox, the disposal of traps, handlers, and the pre-emption and restore of gangs and panoramas (14 R352 to R357,
R368 to R376). -/

namespace Sys2Proof.Machine

/-! ## The mailbox (14 R352) -/

/-- The oldest record that is held in a strand's context goes into the mailbox, if one of the core's four slots is free; DISP becomes 3
(14 R352, R353). -/
def State.writeRecord (s : State) (c : Nat) : State :=
  let k := s.core c
  let q := s.cluster (clusterOf c)
  match k.faults.head? with
  | none => s
  | some (i, _) =>
    match (k.slot i).trap with
    | none => s
    | some r =>
      if 4 ≤ (q.mailbox.filter (fun m => m.core == c)).length then s
      else
        let s := s.setCluster (clusterOf c) { q with mailbox := q.mailbox ++ [⟨c, i, blkSet r 40 8 3, false, false⟩] }
        let s := s.setCore c { k.setSlot i { k.slot i with trap := none } with faults := k.faults.drop 1 }
        let s := s.push (.trapDisposal (clusterOf c) c i)
        if k.faults.length ≤ 1 then s else s.pushOnce (.mailboxRecordWrite c i)

/-- MAILBOX_RECORD_WRITE. -/
def execMailboxRecordWrite (s : State) : Host.Outcome State Fault Refusal :=
  match s.event with
  | some (.mailboxRecordWrite c _) => .next (s.taken.writeRecord c)
  | _ => .fault .noSuchEvent

/-! ## What firmware does with a record (14 R354, R355, R357) -/

/-- A record of a core's slot that firmware has not disposed of. -/
def MailRec.open_ (r : MailRec) (c i : Nat) : Bool := r.core == c && r.slot == i && !r.handed && !r.claimed

/-- A record leaves the mailbox, and one held in a context may be written. -/
def State.dropMail (s : State) (c i : Nat) : State :=
  let k := s.cluster (clusterOf c)
  let s := s.setCluster (clusterOf c) { k with mailbox := k.mailbox.filter (fun r => !r.open_ c i) }
  if (s.core c).faults.isEmpty then s else s.pushOnce (.mailboxRecordWrite c i)

/-- Marks a record. -/
def State.markMail (s : State) (c i : Nat) (f : MailRec → MailRec) : State :=
  let k := s.cluster (clusterOf c)
  s.setCluster (clusterOf c) { k with mailbox := k.mailbox.map (fun r => if r.open_ c i then f r else r) }

/-- A TRAPPED strand becomes STOPPED at its faulting word (14 R355, R369), with the wait that a STEP stop recorded in WAITDESC (17 R433). -/
def State.trapToStop (s : State) (c i : Nat) : State :=
  let sl := s.slot c i
  if sl.st = .trapped then (s.setSlot c i { sl with st := .stopped, trap := none }).answerStops c i else s

/-- The launch of a record's cell ends, reporting CODE, PC and the GSI (14 R354, 16 R410). -/
def State.failRecord (s : State) (c : Nat) (r : Block) : State :=
  s.push (.launchEnd (s.cell c).launch (blkField r 1 1) (blkWord r 8) (blkWord r 40))

/-- The disposal of a record: the debugger's, the handler's, or the end of the launch; a handler's own fault ends the launch (14 R354,
R357). A strand that a handler's disposition has killed ends, once it has stopped (14 R356). -/
def State.disposeTrap (s : State) (c i : Nat) : State :=
  match (s.slot c i).killBy with
  | some v => s.handlerKill c i v
  | none =>
  match (s.cluster (clusterOf c)).mailbox.find? (fun r => r.open_ c i) with
  | none => s
  | some rec =>
    let r := rec.data
    let code := blkField r 1 1
    let cell := s.cell c
    let p := s.part cell.part
    if i = 255 then
      let s := s.setCore c { s.core c with handling := none }
      (s.dropMail c i).failRecord c r
    else if p.attached && p.claims.getLsbD code then
      ((s.markMail c i (fun m => { m with claimed := true })).trapToStop c i).emit (.plain 17 0 [c, i, code, blkField r 8 8])
    else if s.toHandler rec then s.pushOnce (.handlerStart c)
    else (s.dropMail c i).failRecord c r

/-- TRAP_DISPOSAL (14 R354). -/
def execTrapDisposal (s : State) : Host.Outcome State Fault Refusal :=
  match s.event with
  | some (.trapDisposal _ c i) => .next (s.taken.disposeTrap c i)
  | _ => .fault .noSuchEvent

/-- A handler strand is started in slot 255 for a record, which is copied to HREC (14 R355). -/
def State.startHandler (s : State) (c : Nat) (r : Block) : State :=
  let cell := s.cell c
  let k := s.core c
  let s := s.setCore c { k with store := k.store.write 8 cell.hrec 64 r.toNat, handling := some r }
  s.create c 255 { pc := cell.handlerAt, x := [(1, BitVec.ofNat 64 cell.hrec)], segL := cell.segL, segH := cell.segH, fmode := 0, base := 0 }

/-- The next hand-off of a core is served, in mailbox order, when no handler runs (14 R355). -/
def State.nextHandler (s : State) (c : Nat) : State :=
  let k := s.core c
  match (s.cluster (clusterOf c)).mailbox.find? (fun r => r.core == c && s.toHandler r) with
  | none => s
  | some r =>
    if k.handling.isSome || (k.slot 255).occupied || k.cellD.preempt != .running || k.cellD.ended then s
    else ((s.markMail c r.slot (fun m => { m with handed := true })).trapToStop c r.slot).startHandler c r.data

/-- HANDLER_START (14 R355). -/
def execHandlerStart (s : State) : Host.Outcome State Fault Refusal :=
  match s.event with
  | some (.handlerStart c) => .next (s.taken.nextHandler c)
  | _ => .fault .noSuchEvent

/-! ## The stop phase (14 R368, R369) -/

/-- The cores that hold a live cell of a gang. -/
def State.gangCores (s : State) (l g : Nat) : List Nat :=
  (s.cores.filter (fun e => match e.2.cell with
    | some k => k.launch == l && k.gang == g && !k.ended
    | none => false)).map (·.1)

/-- A handler runs in a cell. -/
def Core.handlerBusy (k : Core) : Bool := k.handling.isSome || (k.slot 255).occupied

/-- Every cell of a gang may be pre-empted: it declares a handler and a save area, and is not in a pre-emption (14 R368, 16 R406). -/
def State.mayStop (s : State) (l g : Nat) : Bool :=
  let cs := s.gangCores l g
  cs.all (fun c => (s.cell c).handler && (s.cell c).savesz != 0 && (s.cell c).preempt == .running)

/-- A gang that may be pre-empted alone: it has a live cell. -/
def State.mayPreempt (s : State) (l g : Nat) : Bool := !(s.gangCores l g).isEmpty && s.mayStop l g

/-- One cell's stop cycle: every strand stops, and a fault whose record has not been handed over is withdrawn (14 R369). -/
def State.stopCell (s : State) (c : Nat) : State :=
  let s := s.mapCell c (fun k => { k with preempt := .stopped })
  let s := ((s.core c).slotsWhere Slot.occupied).foldl (fun s i =>
    if (s.slot c i).st = .trapped then
      let handed := (s.cluster (clusterOf c)).mailbox.any (fun r => r.core == c && r.slot == i && (r.handed || r.claimed))
      if handed then s else (((s.dropRecord c i).leaveLine c i).trapToStop c i)
    else s.stop c i) s
  s.checkSaved c

/-- The stop phase of a gang begins; one without a live cell has stopped at once. -/
def State.stopGang (s : State) (l g : Nat) : State :=
  let s := s.mapGang l g (fun ga => { ga with preempt := .stopped, requested := false })
  let cs := s.gangCores l g
  if cs.isEmpty then s.push (.saveHandlerStart l g) else cs.foldl (fun s c => s.stopCell c) s

/-- PREEMPT_REQUEST (14 R368, R369): a request while a handler runs waits for its end; a panorama is pre-empted only as a whole. -/
def State.preemptGang (s : State) (l g : Nat) : State :=
  match s.launchAt l with
  | none => s
  | some la =>
    if la.pan.isSome || la.ending.isSome || !s.mayPreempt l g then s
    else if (s.gangCores l g).any (fun c => (s.core c).handlerBusy) then s.mapGang l g (fun ga => { ga with requested := true })
    else s.stopGang l g

def execPreemptRequest (s : State) : Host.Outcome State Fault Refusal :=
  match s.event with
  | some (.preemptRequest l g) => .next (s.taken.preemptGang l g)
  | _ => .fault .noSuchEvent

/-! ## The save (14 R369 to R372) -/

/-- A record that firmware makes for a save (KIND 1) or a restore (KIND 2) (14 R353). -/
def firmRecord (kind : Nat) (aux : Word) : Block := BitVec.ofNat 512 (kind + 0xFF * 2 ^ 24 + 3 * 2 ^ 40 + aux.toNat * 2 ^ 384)

/-- Every live cell of a gang has stopped: its slots are FREE or STOPPED. -/
def State.gangStopped (s : State) (l g : Nat) : Bool :=
  (s.gangCores l g).all (fun c => (s.cell c).preempt == .stopped && (s.core c).slots.all (fun e => e.2.st == .free || e.2.st == .stopped))

/-- The save handlers of a gang start (14 R369), and the limit begins to run (14 R372). -/
def State.saveGang (s : State) (l g : Nat) : State :=
  let s := s.mapGang l g (fun ga => { ga with preempt := .saving })
  let s := if (s.gangCores l g).isEmpty then s.push (.saveComplete l g) else s
  let s := (s.gangCores l g).foldl (fun s c =>
    let cell := s.cell c
    (s.mapCell c (fun k => { k with preempt := .saving })).startHandler c (firmRecord 1 (Config.saveArea l g (cellRank cell.cellinfo)))) s
  let limit := (s.launchAt l).elim 0 (fun la => (s.part la.part).limitUs)
  if limit = 0 then s else s.push (.preemptLimitExpiry l g)

/-- The launches on this device that are pre-empted together with one: itself, or its panorama's (14 R376). -/
def State.together (s : State) (l g : Nat) : List (Nat × Nat) :=
  match (s.launchAt l).bind (fun la => la.pan.bind (s.panAt ·)) with
  | some q => q.launches.map (fun x => (x, 0))
  | none => [(l, g)]

/-- This device holds member 0 of a panorama (14 R376). -/
def State.leads (s : State) (q : Panorama) : Bool := q.members.any (fun e => e.1 == 0 && e.2.device == s.device.toNat)

/-- Member 0's device commits when every member has stopped (14 R376). -/
def State.commitStopped (s : State) (p : Nat) : State :=
  match s.panAt p with
  | none => s
  | some q =>
    let here := q.launches.all (fun x => s.gangStopped x 0 && (s.launchAt x).elim false (fun la => la.gangs.all (fun e => e.2.preempt == .stopped)))
    let far := q.members.all (fun e => e.2.launch.isSome || q.reported.contains e.1)
    match q.launches with
    | [] => s
    | l :: _ => if here && far then (if q.abroad then s.emit (.plain 14 7 [p, q.round]) else s).pushOnce (.panoramaPreempt (.commit l)) else s

/-- SAVE_HANDLER_START (14 R369, R376): a stopped gang's save begins; a panorama's member reports to member 0's device, which commits when all have stopped. -/
def State.stoppedGang (s : State) (l g : Nat) : State :=
  match (s.launchAt l).bind (fun la => (la.gangs.find? (fun e => e.1 == g)).map (fun e => (la, e.2))) with
  | none => s
  | some (la, ga) =>
    if ga.preempt ≠ .stopped || !s.gangStopped l g then s
    else
      match la.pan.bind (s.panAt ·) with
      | none => s.saveGang l g
      | some q =>
        if s.leads q then s.commitStopped q.panid else s.emit (.plain 14 1 [q.panid, la.member, q.round])

def execSaveHandlerStart (s : State) : Host.Outcome State Fault Refusal :=
  match s.event with
  | some (.saveHandlerStart l g) => .next (s.taken.stoppedGang l g)
  | _ => .fault .noSuchEvent

/-- Steps 1 and 2 for a cell that has signalled: the intake closes, and the line cache is written back and invalidated (14 R371). -/
def State.closeCell (s : State) (c : Nat) : State :=
  let s := (s.mapCell c (fun k => { k with intakeOpen := false })).cleanLines c (fun _ => true)
  s.setCore c { s.core c with lines := [] }

/-- The cores of a gang's cells that have ended and whose commands are done. -/
def State.endedCores (s : State) (l g : Nat) : List Nat :=
  (s.cores.filter (fun e => match e.2.cell with
    | some k => k.launch == l && k.gang == g && k.ended && s.quietCore e.1
    | none => false)).map (·.1)

/-- Steps 3 and 4 for a gang: its cells, channels and pools go to the context buffer, and its cores return (14 R371), those of cells that had ended before with
them (14 R373). Its limit runs no longer (14 R372). -/
def State.storeGang (s : State) (l g : Nat) : State :=
  let cs := s.gangCores l g
  let s := s.cancel (.preemptLimitExpiry l g)
  let cl := ((s.launchAt l).bind (fun la => (la.gangs.find? (fun e => e.1 == g)).bind (fun e => e.2.cluster))).getD 8
  let k := s.cluster cl
  let mine (o : Option (Nat × Nat)) : Bool := o == some (l, g)
  let chans := k.channels.filter (fun e => mine e.2.owner)
  let pools := k.pools.filter (fun e => mine e.2.owner)
  let s := cs.foldl (fun s c => (s.sendCouriers c).mergeLog c) s
  let kept := cs.map (fun c => (cellRank (s.cell c).cellinfo, { s.core c with fab := Engine.idle, credits := [] }))
  let s := ((cs ++ s.endedCores l g).foldl (fun s c => s.vacateCore c) s).freeOwned l g
  s.mapGang l g (fun ga => { ga with preempt := .saved, cluster := none, cores := [], saved := kept, savedChannels := chans, savedPools := pools })

/-- SAVE_COMPLETE (14 R371): steps 1 and 2 for each cell that has signalled, and the rest when every cell has, of a panorama on every device. -/
def State.savedGang (s : State) (l g : Nat) : State :=
  let ts := s.together l g
  let cs := ts.flatMap (fun x => s.gangCores x.1 x.2)
  let s := (cs.filter (fun c => (s.cell c).preempt == .saved && (s.cell c).intakeOpen)).foldl (fun s c => s.closeCell c) s
  let saving := ts.all (fun x => (s.launchAt x.1).elim false (fun la => la.gangs.any (fun e => e.1 == x.2 && e.2.preempt == .saving)))
  if !saving || !cs.all (fun c => (s.cell c).preempt == .saved) then s
  else
    let store (s : State) : State := (ts.foldl (fun s x => s.storeGang x.1 x.2) s).tellWaiting.pushOnce .dispatchDecision
    match (s.launchAt l).bind (fun la => la.pan.bind (s.panAt ·)) with
    | none => store s
    | some q =>
      let s := if q.abroad && !q.ownSaved then (s.mapPan q.panid (fun q => { q with ownSaved := true })).emit (.plain 14 4 [q.panid]) else s
      if q.abroad && !q.farSaved then s
      else ((store s).mapPan q.panid (fun q => { q with frozen := true, farSaved := false, ownSaved := false, reported := [] })).thaw q.panid

def execSaveComplete (s : State) : Host.Outcome State Fault Refusal :=
  match s.event with
  | some (.saveComplete l g) => .next (s.taken.savedGang l g)
  | _ => .fault .noSuchEvent

/-- A cell goes on as if it had not been pre-empted: a save handler ends, posts are applied, the rings and the intake open, and every
stopped strand resumes (14 R372). -/
def State.goOn (s : State) (c : Nat) : State :=
  let s := if (s.slot c 255).occupied then s.endStrand c 255 ones else s
  let k := s.core c
  let asked (i : Nat) : Bool := k.slots.any (fun e => match e.2.held with
    | some h => (match h.why with | .stopping j _ => j == i | _ => false)
    | none => false)
  let s := s.setCore c { k with
    handling := none, slots := k.slots.map (fun e => (e.1, { e.2 with stopReq := e.2.stopReq && asked e.1 })) }
  let s := s.reopen c
  (((s.core c).slotsWhere (fun sl => sl.st == .stopped)).foldl (fun s i => s.go c i) s).afterEnd c 255

/-- A gang's pre-emption is abandoned. -/
def State.abandonGang (s : State) (l g : Nat) : State :=
  let s := s.cancel (.preemptLimitExpiry l g)
  let s := s.mapGang l g (fun ga => { ga with preempt := .running, requested := false })
  ((s.gangCores l g).foldl (fun s c => s.goOn c) s).pushOnce .dispatchDecision

/-- The pre-emption of a launch, or of the members of its panorama here, is abandoned where it is under way (14 R372, R376). -/
def State.abandonAll (s : State) (l g : Nat) : State :=
  let ts := (s.together l g).filter (fun x => (s.launchAt x.1).elim false (fun la =>
    la.gangs.any (fun e => e.1 == x.2 && (e.2.preempt == .stopped || e.2.preempt == .saving || e.2.requested))))
  let s := ts.foldl (fun s x => s.abandonGang x.1 x.2) s
  match (s.launchAt l).bind (fun la => la.pan) with
  | some p => s.mapPan p (fun q => { q with farSaved := false, ownSaved := false, reported := [], drainAsks := [] })
  | none => s

/-- PREEMPT_LIMIT_EXPIRY (14 R372). -/
def State.limitGang (s : State) (l g : Nat) : State :=
  let saving := (s.launchAt l).elim false (fun la => la.gangs.any (fun e => e.1 == g && e.2.preempt == .saving))
  if !saving then s
  else
    match (s.launchAt l).bind (fun la => la.pan.bind (s.panAt ·)) with
    | some q => (s.abandonAll l g) |> fun s => if q.abroad then s.emit (.plain 14 8 [q.panid]) else s
    | none => s.abandonAll l g

def execPreemptLimitExpiry (s : State) : Host.Outcome State Fault Refusal :=
  match s.event with
  | some (.preemptLimitExpiry l g) => .next (s.taken.limitGang l g)
  | _ => .fault .noSuchEvent

/-! ## Restore (14 R373 to R375) -/

/-- A ring of a restored cell: its counters at their load state, its reservations kept. -/
def Ring.restored (r : Ring) : Ring := { r with tail := 0, claim := 0, head := 0 }

/-- One cell is prepared in a cluster, and its restore handler starts (14 R374). -/
def State.restoreCell (s : State) (l g cl rank : Nat) (old : Core) (store : Mem) : State :=
  let cell := { old.cellD with
    cellinfo := BitVec.ofNat 64 (old.cellD.cellinfo.toNat - bitsOf old.cellD.cellinfo.toNat 8 3 * 2 ^ 8 + cl * 2 ^ 8), preempt := .restoring }
  let c := cl * 96 + bitsOf cell.cellinfo.toNat 0 7
  let s := s.fillCore c cell store (old.rings.map (fun e => (e.1, e.2.restored)))
  let s := s.setCore c { s.core c with
    plane := old.plane, posts := old.posts, intake := old.intake, intakeGranted := old.intakeGranted, intakeTicket := old.intakeTicket
    intakeOutstanding := old.intakeOutstanding }
  s.startHandler c (firmRecord 2 (Config.saveArea l g rank))

/-- The channels and pools of a saved gang are set up in a cluster. -/
def State.restoreOwned (s : State) (ga : Gang) (cl : Nat) : State :=
  let k := s.cluster cl
  s.setCluster cl { k with
    channels := ga.savedChannels.foldl (fun (t : Table Channel) e => Table.set t e.1 e.2) k.channels
    pools := ga.savedPools.foldl (fun (t : Table Pool) e => Table.set t e.1 e.2) k.pools }

/-- A saved gang goes back to a cluster; an error is none where it cannot be placed, or a DETAIL, 0 where a page has no frame yet. -/
def State.restoreGang (s : State) (l g cl : Nat) : State × Except (Option Nat) Unit :=
  match (s.launchAt l).bind (fun la => (la.gangs.find? (fun e => e.1 == g)).map (fun e => (la, e.2))) with
  | none => (s, .error none)
  | some (la, ga) =>
    let k := s.cluster cl
    let fits := k.inService && k.powered && ga.saved.all (fun e => s.coreFree (cl * 96 + bitsOf e.2.cellD.cellinfo.toNat 0 7))
      && ga.channels.all (fun n => k.freeChannels.contains n) && ga.pools.all (fun n => k.freePools.contains n)
    if ga.preempt != .saved || !fits then (s, .error none)
    else
      let x := State.coreImage la la.sections Mem.blank s
      match x.2 with
      | .error code => (x.1, .error (some code))
      | .ok store =>
        let s := x.1.restoreOwned ga cl
        let s := ga.saved.foldl (fun s e => s.restoreCell l g cl e.1 e.2 store) s
        let s := s.mapGang l g (fun ga => { ga with
          preempt := .running, cluster := some cl, saved := [], savedChannels := [], savedPools := []
          cores := ga.saved.map (fun e => cl * 96 + bitsOf e.2.cellD.cellinfo.toNat 0 7) })
        let s := match la.pan with
          | some p => s.mapMember p la.member (fun m => { m with cluster := cl })
          | none => s
        (s, .ok ())

/-- Saved gangs go back together, each to a cluster, or none does. -/
def State.restoreAll : List (Nat × Nat × Nat) → State → State × Except (Option Nat) Unit
  | [], s => (s, .ok ())
  | (l, g, cl) :: r, s =>
    let x := s.restoreGang l g cl
    match x.2 with
    | .error e => (x.1, .error e)
    | .ok _ => State.restoreAll r x.1

/-- A gang has saved cells. -/
def State.hasSaved (s : State) (l g : Nat) : Bool := (s.launchAt l).elim false (fun la => la.gangs.any (fun e => e.1 == g && !e.2.saved.isEmpty))

/-- RESTORE_PLACEMENT (14 R373, R374, R376): a gang in the cluster named, the other members of its panorama on this device in theirs. Where a page of the image has
no frame yet, or lies in a region under repair, the restore is tried again. -/
def State.restoreAt (s : State) (l g cl : Nat) : State :=
  let ts := ((s.together l g).filter (fun x => s.hasSaved x.1 x.2)).map (fun (x : Nat × Nat) =>
    if x = (l, g) then (l, g, cl)
    else
      let ga := (s.launchAt x.1).bind (fun la => la.gangs.find? (fun e => e.1 == x.2))
      (x.1, x.2, (ga.bind (fun e => s.restorePlace e.2)).getD 8))
  if ts.any (fun x => decide (8 ≤ x.2.2)) then s
  else
    let x := State.restoreAll ts s
    match x.2 with
    | .ok _ =>
      ((s.together l g).filter (fun x => !s.hasSaved x.1 x.2)).foldl (fun s x => s.mapGang x.1 x.2 (fun ga =>
        if ga.preempt = .saved then { ga with preempt := .running } else ga)) x.1
    | .error none => s
    | .error (some 0) => s.push (.restorePlacement l g cl)
    | .error (some code) => s.push (.launchEnd l code 0 0)

def execRestorePlacement (s : State) : Host.Outcome State Fault Refusal :=
  match s.event with
  | some (.restorePlacement l g cl) => .next (s.taken.restoreAt l g cl)
  | _ => .fault .noSuchEvent

/-! ## Whole panoramas (14 R376) -/

/-- The sys.drain words of a gang's save handlers have the answer of the other devices. -/
def State.farDrained (s : State) (l : Nat) : State :=
  (s.gangCores l 0).foldl (fun s c => ((s.core c).heldWhere (fun w => w == .drain)).foldl (fun s i =>
    s.setSlot c i { s.slot c i with held := (s.slot c i).held.map (fun h => { h with answers := h.answers.set 0 1 }) }) s) s

/-- Every gang of a list is in one phase. -/
def State.inPhase (s : State) (ts : List (Nat × Nat)) (ph : Preempt) : Bool :=
  ts.all (fun x => (s.launchAt x.1).elim false (fun la => la.gangs.any (fun e => e.1 == x.2 && e.2.preempt == ph)))

/-- The prepare phase (14 R376): the members here stop, after the end of a running handler (14 R368). Member 0's device begins a round and asks the others; another
device asks it to begin one. A member that cannot stop makes every member resume. -/
def State.panStop (s : State) (l : Nat) (q : Panorama) (round : Option Nat) : State :=
  let ts := s.together l 0
  if !s.inPhase ts .running then s
  else if round.isNone && !s.leads q then s.emit (.plain 14 10 [q.panid])
  else
    let n := round.getD (q.round + 1)
    let s := s.mapPan q.panid (fun q => { q with round := n })
    if !ts.all (fun x => s.mayStop x.1 x.2) then
      if !s.leads q then s.emit (.plain 14 0 [q.panid, n])
      else if q.abroad && round.isSome then s.emit (.plain 14 6 [q.panid, n])
      else s
    else
      let s := if round.isNone && q.abroad then s.emit (.plain 14 5 [q.panid, n]) else s
      if ts.any (fun x => (s.gangCores x.1 x.2).any (fun c => (s.core c).handlerBusy)) then
        ts.foldl (fun s x => s.mapGang x.1 x.2 (fun ga => { ga with requested := true })) s
      else ts.foldl (fun s x => s.stopGang x.1 x.2) s

/-- A member's report reaches member 0's device (14 R376). -/
def State.panReported (s : State) (q : Panorama) (l m round : Nat) (stopped : Bool) : State :=
  if round ≠ q.round || !s.leads q then s
  else if stopped then (s.mapPan q.panid (fun q => { q with reported := insertNat m q.reported })).commitStopped q.panid
  else ((if q.abroad then s.emit (.plain 14 6 [q.panid, round]) else s).abandonAll l 0)

/-- The phases of a panorama's pre-emption, for its members on this device, and the reports of the other devices (14 R376). -/
def State.panPhase (s : State) (ph : PanPhase) : State :=
  match ph with
  | .prepare l round =>
    match (s.launchAt l).bind (fun la => la.pan.bind (s.panAt ·)) with
    | some q => s.panStop l q round
    | none => s
  | .reported l m round stopped =>
    match (s.launchAt l).bind (fun la => la.pan.bind (s.panAt ·)) with
    | some q => s.panReported q l m round stopped
    | none => s
  | .drainAsked l d mask =>
    match (s.launchAt l).bind (fun la => la.pan) with
    | some p => (s.mapPan p (fun q => { q with drainAsks := q.drainAsks ++ [(d, mask)] })).answerFarDrains
    | none => s
  | .commit l =>
    let ts := s.together l 0
    if s.inPhase ts .stopped && ts.all (fun x => s.gangStopped x.1 x.2) then ts.foldl (fun s x => s.saveGang x.1 x.2) s else s
  | .abort l => s.abandonAll l 0
  | .drained l => (s.together l 0).foldl (fun s x => s.farDrained x.1) s |>.answerDrains
  | .saved l =>
    match (s.launchAt l).bind (fun la => la.pan) with
    | some p => (s.mapPan p (fun q => { q with farSaved := true })).pushOnce (.saveComplete l 0)
    | none => s
  | .restored l =>
    match (s.launchAt l).bind (fun la => la.pan) with
    | some p => (s.mapPan p (fun q => { q with farBack := true })).thaw p
    | none => s

/-- PANORAMA_PREEMPT. -/
def execPanoramaPreempt (s : State) : Host.Outcome State Fault Refusal :=
  match s.event with
  | some (.panoramaPreempt ph) => .next (s.taken.panPhase ph)
  | _ => .fault .noSuchEvent

end Sys2Proof.Machine
end

