-- ==== Sys2Proof/Machine/Host.lean ====
section
/-! DEFINITION. The host link: retransmission, RDMA, address resolution, the gating of the front end, debug pairs, and the takeover of the command
complex (16 R421, R422, 17 R425, R427, R434, 18 R439 to R444, R446). -/

namespace Sys2Proof.Machine

def State.mapHost (s : State) (f : HostPort → HostPort) : State := { s with host := f s.host }

/-- A queue pair enters the error state. -/
def State.qpFails (s : State) (qp : Nat) : State := s.mapHost (fun h => { h with qpError := insertNat qp h.qpError })

/-! ## Event records that are not acknowledged (18 R440) -/

/-- EVENT_RETRANSMIT: the host has acknowledged the records by then, or they are sent again, at most seven times (notes/assumptions/36.md). -/
def State.retransmit (s : State) (part ch : Nat) : State :=
  let h := s.evchan part ch
  if h.unacked.isEmpty then s
  else
    let acked := Config.choice s.draws % 2 == 0
    let s := { s with draws := s.draws + 1 }
    if acked then s.setEvchan part ch { h with unacked := [], retries := 0 }
    else if 7 ≤ h.retries then s.qpFails (evQpn h.cfg)
    else
      let n := h.unacked.length
      let s := s.emitRecords h.cfg ((h.written + 2 ^ 32 - n) % 2 ^ evLog2n h.cfg) h.unacked
      (s.setEvchan part ch { h with retries := h.retries + 1 }).pushOnce (.eventRetransmit part ch)

def execEventRetransmit (s : State) : Host.Outcome State Fault Refusal :=
  match s.event with
  | some (.eventRetransmit part ch) => .next (s.taken.retransmit part ch)
  | _ => .fault .noSuchEvent

/-! ## RDMA WRITE and READ (18 R440, R441) -/

/-- A request comes first again, so that the requests of its queue pair keep their order. -/
def State.again (s : State) (e : Event) : State := { s with agenda := e :: s.agenda }

/-- The region that admits a range under a key. -/
def State.regionFor (s : State) (part rkey va n : Nat) (wr : Bool) : Bool :=
  (s.part part).regions.any (fun e =>
    e.2.rkey == rkey && (if wr then e.2.wr else e.2.rd) && decide (e.2.base ≤ va) && decide (va + n ≤ e.2.base + e.2.len))

/-- A remote-access NAK, and the queue pair's error state. -/
def State.nakQp (s : State) (qp : Nat) : State := (s.qpFails qp).emit (.nak qp 0)

/-- An RDMA request while the front end is awake, after what is held of its queue pair: dropped and counted in the error state; else f acts for its partition. -/
def State.onQp (s : State) (qp : Nat) (e : Event) (f : State → Nat → State) : State :=
  if s.host.qpError.contains qp || !s.host.qpPart.has qp then s.mapHost (fun h => { h with dropped := h.dropped + 1 })
  else if s.host.gated || s.host.held.any (fun h => h.qp == qp) then (s.again e).pushOnce .frontEndWake
  else f s (s.host.qpPart.get 0 qp)

/-- The bytes of a list as a little-endian number. -/
def bytesNat : List Byte → Nat
  | [] => 0
  | b :: r => b.toNat + 256 * bytesNat r

/-- The n low bytes of a number. -/
def natBytes : Nat → Nat → List Byte
  | 0, _ => []
  | n + 1, v => BitVec.ofNat 8 v :: natBytes n (v / 256)

/-- RDMA_WRITE: aligned 64-byte pieces, whose words become full; the queue pair stalls while a page is resolved, and goes on with the piece that waited. -/
def State.hostWrite (s : State) (qp rkey va : Nat) (data : List Byte) : State :=
  let e := Event.rdmaWrite qp rkey va data
  s.onQp qp e (fun s part =>
    if !s.regionFor part rkey va data.length true then s.nakQp qp
    else
      let r := s.fwWrite part va data.length (bytesNat data) true
      match r.2 with
      | .ok _ => r.1.emit (.rdmaAck qp)
      | .error (0, a) => r.1.again (.rdmaWrite qp rkey a (data.drop (a - va)))
      | .error _ => r.1.nakQp qp)

def execRdmaWrite (s : State) : Host.Outcome State Fault Refusal :=
  match s.event with
  | some (.rdmaWrite qp rkey va data) => .next (s.taken.hostWrite qp rkey va data)
  | _ => .fault .noSuchEvent

/-- RDMA_READ. -/
def State.hostRead (s : State) (qp rkey va len : Nat) : State :=
  let e := Event.rdmaRead qp rkey va len
  s.onQp qp e (fun s part =>
    if !s.regionFor part rkey va len false then s.nakQp qp
    else
      let r := s.fwRead part va len
      match r.2 with
      | .ok v => r.1.emit (.rdmaData qp (natBytes len v))
      | .error (0, _) => r.1.again e
      | .error _ => r.1.nakQp qp)

def execRdmaRead (s : State) : Host.Outcome State Fault Refusal :=
  match s.event with
  | some (.rdmaRead qp rkey va len) => .next (s.taken.hostRead qp rkey va len)
  | _ => .fault .noSuchEvent

/-! ## The intake's own frames (18 R439) -/

/-- The intake sends a frame while the link is up. -/
def State.frameOut (s : State) (kind : Nat) (frame : List Byte) : State := if s.host.link = 0 then s else s.emit (.ethernet kind frame)

/-- ARP_REQUEST. -/
def execArpRequest (s : State) : Host.Outcome State Fault Refusal :=
  match s.event with
  | some (.arpRequest frame) => .next (s.taken.frameOut 1 frame)
  | _ => .fault .noSuchEvent

/-- NEIGHBOR_DISCOVERY. -/
def execNeighborDiscovery (s : State) : Host.Outcome State Fault Refusal :=
  match s.event with
  | some (.neighborDiscovery frame) => .next (s.taken.frameOut 2 frame)
  | _ => .fault .noSuchEvent

/-- LLDP_SEND. -/
def execLldpSend (s : State) : Host.Outcome State Fault Refusal :=
  match s.event with
  | some .lldpSend => .next (s.taken.frameOut 3 [])
  | _ => .fault .noSuchEvent

/-- HOST_LINK_CHANGE (18 R446, 17 R438): 0 down, 1 up, 2 paused by the partner. -/
def State.linkChange (s : State) (v : Nat) : State :=
  if v = s.host.link || decide (3 ≤ v) then s
  else
    let s := (s.mapHost (fun h => { h with link := v })).pushOnce (.platformEventMessage 57)
    if v = 0 then s.push (.filmstripRecord 6 0x41 0 0) else s

def execHostLinkChange (s : State) : Host.Outcome State Fault Refusal :=
  match s.event with
  | some (.hostLinkChange v) => .next (s.taken.linkChange v)
  | _ => .fault .noSuchEvent

/-! ## The front end (18 R443) -/

/-- FRONT_END_GATE: after 1 ms without traffic. -/
def execFrontEndGate (s : State) : Host.Outcome State Fault Refusal :=
  match s.event with
  | some .frontEndGate => .next (if s.host.held.isEmpty then s.taken.mapHost (fun h => { h with gated := true }) else s.taken)
  | _ => .fault .noSuchEvent

/-! ## Trace registers (17 R434) -/

/-- Firmware's write of a cluster's trace registers. A base is a multiple of 4 KiB, and a size out of range stores 9. -/
def Trace.put (t : Trace) : TraceWrite → Trace
  | .enable en kinden => { t with en := en, kinden := kinden }
  | .base b => { t with base := b &&& ~~~(0xFFF : BitVec 40) }
  | .size n => { t with log2w := if 9 ≤ n ∧ n ≤ 28 then n else 9 }
  | .read rd => { t with rd := rd }

/-- A trace that is on has its buffer in memory that no partition maps (17 R434, 18 R451). -/
def State.traceFits (s : State) (t : Trace) : Bool :=
  !t.en || (decide (t.extent.1 + t.extent.2 ≤ Config.tableRegion) && clearOf s.frames t.extent.1 t.extent.2)

/-- A write that would leave a trace on with its buffer elsewhere is not made (notes/assumptions/104.md). -/
def State.putTrace (s : State) (cl : Nat) (w : TraceWrite) : State :=
  let k := s.cluster cl
  if s.traceFits (k.trace.put w) then s.setCluster cl { k with trace := k.trace.put w } else s

/-- TRACE_CONTROL_WRITE. -/
def execTraceControlWrite (s : State) : Host.Outcome State Fault Refusal :=
  match s.event with
  | some (.traceControlWrite cl w) => .next (s.taken.putTrace cl w)
  | _ => .fault .noSuchEvent

/-! ## Debug pairs (17 R425, R427, R434, 18 R444) -/

/-- The fields of an entry that breakpoints and watchpoints share. -/
def entryShared (e : BitVec 256) (part : Nat) : Bool := bitsOf e.toNat 196 4 == part && entField e 26 6 == 0

/-- A breakpoint entry that firmware installs (17 R425). -/
def breakOk (e : BitVec 256) (part : Nat) : Bool :=
  entryShared e part && entField e 0 8 % 8 == 0 && (bitsOf e.toNat 193 3 == 1 || bitsOf e.toNat 193 3 == 4) && entField e 25 1 == 0

/-- A watchpoint entry that firmware installs (17 R425). -/
def watchOk (e : BitVec 256) (part : Nat) : Bool :=
  let n := bitsOf e.toNat 202 6
  entryShared e part && decide (3 ≤ n) && decide (n ≤ 20) && entField e 0 8 % 2 ^ n == 0
    && decide (1 ≤ bitsOf e.toNat 193 3) && decide (bitsOf e.toNat 193 3 ≤ 5)

/-- An entry may be replaced by a partition's debugger: nothing active is there, or it is the partition's own. -/
def entryFree (t : Table (BitVec 256)) (i part : Nat) : Bool :=
  let e := t.get 0 i
  !e.getLsbD 192 || bitsOf e.toNat 196 4 == part

/-- A core's cell belongs to the partition, and the slot is not the handler's. -/
def State.mayDebug (s : State) (part c i : Nat) : Bool :=
  (s.core c).cell.elim false (fun k => k.part == part) && i != 255

/-- The debugger resumes a STOPPED strand; a claimed record of it is disposed of (14 R352, R354, 17 R427). -/
def State.debugGo (s : State) (c i : Nat) : State :=
  if (s.slot c i).st ≠ .stopped then s
  else
    let k := s.cluster (clusterOf c)
    let s := s.setCluster (clusterOf c) { k with mailbox := k.mailbox.filter (fun r => !(r.core == c && r.slot == i && r.claimed)) }
    let s := if (s.core c).faults.isEmpty then s else s.pushOnce (.mailboxRecordWrite c i)
    s.go c i

/-- Firmware changes a cluster's trace for a debug pair: 1 where the change is made (17 R434, 18 R444). -/
def State.debugTrace (s : State) (cl : Nat) (w : TraceWrite) : State × Word :=
  (s.putTrace cl w, if s.traceFits ((s.cluster cl).trace.put w) then 1 else 0)

/-- A debugger may read or write the item that an operand names, as a trap handler may: it writes no cell item (14 R361, 18 R444; notes/assumptions/103.md). -/
def State.debugItem (s : State) (part c : Nat) (o : Word) (write : Bool) : Bool :=
  (s.core c).cell.elim false (fun k => k.part == part) && (sysItemFault (s.core c) o write).isNone && !(write && o.getLsbD 18)

/-- What firmware does for a debug pair, on its partition only: the state and the value sent back, 0 for what is refused. -/
def State.debug (s : State) (part : Nat) (r : DebugReq) : State × Word :=
  let p := s.part part
  match r with
  | .attach => (s.setPart part { p with attached := true }, 1)
  | .detach => (s.setPart part { p with attached := false, claims := 0 }, 1)
  | .claim codes => (s.setPart part { p with attached := true, claims := codes }, 1)
  | .setBreak i e =>
    if i < 64 && breakOk e part && entryFree s.breaks i part then ({ s with breaks := s.breaks.set i e }, 1) else (s, 0)
  | .setWatch i e =>
    if i < 16 && watchOk e part && entryFree s.watches i part then ({ s with watches := s.watches.set i e }, 1) else (s, 0)
  | .stop c i => if s.mayDebug part c i then ((s.arouse c).stop c i, 1) else (s, 0)
  | .resume c i => if s.mayDebug part c i then ((s.arouse c).debugGo c i, 1) else (s, 0)
  | .read c o => if s.debugItem part c o false then (s.arouse c, s.sysRead c o) else (s, 0)
  | .write c o v => if s.debugItem part c o true then ((s.arouse c).sysWrite c o v, 1) else (s, 0)
  | .trace cl reg v =>
    match reg with
    | 0 => s.debugTrace cl (.enable (v.getLsbD 0) (BitVec.ofNat 4 (bitsOf v.toNat 1 4)))
    | 1 => s.debugTrace cl (.base (v.setWidth 40))
    | 2 => s.debugTrace cl (.size (v.toNat % 32))
    | 4 => s.debugTrace cl (.read v)
    | _ => (s, 0)
  | .traceRead cl =>
    let t := (s.cluster cl).trace
    if t.wr = t.rd then (s, 0)
    else (s.putTrace cl (.read (t.rd + 1)), BitVec.ofNat 64 (s.memory.read (t.base.toNat + 8 * (t.rd.toNat % 2 ^ t.log2w)) 8))

/-- Firmware serves a debug SEND: dropped and counted on a pair that is unbound or in the error state, refused on one that is no debug pair (18 R440, R444). -/
def State.serveDebug (s : State) (qp : Nat) (r : DebugReq) : State :=
  if s.host.qpError.contains qp || !s.host.qpPart.has qp then s.countDrop
  else if s.host.qpDebug.contains qp then let x := s.debug (s.host.qpPart.get 0 qp) r; x.1.emit (.debugReply qp x.2)
  else s.emit (.nak qp 1)

/-- DEBUG_REQUEST (18 R443, R444): a SEND on a debug pair is held, or served. -/
def State.debugSend (s : State) (qp : Nat) (r : DebugReq) : State :=
  if s.host.qpError.contains qp || !s.host.qpPart.has qp then s.countDrop
  else if s.host.gated || !s.host.held.isEmpty then s.holdSend (.debug qp r)
  else s.serveDebug qp r

def execDebugRequest (s : State) : Host.Outcome State Fault Refusal :=
  match s.event with
  | some (.debugRequest qp r) => .next (s.taken.debugSend qp r)
  | _ => .fault .noSuchEvent

/-! ## The front end wakes (18 R442, R443) -/

/-- The front end serves a held request. -/
def State.serveHeld (s : State) : Held → State
  | .send d => s.serveSend d
  | .debug qp r => s.serveDebug qp r

/-- FRONT_END_WAKE: the held requests are served one by one in arrival order, before any later arrival; XON is sent when the intake has drained to 1 MiB. -/
def State.frontWake (s : State) : State :=
  match s.host.held with
  | [] => s.mapHost (fun h => { h with gated := false })
  | d :: rest =>
    let bytes := s.host.intakeBytes - d.bytes
    let xon := s.host.paused && decide (bytes ≤ 0x100000)
    let s := s.mapHost (fun h => { h with gated := false, held := rest, intakeBytes := bytes, paused := h.paused && !xon })
    let s := s.serveHeld d
    let s := if xon then (s.emit (.pfc false)).pushOnce (.platformEventMessage 57) else s
    if rest.isEmpty then s else s.pushOnce .frontEndWake

def execFrontEndWake (s : State) : Host.Outcome State Fault Refusal :=
  match s.event with
  | some .frontEndWake => .next s.taken.frontWake
  | _ => .fault .noSuchEvent

/-! ## The takeover of the command complex (16 R422) -/

/-- No packet lies between fetch and issue, and no admission between prepare and commit. -/
def State.atBoundary (s : State) : Bool := s.queues.all (fun e => e.2.fetched.isNone) && s.pans.all (fun e => !e.2.preparing)

/-- The other bank of a component becomes the active one. -/
def Mgmt.flip (m : Mgmt) (k : Nat) : Mgmt := { m with banks := m.banks.set k (!m.banks.get false k), staged := removeNat k m.staged }

/-- An accepted image of a component becomes the active one (18 R448). -/
def Mgmt.switchImage (m : Mgmt) (k : Nat) : Mgmt :=
  let m := if m.staged.contains k then m.flip k else m
  { m with pendingActivation := removeNat k m.pendingActivation, switched := m.switched.filter (fun e => e.1 != k) }

/-- The roles of the complexes swap, with a new image where its activation is under way; everything else stays. -/
def State.takeOver (s : State) : State :=
  let new := s.mgmt.pendingActivation.contains 2
  let s := { s with mgmt := { s.mgmt with complex := 1 - s.mgmt.complex } }
  let s := if new then { s with mgmt := s.mgmt.switchImage 2 } else s
  s.push (.filmstripRecord 2 0x42 s.mgmt.complex 0)

/-- LIVE_UPDATE_TAKEOVER: at a packet boundary; a new image may fail before it, and is then discarded. -/
def State.liveUpdate (s : State) : State :=
  if s.mgmt.pendingActivation.contains 2 && Config.choice s.draws % 4 == 3 then
    { s with draws := s.draws + 1
             mgmt := { s.mgmt with pendingActivation := s.mgmt.pendingActivation.filter (fun x => x != 2), staged := removeNat 2 s.mgmt.staged } }
  else
    let s := { s with draws := s.draws + 1 }
    if s.atBoundary then s.takeOver else s.pushOnce .liveUpdateTakeover

def execLiveUpdateTakeover (s : State) : Host.Outcome State Fault Refusal :=
  match s.event with
  | some .liveUpdateTakeover => .next s.taken.liveUpdate
  | _ => .fault .noSuchEvent

end Sys2Proof.Machine
end

