-- ==== Sys2Proof/Machine/Power.lean ====
section
/-! DEFINITION. Management: sensors, firmware images, attestation, assignments, contact sheets, clocks and gating (17 R437, R438, 18 R445 to R453, R456).
What is measured, signed or hashed is a free value (notes/assumptions/37.md). -/

namespace Sys2Proof.Machine

def State.mapMgmt (s : State) (f : Mgmt → Mgmt) : State := { s with mgmt := f s.mgmt }

/-! ## Sensors (18 R446, R447) -/

/-- A temperature: the last that was reported, or what is measured. -/
def State.temperature (s : State) (n : Nat) : Nat × State :=
  if s.mgmt.temps.has n then (min 150 (s.mgmt.temps.get 0 n), s) else let d := s.draw; (d.1.toNat % 151, d.2)

/-- The value of a sensor; what the state does not hold is measured. -/
def State.sensorValue (s : State) (n : Nat) : Nat × State :=
  let d := s.draw
  if n = 1 then (d.1.toNat % 2501, d.2)
  else if n = 2 then (s.mgmt.cap, s)
  else if n ≤ 18 then s.temperature (n - 3)
  else if n = 19 then (s.mgmt.clock, s)
  else if n = 20 then (s.mgmt.service, s)
  else if n ≤ 32 then
    let k := s.stack (n - 21)
    ((if k.xrows || k.xbanks || k.xlanes then 1 else 0), s)
  else if n ≤ 44 then ((s.stack (n - 33)).ce, s)
  else if n ≤ 56 then ((s.stack (n - 45)).ue, s)
  else if n = 57 then ((if s.host.link = 1 && s.host.paused then 2 else s.host.link), s)
  else if n ≤ 63 then
    let p := n - 58
    ((if s.router.down.contains p then 0 else if s.router.replays.get 0 p = 0 then 1 else 2), s)
  else if n = 64 then ((if s.mgmt.banks.get false 1 then 1 else 0), s)
  else (s.filmSeq % 2 ^ 32, s)

/-- The sensors that report states, on change. -/
def stateSensor (n : Nat) : Bool :=
  n == 20 || (decide (21 ≤ n) && decide (n ≤ 32)) || n == 57 || (decide (58 ≤ n) && decide (n ≤ 63)) || n == 64

/-- GET_SENSOR_READING: the operational state (0 enabled, 1 unavailable, 2 no such sensor) and the value. A reading of a numeric sensor may be
too old. -/
def State.readSensor (s : State) (n : Nat) : State :=
  if n = 0 ∨ 65 < n then s.emit (.plain 2 n [2])
  else
    let old := !stateSensor n && Config.choice s.draws % 2 == 1
    let s := if stateSensor n then s else { s with draws := s.draws + 1 }
    if old then s.emit (.plain 2 n [1])
    else
      let v := s.sensorValue n
      v.2.emit (.plain 2 n [0, v.1])

def execGetSensorReading (s : State) : Host.Outcome State Fault Refusal :=
  match s.event with
  | some (.getSensorReading n) => .next (s.taken.readSensor n)
  | _ => .fault .noSuchEvent

/-- The fixed record of a sensor (18 R446): numeric 0 or state 1; the unit, 0 W, 1 °C, 2 MHz, 3 a count, or the number of states; the range; and the update period in
ms, 0 for on change (notes/assumptions/76.md). -/
def sensorRecord (n : Nat) : List Nat :=
  if n = 1 then [0, 0, 0, 2500, 1]
  else if n = 2 then [0, 0, 600, 2000, 100]
  else if n ≤ 6 then [0, 1, 0, 150, 10]
  else if n ≤ 18 then [0, 1, 0, 150, 100]
  else if n = 19 then [0, 2, 0, 3300, 100]
  else if n = 20 then [1, 4, 0, 3, 0]
  else if n ≤ 32 then [1, 2, 0, 1, 0]
  else if n ≤ 44 then [0, 3, 0, 2 ^ 24 - 1, 1000]
  else if n ≤ 56 then [0, 3, 0, 65535, 1000]
  else if n ≤ 63 then [1, 3, 0, 2, 0]
  else if n = 64 then [1, 2, 0, 1, 0]
  else [0, 3, 0, 2 ^ 32 - 1, 100]

/-- The 32 bytes of a filmstrip record (17 R438). -/
def FilmRec.bits (r : FilmRec) : Nat :=
  r.seq % 2 ^ 64 + r.time % 2 ^ 64 * 2 ^ 64 + r.source % 256 * 2 ^ 128 + r.code % 256 * 2 ^ 136 + r.unit % 65536 * 2 ^ 144 + r.data.toNat * 2 ^ 192

/-- Record i of the filmstrip's file: that of the ring's place i, 0 where nothing has been recorded yet (17 R438, 18 R447). -/
def State.filmFile (s : State) (i : Nat) : Nat := (s.film.find? (fun r => (r.seq + 4095) % 4096 == i)).elim 0 FilmRec.bits

/-- What PLDM answers: the types of the endpoint, the record of a sensor, or a record of the filmstrip's file of 4,096 (18 R445 to R447). -/
def State.pldmAnswer (s : State) : PldmAsk → Output
  | .types r => .plain 0 r [0, 2, 5]
  | .sensorRecord n => .plain 3 n (if n = 0 ∨ 65 < n then [] else sensorRecord n)
  | .fileRecord i => .plain 4 i (if i < 4096 then [s.filmFile i] else [])

/-- PLDM_DISCOVERY (18 R445 to R447). -/
def execPldmDiscovery (s : State) : Host.Outcome State Fault Refusal :=
  match s.event with
  | some (.pldmDiscovery a) => .next (s.taken.emit (s.pldmAnswer a))
  | _ => .fault .noSuchEvent

/-- PLATFORM_EVENT_MESSAGE (18 R447): best effort; a dropped event is counted. -/
def State.tellSensor (s : State) (n : Nat) : State :=
  let dropped := Config.choice s.draws % 2 == 1
  let s := { s with draws := s.draws + 1 }
  if dropped then s.mapMgmt (fun m => { m with sensorDrops := m.sensorDrops + 1 })
  else
    let v := s.sensorValue n
    v.2.emit (.sensorEvent n v.1)

def execPlatformEventMessage (s : State) : Host.Outcome State Fault Refusal :=
  match s.event with
  | some (.platformEventMessage n) => .next (s.taken.tellSensor n)
  | _ => .fault .noSuchEvent

/-! ## Firmware update (18 R448, R449) -/

/-- A component that has two banks. -/
def isComponent (k : Nat) : Bool := decide (1 ≤ k) && decide (k ≤ 5)

/-- The active bank of a component: 0 or 1. -/
def Mgmt.bank (m : Mgmt) (k : Nat) : Nat := if m.banks.get false k then 1 else 0

/-- The security version and the measurement of the image in a bank (18 R449, R450). -/
def Mgmt.image (m : Mgmt) (k bank : Nat) : Nat × Nat :=
  if m.images.has (2 * k + bank) then m.images.get (0, 0) (2 * k + bank) else (0, (Config.flashHash (2 * k + bank)).toNat)

/-- The active image of a component. -/
def Mgmt.active (m : Mgmt) (k : Nat) : Nat × Nat := m.image k (m.bank k)

/-- APPLY_COMPLETE: an image in the inactive bank is accepted when both signatures verify and its version is not below the minimum. While the inactive bank is being
activated, no image is accepted for it. -/
def State.applyImage (s : State) (k bank version hash : Nat) (rsaOk slhOk : Bool) : State :=
  let m := s.mgmt
  if isComponent k && bank == 1 - m.bank k && rsaOk && slhOk && decide (m.minimums.get 0 k ≤ version) && !m.switched.any (fun e => e.1 == k) then
    (s.mapMgmt (fun m => { m with staged := insertNat k m.staged, images := m.images.set (2 * k + bank) (version, hash) })).emit (.plain 5 k [1])
  else (s.push (.filmstripRecord 4 0x43 0 (BitVec.ofNat 64 k))).emit (.plain 5 k [0])

def execApplyComplete (s : State) : Host.Outcome State Fault Refusal :=
  match s.event with
  | some (.applyComplete k bank version hash rsaOk slhOk) => .next (s.taken.applyImage k bank version hash rsaOk slhOk)
  | _ => .fault .noSuchEvent

/-- What runs an image of its own of a component that is activated live: the clusters, the stacks, the front end (18 R448). -/
def activationUnits (k : Nat) : List Nat := if k = 3 then List.range 8 else if k = 4 then List.range 12 else [0]

/-- A unit can switch now: a cluster manager with no message in progress, a stack's Fixer between two repairs (18 R448; notes/assumptions/37.md). -/
def State.canSwitch (s : State) (k u : Nat) : Bool :=
  if k = 3 then s.agenda.all (fun e => match e with
    | .mailboxRecordWrite c _ => clusterOf c != u
    | _ => true)
  else if k = 4 then (s.stack u).active.isNone
  else true

/-- A live activation goes on: one unit switches, or all have and the image is the active one. The front end's intake holds frames meanwhile. -/
def State.switchUnit (s : State) (k : Nat) : State :=
  let left := (activationUnits k).filter (fun u => !s.mgmt.switched.contains (k, u))
  match left.find? (s.canSwitch k) with
  | none => s.pushOnce (.firmwareActivation k)
  | some u =>
    let s := s.mapMgmt (fun m => { m with pendingActivation := insertNat k m.pendingActivation, switched := (k, u) :: m.switched })
    let s := if k = 5 then (s.mapHost (fun h => { h with gated := true })).pushOnce .frontEndWake else s
    if left.length = 1 then s.mapMgmt (fun m => m.switchImage k) else s.pushOnce (.firmwareActivation k)

/-- FIRMWARE_ACTIVATION: the security monitor at the next package warm reset, the command complex by a takeover, the others live: the cluster managers one cluster at a
time, the Fixer's by stack. A live activation may fail before the switch (18 R448, R449). -/
def State.activate (s : State) (k : Nat) : State :=
  if !s.mgmt.staged.contains k then s
  else
    let pend := s.mapMgmt (fun m => { m with pendingActivation := insertNat k m.pendingActivation })
    if k = 1 then pend
    else if k = 2 then pend.pushOnce .liveUpdateTakeover
    else if s.mgmt.pendingActivation.contains k then s.switchUnit k
    else
      let fails := Config.choice s.draws % 4 == 3
      let s := { s with draws := s.draws + 1 }
      if fails then s else s.switchUnit k

def execFirmwareActivation (s : State) : Host.Outcome State Fault Refusal :=
  match s.event with
  | some (.firmwareActivation k) => .next (s.taken.activate k)
  | _ => .fault .noSuchEvent

/-- SECURITY_MINIMUM_RAISE: only upwards, and only to the number of the active image. -/
def State.raiseMinimum (s : State) (k version : Nat) : State :=
  let m := s.mgmt
  if isComponent k && version == (m.active k).1 && decide (m.minimums.get 0 k ≤ version) then
    (s.mapMgmt (fun m => { m with minimums := m.minimums.set k version })).emit (.plain 7 k [1])
  else s.emit (.plain 7 k [0])

def execSecurityMinimumRaise (s : State) : Host.Outcome State Fault Refusal :=
  match s.event with
  | some (.securityMinimumRaise k version) => .next (s.taken.raiseMinimum k version)
  | _ => .fault .noSuchEvent

/-! ## Attestation (18 R450) -/

/-- An SPDM response: its code, its arguments, and a free value for what is signed or hashed. -/
def State.spdm (s : State) (code : Nat) (args : List Nat) : State :=
  let d := s.draw
  d.2.emit (.plain 6 code (args ++ [d.1.toNat]))

/-- GET_VERSION: SPDM 1.3. -/
def execGetVersion (s : State) : Host.Outcome State Fault Refusal :=
  match s.event with
  | some .getVersion => .next (s.taken.spdm 1 [1, 3])
  | _ => .fault .noSuchEvent

/-- GET_CAPABILITIES: no sessions and no key exchange. -/
def execGetCapabilities (s : State) : Host.Outcome State Fault Refusal :=
  match s.event with
  | some .getCapabilities => .next (s.taken.spdm 2 [0])
  | _ => .fault .noSuchEvent

/-- NEGOTIATE_ALGORITHMS: ECDSA P-384 and SHA-384. -/
def execNegotiateAlgorithms (s : State) : Host.Outcome State Fault Refusal :=
  match s.event with
  | some .negotiateAlgorithms => .next (s.taken.spdm 3 [384, 384])
  | _ => .fault .noSuchEvent

/-- GET_DIGESTS: the one chain, in slot 0. -/
def execGetDigests (s : State) : Host.Outcome State Fault Refusal :=
  match s.event with
  | some .getDigests => .next (s.taken.spdm 4 [1])
  | _ => .fault .noSuchEvent

/-- GET_CERTIFICATE: a part of the chain of slot 0; another slot has none. -/
def execGetCertificate (s : State) : Host.Outcome State Fault Refusal :=
  match s.event with
  | some (.getCertificate slot offset length) => .next (s.taken.spdm (if slot = 0 then 5 else 0) [slot, offset, length])
  | _ => .fault .noSuchEvent

/-- CHALLENGE: signed with the identity key of slot 0. -/
def execChallenge (s : State) : Host.Outcome State Fault Refusal :=
  match s.event with
  | some (.challenge slot nonce) => .next (s.taken.spdm (if slot = 0 then 6 else 0) [slot, nonce.toNat])
  | _ => .fault .noSuchEvent

/-- What a measurement gives: the ROM's, that of the active image of a component, the minimums with the key hashes, or the debug state. -/
def Mgmt.measured (m : Mgmt) (index : Nat) : List Nat :=
  match index with
  | 1 => [Config.romHash.toNat]
  | 2 => [(m.active 1).2]
  | 3 => [(m.active 2).2]
  | 4 => [(m.active 3).2]
  | 5 => [(m.active 4).2]
  | 6 => [(m.active 5).2]
  | 7 => (upFrom 1 5).map (fun k => m.minimums.get 0 k) ++ [Config.keyHash.toNat]
  | _ => [if m.debugBound then 1 else 0]

/-- GET_MEASUREMENTS: index 1 to 8. -/
def execGetMeasurements (s : State) : Host.Outcome State Fault Refusal :=
  match s.event with
  | some (.getMeasurements index nonce) =>
    let s := s.taken
    .next (if index = 0 ∨ 8 < index then s.spdm 0 [index] else s.spdm 7 ([index, nonce.toNat] ++ s.mgmt.measured index))
  | _ => .fault .noSuchEvent

/-! ## Assignments (18 R441, R451, 13 R311, 17 R437) -/

/-- A device holds at most 16 partitions (01 R16); a contact sheet's interval is from 1 µs to 1 s (17 R437), and there are 8 priorities (18 R442). -/
def assignable : Assignment → Bool
  | .contactSheet _ _ interval => decide (1 ≤ interval) && decide (interval ≤ 1000000)
  | .pfcPriority p => decide (p < 8)
  | .queue _ p _ => decide (p < 16)
  | .queuePair _ p _ => decide (p < 16)
  | .region p .. => decide (p < 16)
  | .root p => decide (p < 16)
  | .page p .. => decide (p < 16)
  | _ => true

/-- What management assigns through the security monitor. A queue comes with its first control block, since a CONFIG packet needs a queue that
runs already, and a partition with its first pages (notes/assumptions/39.md). -/
def State.assign (s : State) (a : Assignment) : State :=
  if !assignable a then s else
  match a with
  | .queue q part block =>
    if cbOk block then (s.mapQueue q (fun _ => { Queue.none with part := some part, cb := blkSet (blkSet block 72 4 part) 448 64 0 })).kickQueue q
    else s
  | .queuePair qp part debug =>
    if !s.host.qpPart.has qp && decide (4096 ≤ s.host.qpPart.length) then s else
    let s := s.mapHost (fun h => { h with
      qpPart := h.qpPart.set qp part, qpError := removeNat qp h.qpError
      qpDebug := if debug then insertNat qp h.qpDebug else removeNat qp h.qpDebug })
    if debug then s.mapMgmt (fun m => { m with debugBound := true }) else s
  | .region part index base len rkey rd wr =>
    if index < 16 then s.setPart part { s.part part with regions := (s.part part).regions.set index ⟨base, len, rkey, rd, wr⟩ } else s
  | .root part =>
    match s.newTable 1 with
    | some (t, s) => s.setPart part { s.part part with root := some t }
    | none => s
  | .page part va rights =>
    match (s.part part).root with
    | none => s
    | some root =>
      let r := State.entryFor true va 3 3 1 root s
      match r.2 with
      | .at_ a => (State.actPage 0 (rights.toNat * 8) 3 a r.1).1
      | _ => r.1
  | .device n => { s with device := n }
  | .contactSheet cl base interval =>
    if 1000000 < interval then s else
    let k := s.cluster cl
    (s.setCluster cl { k with sheetBase := base, sheetInterval := interval }).pushOnce (.contactSheetFrame cl)
  | .pfcPriority p => s.mapHost (fun h => { h with priority := p })

/-- PARTITION_ASSIGNMENT. -/
def execPartitionAssignment (s : State) : Host.Outcome State Fault Refusal :=
  match s.event with
  | some (.partitionAssignment a) => .next (s.taken.assign a)
  | _ => .fault .noSuchEvent

/-! ## The contact sheet (17 R437) -/

/-- Stores 4-byte counters one after another. -/
def State.storeCounters (a : Nat) : List Nat → State → State
  | [], s => s
  | v :: r, s => State.storeCounters (a + 4) r { s with memory := s.memory.write 32 a 4 (min v (2 ^ 32 - 1)) }

/-- Stores n counters whose values are left open. -/
def State.storeMeasured (a : Nat) : Nat → State → State
  | 0, s => s
  | n + 1, s =>
    let d := s.draw
    State.storeMeasured (a + 4) n { d.2 with memory := d.2.memory.write 32 a 4 d.1.toNat }

/-- The torus ports of a die (notes/assumptions/33.md). -/
def diePorts (die : Nat) : List Nat := (List.range 6).filter (fun p => Config.portDie p % 4 == die)

/-- CONTACT_SHEET_FRAME: the counters, then the header with its SYNC byte; the next frame follows after the interval (notes/assumptions/38.md). -/
def State.sheetFrame (s : State) (cl : Nat) : State :=
  let k := s.cluster cl
  if k.sheetInterval = 0 then s
  else
    let mesh := 96 * 5 * 4 * 2
    let s := State.storeMeasured (k.sheetBase + 16) mesh s
    let ports := if cl % 2 = 0 then diePorts (cl / 2) else []
    let r := s.router
    let s := State.storeCounters (k.sheetBase + 16 + 4 * mesh) (ports.flatMap (fun p => [r.sent.get 0 p, r.deflections.get 0 p, r.discarded.get 0 p])) s
    let clear (t : Table Nat) : Table Nat := t.filter (fun e => !ports.contains e.1)
    let s := { s with router := { s.router with sent := clear r.sent, deflections := clear r.deflections, discarded := clear r.discarded } }
    let s := State.storeCounters k.sheetBase [0xC5, k.sheetFrame, cl, k.sheetInterval] s
    (s.setCluster cl { s.cluster cl with sheetFrame := k.sheetFrame + 1 }).pushOnce (.contactSheetFrame cl)

def execContactSheetFrame (s : State) : Host.Outcome State Fault Refusal :=
  match s.event with
  | some (.contactSheetFrame cl) => .next (s.taken.sheetFrame cl)
  | _ => .fault .noSuchEvent

/-- FILMSTRIP_RECORD (17 R438). -/
def execFilmstripRecord (s : State) : Host.Outcome State Fault Refusal :=
  match s.event with
  | some (.filmstripRecord source code unit data) => .next (s.taken.filmAdd source code unit data)
  | _ => .fault .noSuchEvent

/-! ## Clocks (18 R452, R456) -/

/-- The clock of a power state: 1.2 GHz in safelight and recovery, a step of the range where capped, else 3.3 GHz. -/
def State.setClock (s : State) (capped : Bool) : State :=
  let d := s.draw
  if s.mgmt.service = 0 ∨ 3 ≤ s.mgmt.service then s.mapMgmt (fun m => { m with capped := capped, clock := 1200 })
  else if capped then d.2.mapMgmt (fun m => { m with capped := true, clock := 1200 + 100 * (d.1.toNat % 21) })
  else s.mapMgmt (fun m => { m with capped := false, clock := 3300 })

/-- Some die was last reported above 100 °C. -/
def Mgmt.hot (m : Mgmt) : Bool := m.temps.any (fun e => decide (e.1 < 4) && decide (100 < e.2))

/-- POWER_CAP_WINDOW: the average of a 10 ms window, in W. -/
def execPowerCapWindow (s : State) : Host.Outcome State Fault Refusal :=
  match s.event with
  | some (.powerCapWindow w) => .next (s.taken.setClock (decide (s.mgmt.cap < w) || s.mgmt.hot))
  | _ => .fault .noSuchEvent

/-- POWER_CAP_SET: 600 to 2,000 W. -/
def execPowerCapSet (s : State) : Host.Outcome State Fault Refusal :=
  match s.event with
  | some (.powerCapSet w) => .next (if 600 ≤ w ∧ w ≤ 2000 then s.taken.mapMgmt (fun m => { m with cap := w }) else s.taken)
  | _ => .fault .noSuchEvent

/-- DIE_TEMPERATURE_CAP: a die above 100 °C caps the clock. -/
def State.dieTemp (s : State) (die celsius : Nat) : State :=
  let s := s.mapMgmt (fun m => { m with temps := m.temps.set die celsius })
  if 100 < celsius then s.setClock true else s

def execDieTemperatureCap (s : State) : Host.Outcome State Fault Refusal :=
  match s.event with
  | some (.dieTemperatureCap die celsius) => .next (s.taken.dieTemp die celsius)
  | _ => .fault .noSuchEvent

/-- A die's temperature trips above 110 °C. -/
def State.dieTrip (s : State) (die celsius : Nat) : State :=
  let s := s.mapMgmt (fun m => { m with temps := m.temps.set die celsius })
  if 110 < celsius then s.pushOnce (.dieWarmReset die) else s

/-- DIE_THERMAL_TRIP: a die above 110 °C. -/
def execDieThermalTrip (s : State) : Host.Outcome State Fault Refusal :=
  match s.event with
  | some (.dieThermalTrip die celsius) => .next (s.taken.dieTrip die celsius)
  | _ => .fault .noSuchEvent

/-- A stack's temperature trips above 105 °C. -/
def State.stackTrip (s : State) (n celsius : Nat) : State :=
  let s := s.mapMgmt (fun m => { m with temps := m.temps.set (4 + n) celsius })
  if 105 < celsius then s.pushOnce .packageWarmReset else s

/-- STACK_THERMAL_TRIP: a stack above 105 °C. -/
def execStackThermalTrip (s : State) : Host.Outcome State Fault Refusal :=
  match s.event with
  | some (.stackThermalTrip n celsius) => .next (s.taken.stackTrip n celsius)
  | _ => .fault .noSuchEvent

/-- Service is declared: the clusters of a mask are excluded, the others join dispatch, and the clock rises. No strand stops. -/
def State.declareService (s : State) (failed : Nat) : State :=
  if s.mgmt.service ≠ 0 then s
  else
    let up (n : Nat) (k : Cluster) : Cluster :=
      if bitsOf failed n 1 = 1 then { k with inService := false } else { k with inService := true, powered := true, selfTested := true }
    let s := (List.range 8).foldl (fun s n => s.setCluster n (up n (s.cluster n))) s
    let s := (s.mapMgmt (fun m => { m with service := if failed = 0 then 1 else 2 })).setClock s.mgmt.capped
    (s.pushOnce (.platformEventMessage 20)).pushOnce .dispatchDecision

/-- FULL_SERVICE. -/
def execFullService (s : State) : Host.Outcome State Fault Refusal :=
  match s.event with
  | some .fullService => .next (s.taken.declareService 0)
  | _ => .fault .noSuchEvent

/-- DEGRADED_SERVICE: which clusters have failed is left open; at least one has. -/
def execDegradedService (s : State) : Host.Outcome State Fault Refusal :=
  match s.event with
  | some .degradedService => let d := s.taken.draw; .next (d.2.declareService (1 + d.1.toNat % 255))
  | _ => .fault .noSuchEvent

/-! ## Gating (18 R452, R453) -/

/-- CORE_CLOCK_GATE: after 1,024 idle cycles in a row. -/
def execCoreClockGate (s : State) : Host.Outcome State Fault Refusal :=
  match s.event with
  | some (.coreClockGate c) =>
    let k := s.core c
    .next (if k.gateable && decide (1024 ≤ k.idleFor) then s.taken.setCore c { k with gated := true } else s.taken)
  | _ => .fault .noSuchEvent

/-- CORE_WAKE. -/
def execCoreWake (s : State) : Host.Outcome State Fault Refusal :=
  match s.event with
  | some (.coreWake c) => .next (s.taken.setCore c { s.core c with gated := false, idleFor := 0 })
  | _ => .fault .noSuchEvent

/-- A cluster that holds no cell and on which no gang is placed. -/
def State.clusterIdle (s : State) (cl : Nat) : Bool :=
  s.cores.all (fun e => clusterOf e.1 != cl || e.2.cell.isNone)
    && s.launches.all (fun l => l.2.gangs.all (fun g => g.2.ended || g.2.cluster != some cl))

/-- CLUSTER_POWER_GATE: after 10 ms with no cell. -/
def execClusterPowerGate (s : State) : Host.Outcome State Fault Refusal :=
  match s.event with
  | some (.clusterPowerGate cl) => .next (if s.clusterIdle cl then s.taken.setCluster cl { s.cluster cl with powered := false } else s.taken)
  | _ => .fault .noSuchEvent

/-- CLUSTER_WAKE: before a gang is placed on it. -/
def execClusterWake (s : State) : Host.Outcome State Fault Refusal :=
  match s.event with
  | some (.clusterWake cl) =>
    let k := s.cluster cl
    .next (if k.inService then (s.taken.setCluster cl { k with powered := true }).pushOnce .dispatchDecision else s.taken)
  | _ => .fault .noSuchEvent

end Sys2Proof.Machine
end

