-- ==== Sys2Proof/Machine/Repair.lean ====
section
/-! DEFINITION. The Fixer: lane tracking, error counts, repairs, the retirement of frames, and pages made non-resident (15 R377 to R389, R472, 07
R175). An attempt lasts from the event that starts it to the one that ends it, and holds the accesses that meet its region meanwhile. -/

namespace Sys2Proof.Machine

/-! ## Where bytes lie (07 R159, 15 R472) -/

/-- The physical addresses of the four 256-byte units of a row. -/
def rowPieces (stack q : Nat) : List Nat := (List.range 4).map (fun k => (4 * q + k) * 3072 + 256 * stack)

/-- The 64 KiB frames with bytes in a row, ascending. -/
def rowFrames (stack q : Nat) : List Nat := (rowPieces stack q).foldl (fun l p => insertNat (p / 2 ^ 16) l) []

/-- The frames with bytes on a group, ascending. -/
def groupFrames (stack group : Nat) : List Nat :=
  (List.range (Config.physBytes / 2 ^ 16)).filter (fun f =>
    (List.range 256).any (fun k => stackOf (f * 2 ^ 16 + 256 * k) == stack && (groupChans group).contains (unitChan (rowUnit (f * 2 ^ 16 + 256 * k)))))

/-! ## Retirement of frames (15 R386 to R389) -/

/-- The entries that map a frame, found from a table of a level: virtual address of the frame, level and place of the entry. -/
def entriesFor (m : Mem) (frame : Nat) : Nat → Nat → Nat → Nat → List (Nat × Nat × Nat)
  | 0, _, _, _ => []
  | fuel + 1, l, base, va =>
    (List.range (levelEntries l)).flatMap (fun k =>
      let a := base + 8 * k
      let e : Word := BitVec.ofNat 64 (m.read a 8)
      let v := va + k * 2 ^ levelShift l
      if !pteValid l e then []
      else if bitsOf e.toNat 1 2 = 1 then
        (if pteOwns e && decide (pteFrame e ≤ frame * 2 ^ 16) && decide (frame * 2 ^ 16 < pteFrame e + 2 ^ levelShift l) then
          [(v + (frame * 2 ^ 16 - pteFrame e), l, a)] else [])
      else entriesFor m frame fuel (l + 1) (bitsOf e.toNat 8 32 * 256) v)

/-- The entries of every partition that map a frame: partition, virtual address, level and place. -/
def State.mapsOf (s : State) (frame : Nat) : List (Nat × Nat × Nat × Nat) :=
  (List.range 16).flatMap (fun p => match (s.part p).root with
    | some r => (entriesFor s.memory frame 3 1 r 0).map (fun (x : Nat × Nat × Nat) => (p, x))
    | none => [])

/-- SEQ after a notice (15 R389): 0 is skipped. -/
def nextNotice (n : BitVec 32) : BitVec 32 := if n + 1 = 0 then 1 else n + 1

/-- A notice is written to a partition's ring, and PAGE_RETIRED tells each of its channels (15 R388, R389, 16 R420). -/
def State.notice (s : State) (stack kind part va : Nat) : State :=
  let p := s.part part
  let n := nextNotice p.noticeSeq
  let w : Word := BitVec.ofNat 64 (va / 2 ^ 16 % 2 ^ 26 + kind * 2 ^ 26 + stack * 2 ^ 28 + n.toNat * 2 ^ 32)
  let ring := p.notices ++ [w]
  let s := s.setPart part { p with noticeSeq := n, notices := ring.drop (ring.length - 256) }
  ((p.channels.filter (fun e => e.2.configured)).map (·.1)).foldl (fun s ch => s.addEvent part ch (eventRecord 0x22 0 0 0 n.toNat 0)) s

/-- A frame is retired: it is never free again, and the stack counts it. -/
def State.markRetired (s : State) (stack frame : Nat) : State :=
  let k := s.stack stack
  let s := s.setStack stack { k with retired := min (k.retired + 1) (2 ^ 24 - 1) }
  { s with retired := insertNat frame s.retired
           frames := if clearOf s.frames (frame * 2 ^ 16) (2 ^ 16) then (frame * 2 ^ 16, 2 ^ 16) :: s.frames else s.frames }

/-- The retirement of the frame at the head of the list is over; the next one follows. -/
def State.retireNext (s : State) (stack : Nat) : State :=
  let k := s.stack stack
  let s := s.setStack stack { k with toRetire := k.toRetire.drop 1 }
  match k.toRetire.drop 1 with
  | f :: _ => s.pushOnce (.pageRetirement stack f)
  | [] => s

/-- The entries of a retired frame have been changed: translations go, and each entry gives a notice (15 R388). -/
def State.tellRetired (s : State) (stack frame kind : Nat) (maps : List (Nat × Nat × Nat × Nat)) : State :=
  let s := maps.foldl (fun (s : State) (x : Nat × Nat × Nat × Nat) => (s.flushTlb x.1 x.2.1 (2 ^ 16)).notice stack kind x.1 x.2.1) s
  let s := s.markRetired stack frame
  (if maps.isEmpty then s else s.push (.filmstripRecord 3 0x22 stack 0)).retireNext stack

/-- Every entry of a list is rewritten. -/
def State.rewriteEntries (s : State) (maps : List (Nat × Nat × Nat × Nat)) (f : Word → Nat) : State :=
  maps.foldl (fun (s : State) (x : Nat × Nat × Nat × Nat) => s.putEntry x.2.2.2 (f (s.tableWord x.2.2.2))) s

/-- The page that holds va becomes 64 KiB pages, all of it; false where no table can be made. -/
def State.splitPage (s : State) (root va : Nat) : State × Bool :=
  let y := State.entryFor false va 3 3 1 root s
  (y.1, y.2 != .noTable)

/-- Larger pages that hold a frame become 64 KiB pages (15 R386, item 2); false where no table can be made. -/
def State.isolate : List (Nat × Nat × Nat × Nat) → State → State × Bool
  | [], s => (s, true)
  | (part, va, l, _) :: r, s =>
    if l = 3 then State.isolate r s
    else
      match (s.part part).root with
      | none => State.isolate r s
      | some root =>
        let x := s.splitPage root va
        if !x.2 then (x.1, false)
        else State.isolate r (x.1.flushTlb part (va / 2 ^ levelShift l * 2 ^ levelShift l) (2 ^ levelShift l))

/-- The granules of a frame, by the 256-byte unit, are read and counted (15 R387, R391). -/
def State.readFrame (s : State) (frame : Nat) : State := (List.range 256).foldl (fun s k => s.countStack (frame * 2 ^ 16 + 256 * k) 256) s

/-- Uncorrectable granules of a frame. -/
def State.badIn (s : State) (frame : Nat) : Nat := (s.memory.bad.filter (fun g => g / 2048 == frame)).length

/-! ## The Fixer's repairs (15 R381 to R385) -/

/-- Frames join the list of those to retire. -/
def State.retireAll (s : State) (stack : Nat) (frames : List Nat) : State :=
  let k := s.stack stack
  let l := frames.foldl (fun (l : List Nat) f => if l.contains f then l else l ++ [f]) k.toRetire
  let s := s.setStack stack { k with toRetire := l }
  match l with
  | f :: _ => s.pushOnce (.pageRetirement stack f)
  | [] => s

/-- A class of spares is exhausted: its X bit, and the first time the event to firmware and the baseboard controller (15 R385, 18 R447). -/
def State.exhausted (s : State) (stack cls : Nat) : State :=
  let k := s.stack stack
  let old := match cls with
    | 0 => k.xrows
    | 1 => k.xbanks
    | _ => k.xlanes
  let s := s.setStack stack (match cls with
    | 0 => { k with xrows := true }
    | 1 => { k with xbanks := true }
    | _ => { k with xlanes := true })
  if old then s else (s.push (.filmstripRecord 3 0x21 stack 0)).pushOnce (.platformEventMessage (21 + stack))

/-- A repair takes the Fixer, or is handled without a spare: then it is over at once (15 R385). -/
def State.tryRepair (s : State) (n : Nat) (r : Repair) : State × Bool :=
  let k := s.stack n
  let go : State × Bool := (((s.setStack n { k with active := some r }).push (.repairAttemptComplete n)).push (.repairAttemptTimeout n), true)
  match r with
  | .row c b w => if k.rows = 0 then ((s.exhausted n 0).retireAll n (rowFrames n (rowOf c b w)), false) else go
  | .bank _ _ _ => if k.banks = 0 then (s.exhausted n 1, false) else go
  | .lane g =>
    if k.degraded.contains g then ((s.exhausted n 2).retireAll n (groupFrames n g), false)
    else if k.laneMap.contains g then
      let s := s.exhausted n 2
      (s.setStack n { s.stack n with degraded := insertNat g (s.stack n).degraded }, false)
    else go
  | .retrain _ => go
  | .frame .. => go

/-- The next repair of a stack starts when none is active. -/
def State.nextRepair (n : Nat) : Nat → State → State
  | 0, s => s
  | fuel + 1, s =>
    let k := s.stack n
    match k.active, k.waiting with
    | none, r :: rest =>
      let x := (s.setStack n { k with waiting := rest }).tryRepair n r
      if x.2 then x.1 else State.nextRepair n fuel x.1
    | _, _ => s

/-- Pieces of engines that waited for a hold have been told to try again and have not done so yet. -/
def State.piecesDue (s : State) : Bool :=
  s.cores.any (fun e => e.2.cpy.cmds.any (fun m => m.woken && !m.pend.isEmpty) || e.2.mx.cmds.any (fun m => m.woken && !m.pend.isEmpty))

/-- The Fixer of a stack goes on: where none is under way its next repair starts, after the pieces of engines that waited for the end of the last hold (15 R382). -/
def State.fixNext (s : State) (n : Nat) : State :=
  let k := s.stack n
  match k.active, k.waiting with
  | none, r :: _ => if s.piecesDue then s.pushOnce (r.event n) else State.nextRepair n k.waiting.length s
  | _, _ => s

/-- A repair is detected, or its turn may have come: the Fixer runs one at a time, in order of detection (15 R381). -/
def State.addRepair (s : State) (n : Nat) (r : Repair) : State := (s.detect n r).fixNext n

/-- A row unit is copied: its granules are read, and counted where they are uncorrectable (15 R381, R391). -/
def State.readRow (s : State) (n q : Nat) : State := (rowPieces n q).foldl (fun s p => s.countOnly p 256) s

/-- A frame is copied: bytes, full/empty bits and uncorrectable granules (15 R387). -/
def State.copyFrame (s : State) (old new : Nat) : State :=
  let m := s.memory.clearRange 32 (new * 2 ^ 16) (2 ^ 16)
  let m := (s.memory.bytes.filter (fun c => c.1 / 2 ^ 16 == old)).foldl (fun m c => m.setByte (c.1 - old * 2 ^ 16 + new * 2 ^ 16) c.2) m
  let m := (s.memory.empties.filter (fun w => w / 2 ^ 13 == old)).foldl (fun m w => m.setFull (w - old * 2 ^ 13 + new * 2 ^ 13) false) m
  let m := (s.memory.bad.filter (fun g => g / 2048 == old)).foldl (fun m g => m.spoil (g - old * 2048 + new * 2048)) m
  let m := (s.memory.found.filter (fun g => g / 2048 == old)).foldl
    (fun (m : Mem) g => { m with found := insertNat (g - old * 2048 + new * 2048) m.found }) m
  { s with memory := m }

/-- A strand's held word waits at another controller. -/
def State.reholdAt (s : State) (c i : Nat) (ctrl : Ctrl) : State :=
  match (s.slot c i).held with
  | some h => s.setSlot c i { s.slot c i with held := some { h with why := .feAt ctrl } }
  | none => s

/-- Accesses that wait for words of a migrated frame wait at the controllers of the new one, in their order (07 R176). -/
def State.moveWaiters (s : State) (old new : Nat) : State :=
  let here (x : Waiter) : Bool := x.acc.addr / 2 ^ 16 == old
  let moved := s.hbm.flatMap (fun e => e.2.retry.entries.filter here)
  let s := { s with hbm := s.hbm.map (fun e => (e.1, { e.2 with retry := { e.2.retry with entries := e.2.retry.entries.filter (fun x => !here x) } })) }
  moved.foldl (fun s x =>
    let a := x.acc.addr - old * 2 ^ 16 + new * 2 ^ 16
    let n := stackOf a
    let k := s.stack n
    let s := s.setStack n { k with retry := { k.retry with entries := k.retry.entries ++ [{ x with acc := { x.acc with addr := a } }] } }
    match x.who with
    | .strand c i => s.reholdAt c i (.stack n)
    | .remote _ => s) s

/-- What the end of a successful attempt does: the map is switched, or a bank's next row follows, before any other repair (15 R381, R382). -/
def State.endRepair (s : State) (n : Nat) (r : Repair) : State :=
  let k := s.stack n
  match r with
  | .row c b w =>
    let s := s.readRow n (rowOf c b w)
    let k := s.stack n
    let s := s.setStack n { k with rows := k.rows - 1, rowMap := if k.rowMap.contains (c, b, w) then k.rowMap else k.rowMap ++ [(c, b, w)] }
    if 64 ≤ ((s.stack n).rowMap.filter (fun (x : Nat × Nat × Nat) => x.1 == c && x.2.1 == b)).length then s.detect n (.bank c b 0) else s
  | .bank c b next =>
    let s := s.readRow n (rowOf c b next)
    let k := s.stack n
    if next + 1 < 16384 then s.setStack n { k with waiting := .bank c b (next + 1) :: k.waiting }
    else s.setStack n { k with banks := k.banks - 1, bankMap := k.bankMap ++ [(c, b)], rowMap := k.rowMap.filter (fun (x : Nat × Nat × Nat) => !(x.1 == c && x.2.1 == b)) }
  | .lane g => s.setStack n { k with lanes := k.lanes - 1, laneMap := k.laneMap ++ [g] }
  | .retrain g => s.setStack n { k with phase := k.phase.set g 0 }
  | .frame old new =>
    let maps := s.mapsOf old
    let s := (s.copyFrame old new).moveWaiters old new
    let s := s.rewriteEntries maps (fun e => e.toNat - pteFrame e + new * 2 ^ 16)
    let s := if maps.isEmpty then s.dropFrame (new * 2 ^ 16) (2 ^ 16) else s
    s.tellRetired n old 0 maps

/-- The word of strand i is tried again. One that holds a fabric slot goes on in it, before the words that wait for one (13 R319). -/
def State.retryInSlot (s : State) (c i : Nat) : State :=
  if (s.slot c i).holdsFab then ((s.headLine c i true 3).retry c i).headLine c i false 3 else s.retry c i

/-- An access that waited for a hold is performed (15 R382). -/
def State.performDelayed (s : State) (n : Nat) (d : Delayed) : State :=
  match d with
  | .word c i =>
    match (s.slot c i).held with
    | some h => if h.why = .repair n then s.retryInSlot c i else s
    | none => s
  | .far r => s.remoteRequest r
  | .line cl part a => s.icacheReply cl part a
  | .write w => s.lateWrite w

/-- The hold of stack n has ended: every access that waited is performed, in order of arrival, and so are the retry-list entries whose turn and
condition came meanwhile; pieces of engines are tried again, and a stop that met a waiting entry is taken now (15 R382, R383). -/
def State.endHold (s : State) (n : Nat) : State :=
  let l := (s.stack n).delayed
  let s := s.setStack n { s.stack n with delayed := [] }
  let s := s.hbm.foldl (fun s e => s.serveStack e.1 (s.stack e.1).retry) s
  let s := (l.foldl (fun s d => s.performDelayed n d) s).wakeEngines (fun _ => true)
  let asked (sl : Slot) : Bool := sl.stopReq && (match sl.held with
    | some h => (match h.why with
      | .feAt (.stack _) => true
      | _ => false)
    | none => false)
  s.cores.foldl (fun s e => (e.2.slotsWhere asked).foldl (fun s i => s.pushOnce (.feWithdraw e.1 i)) s) s

/-- The attempt in progress ends; done says whether it finished. An abandoned one starts over (15 R382). -/
def State.endAttempt (s : State) (n : Nat) (done : Bool) : State :=
  let k := s.stack n
  match k.active with
  | none => s
  | some r =>
    let s := { s with agenda := s.agenda.filter (fun e => e != Event.repairAttemptComplete n && e != Event.repairAttemptTimeout n) }
    let s := s.setStack n { k with active := none, waiting := if done then k.waiting else r :: k.waiting }
    ((if done then s.endRepair n r else s).endHold n).fixNext n

/-- REPAIR_ATTEMPT_COMPLETE (15 R382). -/
def execRepairAttemptComplete (s : State) : Host.Outcome State Fault Refusal :=
  match s.event with
  | some (.repairAttemptComplete n) => .next (s.taken.endAttempt n true)
  | _ => .fault .noSuchEvent

/-- REPAIR_ATTEMPT_TIMEOUT (15 R382). -/
def execRepairAttemptTimeout (s : State) : Host.Outcome State Fault Refusal :=
  match s.event with
  | some (.repairAttemptTimeout n) => .next (s.taken.endAttempt n false)
  | _ => .fault .noSuchEvent

/-- ROW_REPAIR (15 R381). -/
def execRowRepair (s : State) : Host.Outcome State Fault Refusal :=
  match s.event with
  | some (.rowRepair n c b w) => .next (s.taken.addRepair n (.row c b w))
  | _ => .fault .noSuchEvent

/-- BANK_MIGRATION (15 R381). -/
def execBankMigration (s : State) : Host.Outcome State Fault Refusal :=
  match s.event with
  | some (.bankMigration n c b) => .next (s.taken.addRepair n (.bank c b 0))
  | _ => .fault .noSuchEvent

/-- LANE_STEER (15 R381). -/
def execLaneSteer (s : State) : Host.Outcome State Fault Refusal :=
  match s.event with
  | some (.laneSteer n g) => .next (s.taken.addRepair n (.lane g))
  | _ => .fault .noSuchEvent

/-- GROUP_RETRAIN (15 R378). -/
def execGroupRetrain (s : State) : Host.Outcome State Fault Refusal :=
  match s.event with
  | some (.groupRetrain n g) => .next (s.taken.addRepair n (.retrain g))
  | _ => .fault .noSuchEvent

/-- A step of a sampling phase within ±32; ±28 asks for a retrain (15 R377, R378). -/
def State.trackStep (s : State) (n g : Nat) (up : Bool) : State :=
  let k := s.stack n
  let v := k.phase.get 0 g + (if up then 1 else -1)
  let v := max (-32) (min 32 v)
  let s := s.setStack n { k with phase := k.phase.set g v }
  if 28 ≤ v.natAbs then s.detect n (.retrain g) else s

/-- PHASE_TRACK_STEP (15 R377). -/
def execPhaseTrackStep (s : State) : Host.Outcome State Fault Refusal :=
  match s.event with
  | some (.phaseTrackStep n g up) => .next (s.taken.trackStep n g up)
  | _ => .fault .noSuchEvent

/-! ## Corrected errors and the patrol (15 R379, R380, R391) -/

/-- A corrected error is counted; the third of a row within 24 hours makes it a candidate. Whether the last ones lie within 24 hours is left
open (notes/assumptions/35.md). -/
def State.corrected (s : State) (n granule : Nat) : State :=
  let q := rowUnit (32 * granule)
  let k := s.stack n
  let count := if Config.choice s.draws % 2 = 0 then k.rowEvents.get 0 q + 1 else 1
  let s := { s.setStack n { k with ce := min (k.ce + 1) (2 ^ 24 - 1), rowEvents := k.rowEvents.set q (if 3 ≤ count then 0 else count) } with draws := s.draws + 1 }
  if 3 ≤ count then s.candidateRow n q else s

/-- A corrected error of a core's store, B plane or accumulators is counted (15 R379, R391). -/
def State.correctedCore (s : State) (c : Nat) : State := s.setCore c { s.core c with ce := min ((s.core c).ce + 1) (2 ^ 24 - 1) }

/-- ECC_WRITEBACK (15 R379): the corrected codeword changes no value and no full/empty bit. -/
def execEccWriteback (s : State) : Host.Outcome State Fault Refusal :=
  match s.event with
  | some (.eccWriteback (.stack n granule)) => .next (s.taken.corrected n granule)
  | some (.eccWriteback (.core c)) => .next (s.taken.correctedCore c)
  | _ => .fault .noSuchEvent

/-- The patrol reads a granule: it is sound, corrected, or uncorrectable and counted once, which makes its row a candidate for repair (15 R379, R380). -/
def State.patrol (s : State) (n granule : Nat) (found : EccFound) : State :=
  let s := if found = .uncorrectable then { s with memory := s.memory.spoil granule } else s
  if s.memory.bad.contains granule then s.countStack (32 * granule) 32
  else if found = .corrected then s.corrected n granule
  else s

/-- PATROL_READ (15 R380). -/
def execPatrolRead (s : State) : Host.Outcome State Fault Refusal :=
  match s.event with
  | some (.patrolRead n granule found) => .next (s.taken.patrol n granule found)
  | _ => .fault .noSuchEvent

/-! ## PAGE_RETIREMENT (15 R386 to R388) -/

/-- The dirty words of every page that maps a frame are written back (07 R161). -/
def State.cleanMaps (s : State) (maps : List (Nat × Nat × Nat × Nat)) : State :=
  maps.foldl (fun (s : State) (x : Nat × Nat × Nat × Nat) => s.cleanRange x.1 x.2.1 (2 ^ 16)) s

/-- Some write of a line cache to a page has not reached memory yet. -/
def State.writesDue (s : State) (part va size : Nat) : Bool :=
  s.hbm.any (fun e => e.2.delayed.any (fun d => match d with
    | .write w => w.part == part && w.va / size == va / size
    | _ => false))

/-- A frame whose larger pages are split is reclaimed, lost, or migrated. A discarded page loses its frame only after its dirty words are written back, which cancels
the discard (07 R161, R175). -/
def State.retireMapped (s : State) (n frame : Nat) : State :=
  let s := s.readFrame frame
  let maps := s.mapsOf frame
  let disc (s : State) : Bool := maps.all (fun x => pteDisc (s.tableWord x.2.2.2))
  let s := if disc s then s.cleanMaps maps else s
  if disc s && maps.any (fun x => s.writesDue x.1 x.2.1 (2 ^ 16)) then s.pushOnce (.pageRetirement n frame)
  else if disc s then
    (s.rewriteEntries maps (fun e => (e &&& ~~~(0x40 : Word)).toNat)).tellRetired n frame 0 maps
  else if 64 ≤ s.badIn frame then
    (s.rewriteEntries maps (fun e => (e ||| 0x200).toNat)).tellRetired n frame 1 maps
  else
    match s.freeFrame (2 ^ 16) with
    | some b => (s.takeFrame b (2 ^ 16)).addRepair n (.frame frame (b / 2 ^ 16))
    | none => s.pushOnce (.pageRetirement n frame)

/-- The frame at the head of the list is retired. -/
def State.retireFrame (s : State) (n frame : Nat) : State :=
  let s := if (s.stack n).toRetire.contains frame then s else s.setStack n { s.stack n with toRetire := (s.stack n).toRetire ++ [frame] }
  if (s.stack n).toRetire.head? ≠ some frame then s
  else if s.retired.contains frame then s.retireNext n
  else
    let maps := s.mapsOf frame
    if maps.isEmpty then s.tellRetired n frame 0 []
    else
      let x := State.isolate maps s
      if x.2 then x.1.retireMapped n frame else x.1.pushOnce (.pageRetirement n frame)

/-- A frame that is being migrated is retired when its migration ends. -/
def State.migrating (s : State) (n frame : Nat) : Bool :=
  let is (r : Repair) : Bool := match r with
    | .frame f _ => f == frame
    | _ => false
  (s.stack n).active.elim false is || (s.stack n).waiting.any is

def execPageRetirement (s : State) : Host.Outcome State Fault Refusal :=
  match s.event with
  | some (.pageRetirement n frame) => .next (if s.migrating n frame then s.taken.fixNext n else s.taken.retireFrame n frame)
  | _ => .fault .noSuchEvent

/-! ## PAGE_MADE_NON_RESIDENT (07 R175) -/

/-- A page loses its frame after the dirty words of every line cache are written back (07 R161): one that is discarded then gives it back; any other keeps its
contents. -/
def State.makeAbsent (s : State) (part va : Nat) : State :=
  match s.walk part va with
  | .invalid => s
  | .leaf e size _ =>
    if !pteP e || pteLost e then s
    else
      let s := s.cleanRange part (va / size * size) size
      if s.writesDue part va size then s.push (.pageMadeNonResident part va)
      else
        let disc := match s.walk part va with
          | .leaf e _ _ => pteDisc e
          | .invalid => false
        (if disc then s.dropFrame (pteFrame e) size else s).updateLeaf part va (fun e => e &&& ~~~(0x40 : Word))

def execPageMadeNonResident (s : State) : Host.Outcome State Fault Refusal :=
  match s.event with
  | some (.pageMadeNonResident part va) => .next (s.taken.makeAbsent part va)
  | _ => .fault .noSuchEvent

end Sys2Proof.Machine
end

