-- ==== Sys2Proof/Machine/Router.lean ====
section
/-! DEFINITION. The torus router, its links, and destinations that are lost (13 R311 to R316). The flits of an operation of this device are not
written out: the spec gives no layout of OPC and TAG, so operations leave and arrive as messages (notes/assumptions/34.md). -/

namespace Sys2Proof.Machine

/-- The lengths of the three rings. -/
def ringLens : List Nat := [6, 6, 8]

/-- The distance of two positions of a ring of length l. -/
def ringDist (l a b : Nat) : Nat := min (max a b - min a b) (l - (max a b - min a b))

/-- The distance of two devices. -/
def torusDist (a b : Nat) : Nat :=
  (List.zip (List.zip (coords a) (coords b)) ringLens).foldl (fun (n : Nat) (x : (Nat × Nat) × Nat) => n + ringDist x.2 x.1.1 x.1.2) 0

/-- The device at the other end of a port; ports in the order X+, X−, Y+, Y−, Z+, Z−. -/
def neighbour (n p : Nat) : Nat :=
  let x := n % 6
  let y := n / 6 % 6
  let z := n / 36
  match p with
  | 0 => (x + 1) % 6 + 6 * y + 36 * z
  | 1 => (x + 5) % 6 + 6 * y + 36 * z
  | 2 => x + 6 * ((y + 1) % 6) + 36 * z
  | 3 => x + 6 * ((y + 5) % 6) + 36 * z
  | 4 => x + 6 * y + 36 * ((z + 1) % 8)
  | _ => x + 6 * y + 36 * ((z + 7) % 8)

/-- A port lies on a shortest path to a device. -/
def onShortest (n p dest : Nat) : Bool := decide (torusDist (neighbour n p) dest < torusDist n dest)

/-- The ports whose links work. -/
def Router.working (r : Router) : List Nat := (List.range 6).filter (fun p => !r.down.contains p)

/-- The order of 13 R313: AGE descending, then SRC and TAG ascending. -/
def flitBefore (a b : Flit) : Bool :=
  decide (b.age < a.age)
    || (a.age == b.age && (decide (a.src < b.src) || (a.src == b.src && decide (a.tag ≤ b.tag))))

/-- The 16-byte header of a flit (13 R312). -/
def Flit.header (f : Flit) : BitVec 128 :=
  f.addr ++ f.part ++ f.len ++ f.score ++ f.dcore ++ f.tag ++ f.opc ++ f.cls ++ f.age ++ f.src ++ f.dest

/-- A flit placed in that order. -/
def rankFlit (f : Flit) : List Flit → List Flit
  | [] => [f]
  | g :: r => if flitBefore f g then f :: g :: r else g :: rankFlit f r

/-- The flits that arrive on working ports, one on each. -/
def Router.arrivals (r : Router) (l : List (Nat × Flit)) : List (Nat × Flit) :=
  r.working.filterMap (fun p => l.find? (fun (x : Nat × Flit) => x.1 == p))

/-- One more in a count by port. -/
def bump (t : Table Nat) (p : Nat) : Table Nat := t.set p (t.get 0 p + 1)

/-- A flit is sent on a port and kept in its replay buffer until the port sends the next one (13 R313, R316). A port that was retrying retries no more (18 R447). -/
def State.sendFlit (s : State) (p : Nat) (f : Flit) (deflected : Bool) : State :=
  let r := s.router
  let f := { f with age := if f.age = 255 then 255 else f.age + 1 }
  let r := { r with outgoing := r.outgoing.set p f, replays := r.replays.set p 0, sent := bump r.sent p
                    deflections := if deflected then bump r.deflections p else r.deflections }
  let s := if s.router.replays.get 0 p = 0 then s else s.pushOnce (.platformEventMessage (58 + p))
  { s with router := r }.emit (.flit p f)

/-- The routing of flits in rank order over the ports that are free. A request may find its ejection buffer full for a time; the other
classes always find room (13 R315). -/
def State.routeFlits (n : Nat) : List Flit → List Nat → State → State
  | [], _, s => s
  | f :: r, free, s =>
    let room := f.cls != 0 || Config.choice s.draws % 2 == 0
    let here := f.dest.toNat == n
    let s := if here && f.cls == 0 then { s with draws := s.draws + 1 } else s
    if here && room then State.routeFlits n r free (s.emit (.flit 6 f))
    else
      match free.find? (fun p => onShortest n p f.dest.toNat) with
      | some p => State.routeFlits n r (free.erase p) (s.sendFlit p f false)
      | none =>
        match free with
        | p :: rest => State.routeFlits n r rest (s.sendFlit p f true)
        | [] => State.routeFlits n r [] { s with router := { s.router with inject := f :: s.router.inject } }

/-- ROUTER_LINK_SLOT (13 R312 to R314): flits of CLASS 4 to 7 are discarded and counted, the others ejected, routed or deflected. asks are the ports whose neighbours
ask for an empty slot; a port is left empty as soon as the flits that arrive do not need it. An injector that has waited 256 slots has the neighbours asked
(notes/assumptions/88.md). -/
def State.linkSlot (s : State) (arrived : List (Nat × Flit)) (asks : List Nat) : State :=
  let all := s.router.arrivals arrived
  let asked := (asks.filter s.router.working.contains).foldl (fun l p => insertNat p l) s.router.asked
  let leave := asked.take (s.router.working.length - all.length)
  let ports := s.router.working.filter (fun p => !leave.contains p)
  let bad := (all.filter (fun (x : Nat × Flit) => decide (4 ≤ x.2.cls.toNat))).map (·.1)
  let good := (all.filter (fun (x : Nat × Flit) => decide (x.2.cls.toNat < 4))).map (·.2)
  let r := { s.router with discarded := bad.foldl bump s.router.discarded }
  let join := decide (all.length < ports.length)
  let own := if join then r.inject.take 1 |>.map (fun f => { f with age := 0 }) else []
  let waited : Nat := if join || r.inject.isEmpty then 0 else r.waited + 1
  let r := { r with inject := if join then r.inject.drop 1 else r.inject, waited := waited, asked := asked.filter (fun p => !leave.contains p) }
  let s := if waited = 256 then r.working.foldl (fun s p => s.emit (.emptySlot p)) s else s
  State.routeFlits s.device.toNat ((good ++ own).foldl (fun l f => rankFlit f l) []) ports { s with router := r }

def execRouterLinkSlot (s : State) : Host.Outcome State Fault Refusal :=
  match s.event with
  | some (.routerLinkSlot arrived asks) => .next (s.taken.linkSlot arrived asks)
  | _ => .fault .noSuchEvent

/-! ## Links (13 R316) -/

/-- LINK_REPLAY: the port sends the flit of its replay buffer again; the 16th failure in a row takes the link down. -/
def State.replayLink (s : State) (p : Nat) : State :=
  let r := s.router
  match r.outgoing.find? (fun e => e.1 == p) with
  | none => s
  | some (_, f) =>
    if r.down.contains p then s
    else
      let n := r.replays.get 0 p + 1
      let s := { s with router := { r with replays := r.replays.set p n } }
      let s := if n = 1 then s.pushOnce (.platformEventMessage (58 + p)) else s
      if 16 ≤ n then s.pushOnce (.linkDown p) else s.emit (.flit p f)

def execLinkReplay (s : State) : Host.Outcome State Fault Refusal :=
  match s.event with
  | some (.linkReplay p) => .next (s.taken.replayLink p)
  | _ => .fault .noSuchEvent

/-- LINK_DOWN: routing excludes the link, and the flit that it did not deliver is injected again. A device with no working link reaches no
other one. -/
def State.downLink (s : State) (p : Nat) : State :=
  let r := s.router
  if 6 ≤ p || r.down.contains p then s
  else
    let failed := if r.replays.get 0 p = 0 then none else (r.outgoing.find? (fun e => e.1 == p)).map (·.2)
    let r := { r with down := insertNat p r.down, replays := r.replays.set p 0, outgoing := r.outgoing.filter (fun e => e.1 != p)
                      inject := failed.toList ++ r.inject }
    let s := (({ s with router := r }).push (.filmstripRecord 5 0x41 p 0)).pushOnce (.platformEventMessage (58 + p))
    if r.working.isEmpty then
      ((List.range Config.domainDevices).filter (fun d => d != s.device.toNat)).foldl (fun s d => s.pushOnce (.fabricUnreachable d)) s
    else s

def execLinkDown (s : State) : Host.Outcome State Fault Refusal :=
  match s.event with
  | some (.linkDown p) => .next (s.taken.downLink p)
  | _ => .fault .noSuchEvent

/-! ## A destination is lost (13 R316, R323, R329, R335, R340; 10 R262) -/

/-- The member that a held pan word asks lies on a device. -/
def State.asksDevice (s : State) (c : Nat) (h : HeldWord) (t : Word) (device : Nat) : Bool :=
  let cell := s.cell c
  let named := if h.why = .panReply then [t.toNat % 512] else unanswered (panNamed cell t) h.answers
  named.any (fun m => (s.member (panId cell.paninfo) m).elim false (fun mb => mb.device == device))

/-- A held word whose reply can come no more faults; INFO and ADDR are as for its other faults. -/
def State.loseWord (s : State) (device c i : Nat) : State :=
  match (s.slot c i).held with
  | none => s
  | some h =>
    match h.why with
    | .remote d => if d = device then s.faultHeld c i h (faultAt cUnreachable (s.heldEa c i h)) else s
    | .fePeer d => if d = device then s.faultHeld c i h (faultAt cUnreachable (s.heldEa c i h)) else s
    | .peerPage d => if d = device then s.faultHeld c i h (faultAt cUnreachable (s.heldEa c i h)) else s
    | .panWait =>
      match resolvingMove h.moves with
      | some m => if s.asksDevice c h m.val device then s.faultHeld c i h (bare cUnreachable) else s
      | none => s
    | .panReply =>
      match resolvingMove h.moves with
      | some m => if s.asksDevice c h m.val device then s.faultHeld c i h (bare cUnreachable) else s
      | none => s
    | .detector =>
      match resolvingMove h.moves with
      | some m => if s.armedAt (s.cell c) m.val = some device then s.faultHeld c i h (bare cUnreachable) else s
      | none => s
    | _ => s

/-- A message to the device: one in flight ends with the fault, one that waits for a credit looks at its target again. -/
def State.loseMessage (s : State) (device : Nat) (m : Cmd) : State :=
  let hit := if msgPan m.blk then (s.member (panId (s.senderCell m).paninfo) (msgDest m.blk)).elim false (fun mb => mb.device == device)
    else msgDest m.blk == device
  if !hit then s
  else if m.first = 0 then s.fabAdvance m.core m.seq
  else s.pushOnce (.messageAcknowledge m.core m.seq cUnreachable)

/-- What a core has outstanding at a device: words, elements of copies and messages. Elements that sleep there are tried again, and find the device lost. -/
def State.loseCore (s : State) (device c : Nat) : State :=
  let s := ((s.core c).slotsWhere (fun sl => sl.held.isSome)).foldl (fun s i => s.loseWord device c i) s
  let s := ((s.core c).cpy.cmds.filter (fun m => m.sleeping.any (fun t => t.device == device))).foldl
    (fun s m => s.push (.remoteAccessReply c (256 + m.seq) .wake)) s
  let s := ((s.core c).cpy.cmds.filter (fun m => match m.transit with
    | some t => t.device == device && t.reply.isNone
    | none => false)).foldl (fun s m => s.push (.remoteAccessReply c (256 + m.seq) (.fault cUnreachable))) s
  (s.core c).fab.cmds.foldl (fun s m => s.loseMessage device m) s

/-- FABRIC_UNREACHABLE: every operation whose destination is lost ends. -/
def State.loseDevice (s : State) (device : Nat) : State :=
  if device = s.device.toNat || s.router.unreachable.contains device then s
  else
    let s := { s with router := { s.router with unreachable := insertNat device s.router.unreachable } }
    let s := { s with pans := s.pans.map (fun (e : Nat × Panorama) => (e.1, { e.2 with asking := e.2.asking.filter (fun x =>
      !(e.2.members.any (fun m => m.1 == x.2 && m.2.device == device))) })) }
    let s := (s.cores.map (·.1)).foldl (fun s c => s.loseCore device c) s
    let s := (s.clusters.flatMap (fun e => e.2.couriers)).foldl (fun s m => s.loseMessage device m) s
    let s := s.dies.foldl (fun s e =>
      (e.2.col.cmds.filter (fun m => !m.finished && onRing s.device.toNat device (collOf m.blk).dim)).foldl
        (fun s m => s.colAbandon e.1 m cUnreachable true) s) s
    let s := (s.pans.filter (fun e => e.2.preparing && e.2.queue != noQueue && (s.farDevices e.2).contains device)).foldl
      (fun s e => s.push (.panAdmissionPrepare (.answer e.1 device e.2.attempt false [] []))) s
    (s.pans.filter (fun e => e.2.preparing && e.2.queue == noQueue && (e.1 - 2 ^ 16) / 2 ^ 40 == device)).foldl
      (fun s e => s.push (.panAdmissionCommit e.1 e.2.attempt false 0 [] [])) s

def execFabricUnreachable (s : State) : Host.Outcome State Fault Refusal :=
  match s.event with
  | some (.fabricUnreachable device) => .next (s.taken.loseDevice device)
  | _ => .fault .noSuchEvent

end Sys2Proof.Machine
end

