-- ==== Sys2Proof/Machine/Reset.lean ====
section
/-! DEFINITION. The reset hierarchy (18 R454, R455). -/

namespace Sys2Proof.Machine

/-! ## Requests absorbed by a pending reset (18 R454) -/

/-- The cores that a reset reaches: it is of cell, engine, gang, cluster or die size; none says that it reaches all. -/
def State.resetCores (s : State) : Event → List Nat
  | .cellReset c => [c]
  | .engineReset c _ => [c]
  | .gangReset l g => s.gangCores l g
  | .clusterReset cl => upFrom (96 * cl) 96
  | .dieWarmReset d => upFrom (192 * d) 192
  | .packageWarmReset => upFrom 0 768
  | .coldReset => upFrom 0 768
  | _ => []

/-- The level of a reset event; 0 for others. -/
def resetLevel : Event → Nat
  | .cellReset _ => 1
  | .engineReset _ _ => 2
  | .gangReset _ _ => 3
  | .clusterReset _ => 4
  | .dieWarmReset _ => 5
  | .packageWarmReset => 6
  | .coldReset => 7
  | _ => 0

/-- A reset that is pending covers a request: it is the same reset, or a higher one that reaches every core of it (notes/assumptions/40.md). -/
def State.covers (s : State) (pending e : Event) : Bool :=
  pending == e || (decide (resetLevel e < resetLevel pending) && (s.resetCores e).all (fun c => (s.resetCores pending).contains c))

/-- A reset takes effect, with the requests that it covers absorbed into it, unless a pending one absorbs it (notes/assumptions/40.md). -/
def State.resetBy (s : State) (e : Event) (f : State → State) : State :=
  if s.agenda.any (fun p => s.covers p e) then s
  else f { s with agenda := s.agenda.filter (fun p => !(resetLevel p != 0 && s.covers e p)) }

/-! ## Levels 1 to 3 -/

/-- CELL_RESET. -/
def execCellReset (s : State) : Host.Outcome State Fault Refusal :=
  match s.event with
  | some (.cellReset c) =>
    .next (s.taken.resetBy (.cellReset c) (fun s => if (s.core c).cell.elim false (fun k => !k.ended) then s.killCell c else s))
  | _ => .fault .noSuchEvent

/-- Every accepted command of a copy engine ends with FAULT 0x0A. -/
def State.resetCpy (s : State) (c : Nat) : State :=
  let k := s.core c
  let s := s.setCore c { k with cpy := k.cpy.map (fun _ => true) (fun m => { m with fault := cCmdInvalid, pend := [], transit := none, first := m.last, active := true, finished := true }) }
  k.cpy.cmds.foldl (fun s m => s.cpyComplete c m.seq) s

/-- The matrix engine: its own commands end, the parts that others have there end their share, and its parts elsewhere go. -/
def State.resetMx (s : State) (c : Nat) : State :=
  let parts := (s.core c).mx.cmds.filter (fun m => m.parent.isSome)
  let s := s.setCore c { s.core c with mx := { (s.core c).mx with cmds := (s.core c).mx.cmds.filter (fun m => m.parent.isNone) } }
  let s := parts.foldl (fun s p => match p.parent with
    | some (d, q) => (s.mapMx d q (fun x => x.mergePart { p with fault := cCmdInvalid })).mxSettle d q
    | none => s) s
  let mine (m : Cmd) : Bool := match m.parent with
    | some (d, _) => d == c
    | none => false
  let far := (s.cores.filter (fun e => e.2.mx.cmds.any mine)).map (·.1)
  let s := far.foldl (fun s d =>
    let k := s.core d
    (s.setCore d { k with mx := { k.mx with cmds := k.mx.cmds.filter (fun m => !mine m) } }).mxFreed d) s
  let own := (s.core c).mx.cmds
  let s := s.setCore c { s.core c with mx := (s.core c).mx.map (fun _ => true) (fun m =>
    { m with fault := cCmdInvalid, pend := [], first := m.last, waiting := [], parts := 0, finished := true }) }
  let s := own.foldl (fun s m => s.gmmaAnswered c m.seq) s
  own.foldl (fun s m => s.mxComplete c m.seq) s

/-- The vector engine. -/
def State.resetVx (s : State) (c : Nat) : State :=
  let k := s.core c
  let s := s.setCore c { k with vx := k.vx.map (fun _ => true) (fun m => { m with fault := cCmdInvalid, active := true, finished := true }) }
  k.vx.cmds.foldl (fun s m => s.vxComplete c m.seq) s

/-- The fabric unit: its messages end; the credit of one that is on its way is used by its target. -/
def State.resetFab (s : State) (c : Nat) : State :=
  (s.core c).fab.cmds.foldl (fun s m =>
    s.messageDone { m with fault := cCmdInvalid, first := if m.first = 1 then 0 else m.first } cCmdInvalid) s

/-- Every accepted command of an engine of a core is abandoned, with FAULT 0x0A, STATUS written and its post made. -/
def State.abandonEngine (s : State) (c unit : Nat) : State :=
  match unit with
  | 0 => s.resetCpy c
  | 1 => s.resetMx c
  | 2 => s.resetVx c
  | 3 => s.resetFab c
  | _ => s

/-- ENGINE_RESET: units as in sys.drain's mask; the core's share of the collective engine is the die's. -/
def execEngineReset (s : State) : Host.Outcome State Fault Refusal :=
  match s.event with
  | some (.engineReset c unit) => .next (s.taken.resetBy (.engineReset c unit) (fun s => (s.filmReset 0 c 2).abandonEngine c unit))
  | _ => .fault .noSuchEvent

/-- The cells of a gang end, wherever they are: on their cores, or saved. -/
def State.endGang (s : State) (l g : Nat) : State :=
  let cl := ((s.launchAt l).bind (fun la => (la.gangs.find? (fun e => e.1 == g)).bind (fun e => e.2.cluster))).getD 0
  let s := s.filmReset 1 cl 3
  let s := s.returnCredits (((s.launchAt l).bind (fun la => (la.gangs.find? (fun e => e.1 == g)).map (·.2))).elim [] Gang.savedIntake)
  let s := s.mapGang l g (fun ga =>
    if ga.saved.isEmpty then ga else { ga with saved := [], savedChannels := [], savedPools := [], loaded := true })
  ((s.gangCores l g).foldl (fun s c => s.killCell c) s).checkGang l g

/-- Every member of a panorama is reset together. -/
def State.resetGang (s : State) (l g : Nat) : State :=
  match (s.launchAt l).bind (fun la => la.pan.bind (s.panAt ·)) with
  | some q =>
    let s := if q.abroad then s.emit (.plain 15 5 [q.panid]) else s
    q.launches.foldl (fun s x => s.endGang x 0) s
  | none => s.endGang l g

/-- GANG_RESET. -/
def execGangReset (s : State) : Host.Outcome State Fault Refusal :=
  match s.event with
  | some (.gangReset l g) => .next (s.taken.resetBy (.gangReset l g) (fun s => s.resetGang l g))
  | _ => .fault .noSuchEvent

/-! ## Levels 4 and 5 -/

/-- The launches with gangs on a cluster. -/
def State.launchesOn (s : State) (cl : Nat) : List Nat :=
  (s.launches.filter (fun e => e.2.gangs.any (fun g => g.2.cluster == some cl))).map (·.1)

/-- A core's commands in the die's collective engine are abandoned. -/
def State.dropCol (s : State) (c : Nat) : State :=
  let d := dieOf c
  ((s.die d).col.cmds.filter (fun m => m.core == c)).foldl (fun s m => (s.colAbandon d m cCmdInvalid true).colComplete d m.seq) s

/-- A cluster's launches end, its engines are emptied so that its cells return, and its manager and cores start anew. -/
def State.restartCluster (s : State) (cl : Nat) : State :=
  let s := (s.launchesOn cl).foldl (fun s l => s.endWork l 0 0 0) s
  let cores := (s.cores.filter (fun e => clusterOf e.1 == cl)).map (·.1)
  let s := cores.foldl (fun s c => (((((s.abandonEngine c 0).abandonEngine c 1).abandonEngine c 2).abandonEngine c 3).dropCol c)) s
  let k := s.cluster cl
  let s := s.setCluster cl { Cluster.cold false with
    couriers := k.couriers, powered := k.powered, inService := k.inService, selfTested := k.selfTested }
  { s with cores := s.cores.map (fun e => if clusterOf e.1 = cl then (e.1, { e.2 with cycles := 0, idleFor := 0, gated := false }) else e) }

/-- CLUSTER_RESET. -/
def execClusterReset (s : State) : Host.Outcome State Fault Refusal :=
  match s.event with
  | some (.clusterReset cl) => .next (s.taken.resetBy (.clusterReset cl) (fun s => (s.filmReset 1 cl 4).restartCluster cl))
  | _ => .fault .noSuchEvent

/-- The die of the active command complex (01 R13). -/
def State.complexDie (s : State) : Nat := if s.mgmt.complex = 0 then 0 else 2

/-- A packet boundary is made: packets fetched and not issued are fetched again later, and admissions in progress start over. -/
def State.toBoundary (s : State) : State :=
  let qs := (s.queues.filter (fun e => e.2.fetched.isSome)).map (·.1)
  let s := (qs.foldl (fun s q => (s.mapQueue q (fun k => { k with fetched := none })).kickQueue q) s).serveBells
  (s.pans.filter (fun e => e.2.preparing && e.2.queue != noQueue)).foldl (fun s e => s.panAbort e.1 e.2) s

/-- The links of a die's torus ports train anew; a flit that was not delivered is injected again. Where a link comes back, the destinations that were lost are judged
anew: firmware names those that no path leads to (13 R316; notes/assumptions/89.md). -/
def State.restartLinks (s : State) (die : Nat) : State :=
  let s := if (diePorts die).any s.router.down.contains then { s with router := { s.router with unreachable := [] } } else s
  (diePorts die).foldl (fun s p =>
    let r := s.router
    let failed := if r.replays.get 0 p = 0 then none else (r.outgoing.find? (fun e => e.1 == p)).map (·.2)
    let changed := r.down.contains p || r.replays.get 0 p != 0
    let s := { s with router := { r with down := removeNat p r.down, replays := r.replays.set p 0, outgoing := r.outgoing.filter (fun e => e.1 != p)
                                         inject := failed.toList ++ r.inject } }
    if changed then s.pushOnce (.platformEventMessage (58 + p)) else s) s

/-- DIE_WARM_RESET: an active complex on the die hands over, then both clusters, the die TLB, the collective engine and the links. -/
def State.resetDie (s : State) (d : Nat) : State :=
  let s := if s.complexDie = d then s.toBoundary.takeOver else s
  let s := s.filmReset 2 s.mgmt.complex 5
  let s := (s.restartCluster (2 * d)).restartCluster (2 * d + 1)
  (s.setDie d Die.warm).restartLinks d

def execDieWarmReset (s : State) : Host.Outcome State Fault Refusal :=
  match s.event with
  | some (.dieWarmReset d) => .next (s.taken.resetBy (.dieWarmReset d) (fun s => s.resetDie d))
  | _ => .fault .noSuchEvent

/-! ## Levels 6 and 7 -/

/-- Events that come from outside the package: they are still to come after a package or cold reset. -/
def fromOutside : Event → Bool
  | .doorbell _ => true
  | .rdmaWrite .. => true
  | .rdmaRead .. => true
  | .arpRequest _ => true
  | .neighborDiscovery _ => true
  | .debugRequest .. => true
  | .hostLinkChange _ => true
  | .getSensorReading _ => true
  | .pldmDiscovery _ => true
  | .applyComplete .. => true
  | .firmwareActivation _ => true
  | .securityMinimumRaise .. => true
  | .getVersion => true
  | .getCapabilities => true
  | .negotiateAlgorithms => true
  | .getDigests => true
  | .getCertificate .. => true
  | .challenge .. => true
  | .getMeasurements .. => true
  | .powerCapSet _ => true
  | .partitionAssignment _ => true
  | .remoteRequest _ => true
  | .routerLinkSlot _ _ => true
  | .powerCapWindow _ => true
  | .dieThermalTrip .. => true
  | .stackThermalTrip .. => true
  | .dieTemperatureCap .. => true
  | .filmstripRecord .. => true
  | e => decide (6 ≤ resetLevel e)

/-- What a core keeps over a package warm reset: its creation count and its error counters. -/
def Core.warm (k : Core) : Core := { Core.idle with created := k.created, ue := k.ue, ce := k.ce }

/-- What a partition keeps: its root, and what management assigned. -/
def Partition.warm (p : Partition) : Partition := { Partition.fresh with root := p.root, regions := p.regions }

/-- The repair state that a stack kept over a reset goes on: its next repair starts, and the frames it has to retire are retired (15 R381, R386, 18 R454). -/
def State.fixAgain (s : State) (n : Nat) : State :=
  let s := State.nextRepair n (s.stack n).waiting.length s
  match (s.stack n).toRetire with
  | f :: _ => s.pushOnce (.pageRetirement n f)
  | [] => s

/-- PACKAGE_WARM_RESET: device memory, page tables, control blocks, the filmstrip and repair state survive (notes/assumptions/41.md). -/
def State.resetPackage (s : State) : State :=
  let s := s.filmReset 4 0 6
  let clusters := (List.range 8).map (fun n =>
    let k := s.cluster n
    (n, { Cluster.cold false with powered := k.powered, inService := k.inService, selfTested := k.selfTested }))
  let new := s.mgmt.pendingActivation.contains 1
  let changed := (List.range 6).filter (fun p => s.router.down.contains p || s.router.replays.get 0 p != 0)
  let paused := s.host.paused
  let m := if new then s.mgmt.switchImage 1 else s.mgmt
  let s : State := { s with
    cores := s.cores.map (fun (e : Nat × Core) => (e.1, e.2.warm))
    clusters := clusters
    dies := []
    hbm := s.hbm.map (fun (e : Nat × Stack) => (e.1, { e.2 with retry := Retry.empty, delayed := [], active := none, waiting := e.2.active.toList ++ e.2.waiting }))
    parts := s.parts.map (fun (e : Nat × Partition) => (e.1, e.2.warm))
    queues := s.queues.map (fun (e : Nat × Queue) => (e.1, { Queue.none with part := e.2.part, cb := cbStop e.2.cb 2 0 }))
    blockCache := []
    bells := []
    launches := []
    pans := []
    domain := []
    asleep := []
    breaks := []
    watches := []
    router := Router.fresh
    panWaits := []
    host := { s.host with intakeBytes := 0, paused := false, gated := false, held := [], qpError := s.host.qpPart.foldl (fun (l : List Nat) (e : Nat × Nat) => insertNat e.1 l) [] }
    mgmt := { m with pendingActivation := [], switched := [] }
    agenda := s.agenda.filter fromOutside
    current := none }
  let s := s.queues.foldl (fun s e => s.keepBlock e.1) s
  let s := s.hbm.foldl (fun s e => s.fixAgain e.1) s
  let s := changed.foldl (fun s p => s.pushOnce (.platformEventMessage (58 + p))) s
  let s := if paused then s.pushOnce (.platformEventMessage 57) else s
  if new then s.pushOnce (.platformEventMessage 64) else s

def execPackageWarmReset (s : State) : Host.Outcome State Fault Refusal :=
  match s.event with
  | some .packageWarmReset => .next (s.taken.resetBy .packageWarmReset (fun s => s.resetPackage))
  | _ => .fault .noSuchEvent

/-- The spare maps and the repair state of a stack (15 R384, 18 R454). The migration of a frame, whose contents are gone, is not made; the frame is retired. -/
def Stack.kept (k : Stack) : Stack :=
  { Stack.fresh with rows := k.rows, banks := k.banks, lanes := k.lanes, retired := k.retired, xrows := k.xrows, xbanks := k.xbanks, xlanes := k.xlanes
                     rowMap := k.rowMap, bankMap := k.bankMap, laneMap := k.laneMap, degraded := k.degraded
                     rowEvents := k.rowEvents, toRetire := k.toRetire
                     waiting := (k.active.toList ++ k.waiting).filter (fun r => match r with
                       | .frame .. => false
                       | _ => true) }

/-- The images that boot: the active bank of the security monitor and of the command complex, or the other one where the first fails to
verify; its image is then the active one (18 R455). Bits of a free value say which verify. -/
def Mgmt.boot (m : Mgmt) (good : Word) : Mgmt :=
  let pick (m : Mgmt) (k : Nat) : Mgmt :=
    if good.getLsbD (2 * k) then m
    else if good.getLsbD (2 * k + 1) then m.flip k
    else { m with service := 3 }
  pick (pick m 1) 2

/-- COLD_RESET (18 R454, R455): only the flash banks, the fuses, the spare maps and the repair state are kept; the filmstrip is cleared and
then takes the record of the reset. In time service is declared, unless the device is in recovery. -/
def State.coldStart (s : State) : State :=
  let d := s.draw
  let full := Config.choice d.2.draws % 2 == 0
  let m := { Mgmt.cold with banks := s.mgmt.banks, images := s.mgmt.images, minimums := s.mgmt.minimums, staged := s.mgmt.staged }
  let t : State := { State.reset with
    hbm := s.hbm.map (fun (e : Nat × Stack) => (e.1, e.2.kept))
    retired := s.retired
    frames := s.retired.map (fun f => (f * 2 ^ 16, 2 ^ 16))
    mgmt := m.boot d.1
    agenda := s.agenda.filter (fun e => fromOutside e && (match e with | .filmstripRecord .. => false | _ => true))
    outbox := s.outbox
    tick := s.tick
    draws := d.2.draws + 1 }
  let t := (t.hbm.foldl (fun t e => t.fixAgain e.1) t).filmReset 4 0 7
  let t := if t.mgmt.bank 1 = m.bank 1 then t else t.pushOnce (.platformEventMessage 64)
  if t.mgmt.service = 3 then t.pushOnce (.platformEventMessage 20)
  else t.pushOnce (if full then .fullService else .degradedService)

def execColdReset (s : State) : Host.Outcome State Fault Refusal :=
  match s.event with
  | some .coldReset => .next (s.taken.resetBy .coldReset (fun s => s.coldStart))
  | _ => .fault .noSuchEvent

end Sys2Proof.Machine
end

