-- ==== Sys2Proof/Machine/Words.lean ====
section
/-! DEFINITION. The meanings of the instruction words: the three word forms, the lone special-register writes, and each operation as a lone
word (02 R27 to R50). -/

namespace Sys2Proof.Machine

/-- A word whose only move writes or triggers destination d (03 R64). -/
def runLone (d : BitVec 14) (m : Lone) (s : State) : Host.Outcome State Fault Refusal :=
  runWord [DMove.ofMove (m.to d) false] 8 (pairWord (m.to d) Move.nop) s

/-- R50: a pair word. -/
def execMovePair (a b : Move) (s : State) : Host.Outcome State Fault Refusal :=
  runWord [DMove.ofMove a false, DMove.ofMove b true] 8 (pairWord a b) s

/-- R27: a long word. -/
def execMoveLong (guard : BitVec 4) (dst : BitVec 14) (imm : BitVec 44) (s : State) : Host.Outcome State Fault Refusal :=
  runWord [DMove.ofLit guard dst (imm.signExtend 64)] 8 (1#2 ++ guard ++ dst ++ imm : BitVec 64) s

/-- R29: a literal pair. -/
def execMoveLiteralPair (guard : BitVec 4) (dst : BitVec 14) (literal : Word) (s : State) : Host.Outcome State Fault Refusal :=
  runWord [DMove.ofLit guard dst literal] 16 (2#2 ++ guard ++ dst ++ 0#44 : BitVec 64) s

/-- R46 -/
def execSegklWrite (k : BitVec 3) (m : Lone) (s : State) : Host.Outcome State Fault Refusal :=
  runLone (BitVec.ofNat 14 (0x820 + 2 * k.toNat)) m s

/-- R46 -/
def execSegkhWrite (k : BitVec 3) (m : Lone) (s : State) : Host.Outcome State Fault Refusal :=
  runLone (BitVec.ofNat 14 (0x821 + 2 * k.toNat)) m s

/-- R224 -/
def execFmodeWrite (m : Lone) (s : State) : Host.Outcome State Fault Refusal :=
  runLone 0x811 m s

/-- R45 -/
def execSpecialRegisterWrite (n : BitVec 6) (m : Lone) (s : State) : Host.Outcome State Fault Refusal :=
  runLone (BitVec.ofNat 14 (0x800 + n.toNat)) m s

/-- R85 alu.add -/
def execAluAdd (m : Lone) (s : State) : Host.Outcome State Fault Refusal := runLone 0x100 m s

/-- R85 alu.sub -/
def execAluSub (m : Lone) (s : State) : Host.Outcome State Fault Refusal := runLone 0x101 m s

/-- R85 alu.rsub -/
def execAluRsub (m : Lone) (s : State) : Host.Outcome State Fault Refusal := runLone 0x102 m s

/-- R85 alu.and -/
def execAluAnd (m : Lone) (s : State) : Host.Outcome State Fault Refusal := runLone 0x103 m s

/-- R85 alu.or -/
def execAluOr (m : Lone) (s : State) : Host.Outcome State Fault Refusal := runLone 0x104 m s

/-- R85 alu.xor -/
def execAluXor (m : Lone) (s : State) : Host.Outcome State Fault Refusal := runLone 0x105 m s

/-- R85 alu.andn -/
def execAluAndn (m : Lone) (s : State) : Host.Outcome State Fault Refusal := runLone 0x106 m s

/-- R85 alu.min -/
def execAluMin (m : Lone) (s : State) : Host.Outcome State Fault Refusal := runLone 0x107 m s

/-- R85 alu.max -/
def execAluMax (m : Lone) (s : State) : Host.Outcome State Fault Refusal := runLone 0x108 m s

/-- R85 alu.minz -/
def execAluMinz (m : Lone) (s : State) : Host.Outcome State Fault Refusal := runLone 0x109 m s

/-- R85 alu.maxz -/
def execAluMaxz (m : Lone) (s : State) : Host.Outcome State Fault Refusal := runLone 0x10A m s

/-- R85 alu.addw -/
def execAluAddw (m : Lone) (s : State) : Host.Outcome State Fault Refusal := runLone 0x10B m s

/-- R85 alu.subw -/
def execAluSubw (m : Lone) (s : State) : Host.Outcome State Fault Refusal := runLone 0x10C m s

/-- R85 alu.adds -/
def execAluAdds (m : Lone) (s : State) : Host.Outcome State Fault Refusal := runLone 0x10D m s

/-- R85 alu.addz -/
def execAluAddz (m : Lone) (s : State) : Host.Outcome State Fault Refusal := runLone 0x10E m s

/-- R87 sh.sll -/
def execShSll (m : Lone) (s : State) : Host.Outcome State Fault Refusal := runLone 0x140 m s

/-- R87 sh.srl -/
def execShSrl (m : Lone) (s : State) : Host.Outcome State Fault Refusal := runLone 0x141 m s

/-- R87 sh.sra -/
def execShSra (m : Lone) (s : State) : Host.Outcome State Fault Refusal := runLone 0x142 m s

/-- R87 sh.rotl -/
def execShRotl (m : Lone) (s : State) : Host.Outcome State Fault Refusal := runLone 0x143 m s

/-- R87 sh.rotr -/
def execShRotr (m : Lone) (s : State) : Host.Outcome State Fault Refusal := runLone 0x144 m s

/-- R87 sh.ext -/
def execShExt (m : Lone) (s : State) : Host.Outcome State Fault Refusal := runLone 0x145 m s

/-- R87 sh.extz -/
def execShExtz (m : Lone) (s : State) : Host.Outcome State Fault Refusal := runLone 0x146 m s

/-- R87 sh.ins -/
def execShIns (m : Lone) (s : State) : Host.Outcome State Fault Refusal := runLone 0x147 m s

/-- R87 sh.clz -/
def execShClz (m : Lone) (s : State) : Host.Outcome State Fault Refusal := runLone 0x148 m s

/-- R87 sh.ctz -/
def execShCtz (m : Lone) (s : State) : Host.Outcome State Fault Refusal := runLone 0x149 m s

/-- R87 sh.popc -/
def execShPopc (m : Lone) (s : State) : Host.Outcome State Fault Refusal := runLone 0x14A m s

/-- R87 sh.brev -/
def execShBrev (m : Lone) (s : State) : Host.Outcome State Fault Refusal := runLone 0x14B m s

/-- R87 sh.bswap -/
def execShBswap (m : Lone) (s : State) : Host.Outcome State Fault Refusal := runLone 0x14C m s

/-- R87 sh.sllw -/
def execShSllw (m : Lone) (s : State) : Host.Outcome State Fault Refusal := runLone 0x14D m s

/-- R87 sh.srlw -/
def execShSrlw (m : Lone) (s : State) : Host.Outcome State Fault Refusal := runLone 0x14E m s

/-- R87 sh.sraw -/
def execShSraw (m : Lone) (s : State) : Host.Outcome State Fault Refusal := runLone 0x14F m s

/-- R88 mul.lo -/
def execMulLo (m : Lone) (s : State) : Host.Outcome State Fault Refusal := runLone 0x180 m s

/-- R88 mul.hi -/
def execMulHi (m : Lone) (s : State) : Host.Outcome State Fault Refusal := runLone 0x181 m s

/-- R88 mul.hiz -/
def execMulHiz (m : Lone) (s : State) : Host.Outcome State Fault Refusal := runLone 0x182 m s

/-- R88 mul.hisz -/
def execMulHisz (m : Lone) (s : State) : Host.Outcome State Fault Refusal := runLone 0x183 m s

/-- R88 mul.w -/
def execMulW (m : Lone) (s : State) : Host.Outcome State Fault Refusal := runLone 0x184 m s

/-- R89 div.div -/
def execDivDiv (m : Lone) (s : State) : Host.Outcome State Fault Refusal := runLone 0x1C0 m s

/-- R89 div.divz -/
def execDivDivz (m : Lone) (s : State) : Host.Outcome State Fault Refusal := runLone 0x1C1 m s

/-- R89 div.rem -/
def execDivRem (m : Lone) (s : State) : Host.Outcome State Fault Refusal := runLone 0x1C2 m s

/-- R89 div.remz -/
def execDivRemz (m : Lone) (s : State) : Host.Outcome State Fault Refusal := runLone 0x1C3 m s

/-- R89 div.divw -/
def execDivDivw (m : Lone) (s : State) : Host.Outcome State Fault Refusal := runLone 0x1C4 m s

/-- R89 div.remw -/
def execDivRemw (m : Lone) (s : State) : Host.Outcome State Fault Refusal := runLone 0x1C5 m s

/-- R91 cmp.eq -/
def execCmpEq (m : Lone) (s : State) : Host.Outcome State Fault Refusal := runLone 0x200 m s

/-- R91 cmp.ne -/
def execCmpNe (m : Lone) (s : State) : Host.Outcome State Fault Refusal := runLone 0x201 m s

/-- R91 cmp.lt -/
def execCmpLt (m : Lone) (s : State) : Host.Outcome State Fault Refusal := runLone 0x202 m s

/-- R91 cmp.ltz -/
def execCmpLtz (m : Lone) (s : State) : Host.Outcome State Fault Refusal := runLone 0x203 m s

/-- R91 cmp.le -/
def execCmpLe (m : Lone) (s : State) : Host.Outcome State Fault Refusal := runLone 0x204 m s

/-- R91 cmp.lez -/
def execCmpLez (m : Lone) (s : State) : Host.Outcome State Fault Refusal := runLone 0x205 m s

/-- R91 cmp.bset -/
def execCmpBset (m : Lone) (s : State) : Host.Outcome State Fault Refusal := runLone 0x206 m s

/-- R91 cmp.bclr -/
def execCmpBclr (m : Lone) (s : State) : Host.Outcome State Fault Refusal := runLone 0x207 m s

/-- R93 adr.mk -/
def execAdrMk (m : Lone) (s : State) : Host.Outcome State Fault Refusal := runLone 0x240 m s

/-- R93 adr.seg -/
def execAdrSeg (m : Lone) (s : State) : Host.Outcome State Fault Refusal := runLone 0x241 m s

/-- R93 adr.off -/
def execAdrOff (m : Lone) (s : State) : Host.Outcome State Fault Refusal := runLone 0x242 m s

/-- R94 adr.inseg -/
def execAdrInseg (m : Lone) (s : State) : Host.Outcome State Fault Refusal := runLone 0x243 m s

/-- R96 adr.tocw -/
def execAdrTocw (m : Lone) (s : State) : Host.Outcome State Fault Refusal := runLone 0x244 m s

/-- R96 adr.topan -/
def execAdrTopan (m : Lone) (s : State) : Host.Outcome State Fault Refusal := runLone 0x245 m s

/-- R95 adr.space -/
def execAdrSpace (m : Lone) (s : State) : Host.Outcome State Fault Refusal := runLone 0x246 m s

/-- R99 br.jmp -/
def execBrJmp (m : Lone) (s : State) : Host.Outcome State Fault Refusal := runLone 0x280 m s

/-- R99 br.jmprel -/
def execBrJmprel (m : Lone) (s : State) : Host.Outcome State Fault Refusal := runLone 0x281 m s

/-- R99 br.call -/
def execBrCall (m : Lone) (s : State) : Host.Outcome State Fault Refusal := runLone 0x282 m s

/-- R99 br.callrel -/
def execBrCallrel (m : Lone) (s : State) : Host.Outcome State Fault Refusal := runLone 0x283 m s

/-- R99 br.loop -/
def execBrLoop (m : Lone) (s : State) : Host.Outcome State Fault Refusal := runLone 0x284 m s

/-- R178 lsu.ld8 -/
def execLsuLd8 (m : Lone) (s : State) : Host.Outcome State Fault Refusal := runLone 0x2C0 m s

/-- R178 lsu.ld8z -/
def execLsuLd8z (m : Lone) (s : State) : Host.Outcome State Fault Refusal := runLone 0x2C1 m s

/-- R178 lsu.ld16 -/
def execLsuLd16 (m : Lone) (s : State) : Host.Outcome State Fault Refusal := runLone 0x2C2 m s

/-- R178 lsu.ld16z -/
def execLsuLd16z (m : Lone) (s : State) : Host.Outcome State Fault Refusal := runLone 0x2C3 m s

/-- R178 lsu.ld32 -/
def execLsuLd32 (m : Lone) (s : State) : Host.Outcome State Fault Refusal := runLone 0x2C4 m s

/-- R178 lsu.ld32z -/
def execLsuLd32z (m : Lone) (s : State) : Host.Outcome State Fault Refusal := runLone 0x2C5 m s

/-- R178 lsu.ld64 -/
def execLsuLd64 (m : Lone) (s : State) : Host.Outcome State Fault Refusal := runLone 0x2C6 m s

/-- R178 lsu.ld128 -/
def execLsuLd128 (m : Lone) (s : State) : Host.Outcome State Fault Refusal := runLone 0x2C7 m s

/-- R178 lsu.st8 -/
def execLsuSt8 (m : Lone) (s : State) : Host.Outcome State Fault Refusal := runLone 0x2C8 m s

/-- R178 lsu.st16 -/
def execLsuSt16 (m : Lone) (s : State) : Host.Outcome State Fault Refusal := runLone 0x2C9 m s

/-- R178 lsu.st32 -/
def execLsuSt32 (m : Lone) (s : State) : Host.Outcome State Fault Refusal := runLone 0x2CA m s

/-- R178 lsu.st64 -/
def execLsuSt64 (m : Lone) (s : State) : Host.Outcome State Fault Refusal := runLone 0x2CB m s

/-- R178 lsu.st128 -/
def execLsuSt128 (m : Lone) (s : State) : Host.Outcome State Fault Refusal := runLone 0x2CC m s

/-- R181 amo.add -/
def execAmoAdd (m : Lone) (s : State) : Host.Outcome State Fault Refusal := runLone 0x300 m s

/-- R181 amo.and -/
def execAmoAnd (m : Lone) (s : State) : Host.Outcome State Fault Refusal := runLone 0x301 m s

/-- R181 amo.or -/
def execAmoOr (m : Lone) (s : State) : Host.Outcome State Fault Refusal := runLone 0x302 m s

/-- R181 amo.xor -/
def execAmoXor (m : Lone) (s : State) : Host.Outcome State Fault Refusal := runLone 0x303 m s

/-- R181 amo.min -/
def execAmoMin (m : Lone) (s : State) : Host.Outcome State Fault Refusal := runLone 0x304 m s

/-- R181 amo.max -/
def execAmoMax (m : Lone) (s : State) : Host.Outcome State Fault Refusal := runLone 0x305 m s

/-- R181 amo.minz -/
def execAmoMinz (m : Lone) (s : State) : Host.Outcome State Fault Refusal := runLone 0x306 m s

/-- R181 amo.maxz -/
def execAmoMaxz (m : Lone) (s : State) : Host.Outcome State Fault Refusal := runLone 0x307 m s

/-- R181 amo.swap -/
def execAmoSwap (m : Lone) (s : State) : Host.Outcome State Fault Refusal := runLone 0x308 m s

/-- R181 amo.cas -/
def execAmoCas (m : Lone) (s : State) : Host.Outcome State Fault Refusal := runLone 0x309 m s

/-- R181 amo.fadd -/
def execAmoFadd (m : Lone) (s : State) : Host.Outcome State Fault Refusal := runLone 0x30A m s

/-- R235 flt.add -/
def execFltAdd (m : Lone) (s : State) : Host.Outcome State Fault Refusal := runLone 0x340 m s

/-- R235 flt.sub -/
def execFltSub (m : Lone) (s : State) : Host.Outcome State Fault Refusal := runLone 0x341 m s

/-- R235 flt.mul -/
def execFltMul (m : Lone) (s : State) : Host.Outcome State Fault Refusal := runLone 0x342 m s

/-- R235 flt.div -/
def execFltDiv (m : Lone) (s : State) : Host.Outcome State Fault Refusal := runLone 0x343 m s

/-- R235 flt.sqrt -/
def execFltSqrt (m : Lone) (s : State) : Host.Outcome State Fault Refusal := runLone 0x344 m s

/-- R235 flt.fma -/
def execFltFma (m : Lone) (s : State) : Host.Outcome State Fault Refusal := runLone 0x345 m s

/-- R235 flt.min -/
def execFltMin (m : Lone) (s : State) : Host.Outcome State Fault Refusal := runLone 0x346 m s

/-- R235 flt.max -/
def execFltMax (m : Lone) (s : State) : Host.Outcome State Fault Refusal := runLone 0x347 m s

/-- R235 flt.eq -/
def execFltEq (m : Lone) (s : State) : Host.Outcome State Fault Refusal := runLone 0x348 m s

/-- R235 flt.lt -/
def execFltLt (m : Lone) (s : State) : Host.Outcome State Fault Refusal := runLone 0x349 m s

/-- R235 flt.le -/
def execFltLe (m : Lone) (s : State) : Host.Outcome State Fault Refusal := runLone 0x34A m s

/-- R235 flt.class -/
def execFltClass (m : Lone) (s : State) : Host.Outcome State Fault Refusal := runLone 0x34B m s

/-- R237 flt.cvt -/
def execFltCvt (m : Lone) (s : State) : Host.Outcome State Fault Refusal := runLone 0x34C m s

/-- R238 flt.tdec -/
def execFltTdec (m : Lone) (s : State) : Host.Outcome State Fault Refusal := runLone 0x34D m s

/-- R238 flt.tenc -/
def execFltTenc (m : Lone) (s : State) : Host.Outcome State Fault Refusal := runLone 0x34E m s

/-- R127 strand.spawn -/
def execStrandSpawn (m : Lone) (s : State) : Host.Outcome State Fault Refusal := runLone 0x380 m s

/-- R130 strand.join -/
def execStrandJoin (m : Lone) (s : State) : Host.Outcome State Fault Refusal := runLone 0x381 m s

/-- R129 strand.exit -/
def execStrandExit (m : Lone) (s : State) : Host.Outcome State Fault Refusal := runLone 0x382 m s

/-- R131 strand.yield -/
def execStrandYield (m : Lone) (s : State) : Host.Outcome State Fault Refusal := runLone 0x383 m s

/-- R132 strand.sleep -/
def execStrandSleep (m : Lone) (s : State) : Host.Outcome State Fault Refusal := runLone 0x384 m s

/-- R133 strand.wake -/
def execStrandWake (m : Lone) (s : State) : Host.Outcome State Fault Refusal := runLone 0x385 m s

/-- R134 strand.prio -/
def execStrandPrio (m : Lone) (s : State) : Host.Outcome State Fault Refusal := runLone 0x386 m s

/-- R135 strand.kill -/
def execStrandKill (m : Lone) (s : State) : Host.Outcome State Fault Refusal := runLone 0x387 m s

/-- R139 msg.wait -/
def execMsgWait (m : Lone) (s : State) : Host.Outcome State Fault Refusal := runLone 0x3C0 m s

/-- R139 msg.take -/
def execMsgTake (m : Lone) (s : State) : Host.Outcome State Fault Refusal := runLone 0x3C1 m s

/-- R143 pool.put -/
def execPoolPut (m : Lone) (s : State) : Host.Outcome State Fault Refusal := runLone 0x3C2 m s

/-- R143 pool.take -/
def execPoolTake (m : Lone) (s : State) : Host.Outcome State Fault Refusal := runLone 0x3C3 m s

/-- R143 pool.close -/
def execPoolClose (m : Lone) (s : State) : Host.Outcome State Fault Refusal := runLone 0x3C4 m s

/-- R146 q.arm -/
def execQArm (m : Lone) (s : State) : Host.Outcome State Fault Refusal := runLone 0x3C5 m s

/-- R147 q.wait -/
def execQWait (m : Lone) (s : State) : Host.Outcome State Fault Refusal := runLone 0x3C6 m s

/-- R199 sem.post -/
def execSemPost (m : Lone) (s : State) : Host.Outcome State Fault Refusal := runLone 0x400 m s

/-- R198 sem.add -/
def execSemAdd (m : Lone) (s : State) : Host.Outcome State Fault Refusal := runLone 0x401 m s

/-- R200 sem.wait -/
def execSemWait (m : Lone) (s : State) : Host.Outcome State Fault Refusal := runLone 0x402 m s

/-- R200 sem.try -/
def execSemTry (m : Lone) (s : State) : Host.Outcome State Fault Refusal := runLone 0x403 m s

/-- R201 sem.arm -/
def execSemArm (m : Lone) (s : State) : Host.Outcome State Fault Refusal := runLone 0x404 m s

/-- R198 sem.read -/
def execSemRead (m : Lone) (s : State) : Host.Outcome State Fault Refusal := runLone 0x405 m s

/-- R201 sem.reset -/
def execSemReset (m : Lone) (s : State) : Host.Outcome State Fault Refusal := runLone 0x406 m s

/-- R205 bar.arrive -/
def execBarArrive (m : Lone) (s : State) : Host.Outcome State Fault Refusal := runLone 0x440 m s

/-- R206 bar.wait -/
def execBarWait (m : Lone) (s : State) : Host.Outcome State Fault Refusal := runLone 0x441 m s

/-- R206 bar.sync -/
def execBarSync (m : Lone) (s : State) : Host.Outcome State Fault Refusal := runLone 0x442 m s

/-- R206 bar.max -/
def execBarMax (m : Lone) (s : State) : Host.Outcome State Fault Refusal := runLone 0x443 m s

/-- R207 bar.maxf -/
def execBarMaxf (m : Lone) (s : State) : Host.Outcome State Fault Refusal := runLone 0x444 m s

/-- R206 bar.sum -/
def execBarSum (m : Lone) (s : State) : Host.Outcome State Fault Refusal := runLone 0x445 m s

/-- R206 bar.and -/
def execBarAnd (m : Lone) (s : State) : Host.Outcome State Fault Refusal := runLone 0x446 m s

/-- R206 bar.or -/
def execBarOr (m : Lone) (s : State) : Host.Outcome State Fault Refusal := runLone 0x447 m s

/-- R193 ord.fence -/
def execOrdFence (m : Lone) (s : State) : Host.Outcome State Fault Refusal := runLone 0x480 m s

/-- R194 ord.acq -/
def execOrdAcq (m : Lone) (s : State) : Host.Outcome State Fault Refusal := runLone 0x481 m s

/-- R194 ord.rel -/
def execOrdRel (m : Lone) (s : State) : Host.Outcome State Fault Refusal := runLone 0x482 m s

/-- R110 ord.icsync -/
def execOrdIcsync (m : Lone) (s : State) : Host.Outcome State Fault Refusal := runLone 0x483 m s

/-- R195 ord.cinv -/
def execOrdCinv (m : Lone) (s : State) : Host.Outcome State Fault Refusal := runLone 0x484 m s

/-- R195 ord.cwb -/
def execOrdCwb (m : Lone) (s : State) : Host.Outcome State Fault Refusal := runLone 0x485 m s

/-- R359 sys.trap -/
def execSysTrap (m : Lone) (s : State) : Host.Outcome State Fault Refusal := runLone 0x4C0 m s

/-- R360 sys.stop -/
def execSysStop (m : Lone) (s : State) : Host.Outcome State Fault Refusal := runLone 0x4C1 m s

/-- R361 sys.rd -/
def execSysRd (m : Lone) (s : State) : Host.Outcome State Fault Refusal := runLone 0x4C2 m s

/-- R361 sys.wr -/
def execSysWr (m : Lone) (s : State) : Host.Outcome State Fault Refusal := runLone 0x4C3 m s

/-- R365 sys.go -/
def execSysGo (m : Lone) (s : State) : Host.Outcome State Fault Refusal := runLone 0x4C4 m s

/-- R366 sys.drain -/
def execSysDrain (m : Lone) (s : State) : Host.Outcome State Fault Refusal := runLone 0x4C5 m s

/-- R430 dbg.brk -/
def execDbgBrk (m : Lone) (s : State) : Host.Outcome State Fault Refusal := runLone 0x500 m s

/-- R431 dbg.mark -/
def execDbgMark (m : Lone) (s : State) : Host.Outcome State Fault Refusal := runLone 0x501 m s

/-- R432 dbg.step -/
def execDbgStep (m : Lone) (s : State) : Host.Outcome State Fault Refusal := runLone 0x502 m s

/-- R390 mnt.spare -/
def execMntSpare (m : Lone) (s : State) : Host.Outcome State Fault Refusal := runLone 0x503 m s

/-- R390 mnt.notice -/
def execMntNotice (m : Lone) (s : State) : Host.Outcome State Fault Refusal := runLone 0x504 m s

/-- R391 mnt.state -/
def execMntState (m : Lone) (s : State) : Host.Outcome State Fault Refusal := runLone 0x505 m s

/-- R392 mnt.discard -/
def execMntDiscard (m : Lone) (s : State) : Host.Outcome State Fault Refusal := runLone 0x506 m s

/-- R252 cpy.copy -/
def execCpyCopy (m : Lone) (s : State) : Host.Outcome State Fault Refusal := runLone 0x600 m s

/-- R253 cpy.fill -/
def execCpyFill (m : Lone) (s : State) : Host.Outcome State Fault Refusal := runLone 0x601 m s

/-- R254 cpy.gather -/
def execCpyGather (m : Lone) (s : State) : Host.Outcome State Fault Refusal := runLone 0x602 m s

/-- R254 cpy.scatter -/
def execCpyScatter (m : Lone) (s : State) : Host.Outcome State Fault Refusal := runLone 0x603 m s

/-- R252 cpy.plane -/
def execCpyPlane (m : Lone) (s : State) : Host.Outcome State Fault Refusal := runLone 0x604 m s

/-- R255 cpy.mcast -/
def execCpyMcast (m : Lone) (s : State) : Host.Outcome State Fault Refusal := runLone 0x605 m s

/-- R256 cpy.mapinval -/
def execCpyMapinval (m : Lone) (s : State) : Host.Outcome State Fault Refusal := runLone 0x606 m s

/-- R277 mx.mma -/
def execMxMma (m : Lone) (s : State) : Host.Outcome State Fault Refusal := runLone 0x640 m s

/-- R278 mx.gmma -/
def execMxGmma (m : Lone) (s : State) : Host.Outcome State Fault Refusal := runLone 0x641 m s

/-- R280 mx.zero -/
def execMxZero (m : Lone) (s : State) : Host.Outcome State Fault Refusal := runLone 0x642 m s

/-- R280 mx.load -/
def execMxLoad (m : Lone) (s : State) : Host.Outcome State Fault Refusal := runLone 0x643 m s

/-- R280 mx.store -/
def execMxStore (m : Lone) (s : State) : Host.Outcome State Fault Refusal := runLone 0x644 m s

/-- R298 vx.add -/
def execVxAdd (m : Lone) (s : State) : Host.Outcome State Fault Refusal := runLone 0x680 m s

/-- R298 vx.sub -/
def execVxSub (m : Lone) (s : State) : Host.Outcome State Fault Refusal := runLone 0x681 m s

/-- R298 vx.mul -/
def execVxMul (m : Lone) (s : State) : Host.Outcome State Fault Refusal := runLone 0x682 m s

/-- R298 vx.fma -/
def execVxFma (m : Lone) (s : State) : Host.Outcome State Fault Refusal := runLone 0x683 m s

/-- R298 vx.min -/
def execVxMin (m : Lone) (s : State) : Host.Outcome State Fault Refusal := runLone 0x684 m s

/-- R298 vx.max -/
def execVxMax (m : Lone) (s : State) : Host.Outcome State Fault Refusal := runLone 0x685 m s

/-- R298 vx.abs -/
def execVxAbs (m : Lone) (s : State) : Host.Outcome State Fault Refusal := runLone 0x686 m s

/-- R298 vx.scale -/
def execVxScale (m : Lone) (s : State) : Host.Outcome State Fault Refusal := runLone 0x687 m s

/-- R299 vx.exp2 -/
def execVxExp2 (m : Lone) (s : State) : Host.Outcome State Fault Refusal := runLone 0x688 m s

/-- R299 vx.log2 -/
def execVxLog2 (m : Lone) (s : State) : Host.Outcome State Fault Refusal := runLone 0x689 m s

/-- R299 vx.rcp -/
def execVxRcp (m : Lone) (s : State) : Host.Outcome State Fault Refusal := runLone 0x68A m s

/-- R299 vx.rsqrt -/
def execVxRsqrt (m : Lone) (s : State) : Host.Outcome State Fault Refusal := runLone 0x68B m s

/-- R300 vx.cmp -/
def execVxCmp (m : Lone) (s : State) : Host.Outcome State Fault Refusal := runLone 0x68C m s

/-- R300 vx.sel -/
def execVxSel (m : Lone) (s : State) : Host.Outcome State Fault Refusal := runLone 0x68D m s

/-- R301 vx.rowsum -/
def execVxRowsum (m : Lone) (s : State) : Host.Outcome State Fault Refusal := runLone 0x68E m s

/-- R301 vx.rowmax -/
def execVxRowmax (m : Lone) (s : State) : Host.Outcome State Fault Refusal := runLone 0x68F m s

/-- R301 vx.colsum -/
def execVxColsum (m : Lone) (s : State) : Host.Outcome State Fault Refusal := runLone 0x690 m s

/-- R302 vx.blkmax -/
def execVxBlkmax (m : Lone) (s : State) : Host.Outcome State Fault Refusal := runLone 0x691 m s

/-- R303 vx.quant -/
def execVxQuant (m : Lone) (s : State) : Host.Outcome State Fault Refusal := runLone 0x692 m s

/-- R303 vx.dequant -/
def execVxDequant (m : Lone) (s : State) : Host.Outcome State Fault Refusal := runLone 0x693 m s

/-- R303 vx.cvt -/
def execVxCvt (m : Lone) (s : State) : Host.Outcome State Fault Refusal := runLone 0x694 m s

/-- R303 vx.tblset -/
def execVxTblset (m : Lone) (s : State) : Host.Outcome State Fault Refusal := runLone 0x695 m s

/-- R303 vx.tblenc -/
def execVxTblenc (m : Lone) (s : State) : Host.Outcome State Fault Refusal := runLone 0x696 m s

/-- R303 vx.tbldec -/
def execVxTbldec (m : Lone) (s : State) : Host.Outcome State Fault Refusal := runLone 0x697 m s

/-- R322 fab.ld -/
def execFabLd (m : Lone) (s : State) : Host.Outcome State Fault Refusal := runLone 0x6C0 m s

/-- R322 fab.st -/
def execFabSt (m : Lone) (s : State) : Host.Outcome State Fault Refusal := runLone 0x6C1 m s

/-- R322 fab.amo -/
def execFabAmo (m : Lone) (s : State) : Host.Outcome State Fault Refusal := runLone 0x6C2 m s

/-- R326 fab.send -/
def execFabSend (m : Lone) (s : State) : Host.Outcome State Fault Refusal := runLone 0x6C3 m s

/-- R326 fab.spawn -/
def execFabSpawn (m : Lone) (s : State) : Host.Outcome State Fault Refusal := runLone 0x6C4 m s

/-- R335 pan.attach -/
def execPanAttach (m : Lone) (s : State) : Host.Outcome State Fault Refusal := runLone 0x6C5 m s

/-- R335 pan.detach -/
def execPanDetach (m : Lone) (s : State) : Host.Outcome State Fault Refusal := runLone 0x6C6 m s

/-- R335 pan.exit -/
def execPanExit (m : Lone) (s : State) : Host.Outcome State Fault Refusal := runLone 0x6C7 m s

/-- R336 pan.state -/
def execPanState (m : Lone) (s : State) : Host.Outcome State Fault Refusal := runLone 0x6C8 m s

/-- R341 col.rscat -/
def execColRscat (m : Lone) (s : State) : Host.Outcome State Fault Refusal := runLone 0x700 m s

/-- R341 col.agath -/
def execColAgath (m : Lone) (s : State) : Host.Outcome State Fault Refusal := runLone 0x701 m s

/-- R341 col.aredc -/
def execColAredc (m : Lone) (s : State) : Host.Outcome State Fault Refusal := runLone 0x702 m s

/-- R341 col.bcast -/
def execColBcast (m : Lone) (s : State) : Host.Outcome State Fault Refusal := runLone 0x703 m s

/-- R345 col.weights -/
def execColWeights (m : Lone) (s : State) : Host.Outcome State Fault Refusal := runLone 0x704 m s

end Sys2Proof.Machine
end

