-- ==== Sys2Proof/Machine/Dispatch.lean ====
section
/-! DEFINITION. The meaning of every instruction, one arm per constructor. -/

namespace Sys2Proof.Machine

/-- The meaning of an instruction. -/
def exec (i : Instr) (s : State) : Host.Outcome State Fault Refusal :=
  match i with
  | .movePair a b => Sys2Proof.Machine.execMovePair a b s
  | .moveLong guard dst imm => Sys2Proof.Machine.execMoveLong guard dst imm s
  | .moveLiteralPair guard dst literal => Sys2Proof.Machine.execMoveLiteralPair guard dst literal s
  | .segklWrite k m => Sys2Proof.Machine.execSegklWrite k m s
  | .segkhWrite k m => Sys2Proof.Machine.execSegkhWrite k m s
  | .fmodeWrite m => Sys2Proof.Machine.execFmodeWrite m s
  | .specialRegisterWrite n m => Sys2Proof.Machine.execSpecialRegisterWrite n m s
  | .shutterSelect => Sys2Proof.Machine.execShutterSelect s
  | .fetchArrival => Sys2Proof.Machine.execFetchArrival s
  | .clusterIcacheReply => Sys2Proof.Machine.execClusterIcacheReply s
  | .divResult => Sys2Proof.Machine.execDivResult s
  | .fltLongResult => Sys2Proof.Machine.execFltLongResult s
  | .aluAdd m => Sys2Proof.Machine.execAluAdd m s
  | .aluSub m => Sys2Proof.Machine.execAluSub m s
  | .aluRsub m => Sys2Proof.Machine.execAluRsub m s
  | .aluAnd m => Sys2Proof.Machine.execAluAnd m s
  | .aluOr m => Sys2Proof.Machine.execAluOr m s
  | .aluXor m => Sys2Proof.Machine.execAluXor m s
  | .aluAndn m => Sys2Proof.Machine.execAluAndn m s
  | .aluMin m => Sys2Proof.Machine.execAluMin m s
  | .aluMax m => Sys2Proof.Machine.execAluMax m s
  | .aluMinz m => Sys2Proof.Machine.execAluMinz m s
  | .aluMaxz m => Sys2Proof.Machine.execAluMaxz m s
  | .aluAddw m => Sys2Proof.Machine.execAluAddw m s
  | .aluSubw m => Sys2Proof.Machine.execAluSubw m s
  | .aluAdds m => Sys2Proof.Machine.execAluAdds m s
  | .aluAddz m => Sys2Proof.Machine.execAluAddz m s
  | .shSll m => Sys2Proof.Machine.execShSll m s
  | .shSrl m => Sys2Proof.Machine.execShSrl m s
  | .shSra m => Sys2Proof.Machine.execShSra m s
  | .shRotl m => Sys2Proof.Machine.execShRotl m s
  | .shRotr m => Sys2Proof.Machine.execShRotr m s
  | .shExt m => Sys2Proof.Machine.execShExt m s
  | .shExtz m => Sys2Proof.Machine.execShExtz m s
  | .shIns m => Sys2Proof.Machine.execShIns m s
  | .shClz m => Sys2Proof.Machine.execShClz m s
  | .shCtz m => Sys2Proof.Machine.execShCtz m s
  | .shPopc m => Sys2Proof.Machine.execShPopc m s
  | .shBrev m => Sys2Proof.Machine.execShBrev m s
  | .shBswap m => Sys2Proof.Machine.execShBswap m s
  | .shSllw m => Sys2Proof.Machine.execShSllw m s
  | .shSrlw m => Sys2Proof.Machine.execShSrlw m s
  | .shSraw m => Sys2Proof.Machine.execShSraw m s
  | .mulLo m => Sys2Proof.Machine.execMulLo m s
  | .mulHi m => Sys2Proof.Machine.execMulHi m s
  | .mulHiz m => Sys2Proof.Machine.execMulHiz m s
  | .mulHisz m => Sys2Proof.Machine.execMulHisz m s
  | .mulW m => Sys2Proof.Machine.execMulW m s
  | .divDiv m => Sys2Proof.Machine.execDivDiv m s
  | .divDivz m => Sys2Proof.Machine.execDivDivz m s
  | .divRem m => Sys2Proof.Machine.execDivRem m s
  | .divRemz m => Sys2Proof.Machine.execDivRemz m s
  | .divDivw m => Sys2Proof.Machine.execDivDivw m s
  | .divRemw m => Sys2Proof.Machine.execDivRemw m s
  | .cmpEq m => Sys2Proof.Machine.execCmpEq m s
  | .cmpNe m => Sys2Proof.Machine.execCmpNe m s
  | .cmpLt m => Sys2Proof.Machine.execCmpLt m s
  | .cmpLtz m => Sys2Proof.Machine.execCmpLtz m s
  | .cmpLe m => Sys2Proof.Machine.execCmpLe m s
  | .cmpLez m => Sys2Proof.Machine.execCmpLez m s
  | .cmpBset m => Sys2Proof.Machine.execCmpBset m s
  | .cmpBclr m => Sys2Proof.Machine.execCmpBclr m s
  | .adrMk m => Sys2Proof.Machine.execAdrMk m s
  | .adrSeg m => Sys2Proof.Machine.execAdrSeg m s
  | .adrOff m => Sys2Proof.Machine.execAdrOff m s
  | .adrInseg m => Sys2Proof.Machine.execAdrInseg m s
  | .adrTocw m => Sys2Proof.Machine.execAdrTocw m s
  | .adrTopan m => Sys2Proof.Machine.execAdrTopan m s
  | .adrSpace m => Sys2Proof.Machine.execAdrSpace m s
  | .brJmp m => Sys2Proof.Machine.execBrJmp m s
  | .brJmprel m => Sys2Proof.Machine.execBrJmprel m s
  | .brCall m => Sys2Proof.Machine.execBrCall m s
  | .brCallrel m => Sys2Proof.Machine.execBrCallrel m s
  | .brLoop m => Sys2Proof.Machine.execBrLoop m s
  | .lsuLd8 m => Sys2Proof.Machine.execLsuLd8 m s
  | .lsuLd8z m => Sys2Proof.Machine.execLsuLd8z m s
  | .lsuLd16 m => Sys2Proof.Machine.execLsuLd16 m s
  | .lsuLd16z m => Sys2Proof.Machine.execLsuLd16z m s
  | .lsuLd32 m => Sys2Proof.Machine.execLsuLd32 m s
  | .lsuLd32z m => Sys2Proof.Machine.execLsuLd32z m s
  | .lsuLd64 m => Sys2Proof.Machine.execLsuLd64 m s
  | .lsuLd128 m => Sys2Proof.Machine.execLsuLd128 m s
  | .lsuSt8 m => Sys2Proof.Machine.execLsuSt8 m s
  | .lsuSt16 m => Sys2Proof.Machine.execLsuSt16 m s
  | .lsuSt32 m => Sys2Proof.Machine.execLsuSt32 m s
  | .lsuSt64 m => Sys2Proof.Machine.execLsuSt64 m s
  | .lsuSt128 m => Sys2Proof.Machine.execLsuSt128 m s
  | .amoAdd m => Sys2Proof.Machine.execAmoAdd m s
  | .amoAnd m => Sys2Proof.Machine.execAmoAnd m s
  | .amoOr m => Sys2Proof.Machine.execAmoOr m s
  | .amoXor m => Sys2Proof.Machine.execAmoXor m s
  | .amoMin m => Sys2Proof.Machine.execAmoMin m s
  | .amoMax m => Sys2Proof.Machine.execAmoMax m s
  | .amoMinz m => Sys2Proof.Machine.execAmoMinz m s
  | .amoMaxz m => Sys2Proof.Machine.execAmoMaxz m s
  | .amoSwap m => Sys2Proof.Machine.execAmoSwap m s
  | .amoCas m => Sys2Proof.Machine.execAmoCas m s
  | .amoFadd m => Sys2Proof.Machine.execAmoFadd m s
  | .remoteAccessReply => Sys2Proof.Machine.execRemoteAccessReply s
  | .feRetryResend => Sys2Proof.Machine.execFeRetryResend s
  | .ticketHoldExpiry => Sys2Proof.Machine.execTicketHoldExpiry s
  | .feWithdraw => Sys2Proof.Machine.execFeWithdraw s
  | .pageWake => Sys2Proof.Machine.execPageWake s
  | .logMerge => Sys2Proof.Machine.execLogMerge s
  | .fltAdd m => Sys2Proof.Machine.execFltAdd m s
  | .fltSub m => Sys2Proof.Machine.execFltSub m s
  | .fltMul m => Sys2Proof.Machine.execFltMul m s
  | .fltDiv m => Sys2Proof.Machine.execFltDiv m s
  | .fltSqrt m => Sys2Proof.Machine.execFltSqrt m s
  | .fltFma m => Sys2Proof.Machine.execFltFma m s
  | .fltMin m => Sys2Proof.Machine.execFltMin m s
  | .fltMax m => Sys2Proof.Machine.execFltMax m s
  | .fltEq m => Sys2Proof.Machine.execFltEq m s
  | .fltLt m => Sys2Proof.Machine.execFltLt m s
  | .fltLe m => Sys2Proof.Machine.execFltLe m s
  | .fltClass m => Sys2Proof.Machine.execFltClass m s
  | .fltCvt m => Sys2Proof.Machine.execFltCvt m s
  | .fltTdec m => Sys2Proof.Machine.execFltTdec m s
  | .fltTenc m => Sys2Proof.Machine.execFltTenc m s
  | .strandSpawn m => Sys2Proof.Machine.execStrandSpawn m s
  | .strandJoin m => Sys2Proof.Machine.execStrandJoin m s
  | .strandExit m => Sys2Proof.Machine.execStrandExit m s
  | .strandYield m => Sys2Proof.Machine.execStrandYield m s
  | .strandSleep m => Sys2Proof.Machine.execStrandSleep m s
  | .sleepTimeout => Sys2Proof.Machine.execSleepTimeout s
  | .strandWake m => Sys2Proof.Machine.execStrandWake m s
  | .strandPrio m => Sys2Proof.Machine.execStrandPrio m s
  | .strandKill m => Sys2Proof.Machine.execStrandKill m s
  | .msgWait m => Sys2Proof.Machine.execMsgWait m s
  | .msgTake m => Sys2Proof.Machine.execMsgTake m s
  | .poolPut m => Sys2Proof.Machine.execPoolPut m s
  | .poolTake m => Sys2Proof.Machine.execPoolTake m s
  | .poolClose m => Sys2Proof.Machine.execPoolClose m s
  | .poolReply => Sys2Proof.Machine.execPoolReply s
  | .qArm m => Sys2Proof.Machine.execQArm m s
  | .detectorReply => Sys2Proof.Machine.execDetectorReply s
  | .qWait m => Sys2Proof.Machine.execQWait m s
  | .quiescenceSample => Sys2Proof.Machine.execQuiescenceSample s
  | .messageArrival => Sys2Proof.Machine.execMessageArrival s
  | .spawnIntakeArrival => Sys2Proof.Machine.execSpawnIntakeArrival s
  | .intakeDelivery => Sys2Proof.Machine.execIntakeDelivery s
  | .semPost m => Sys2Proof.Machine.execSemPost m s
  | .semAdd m => Sys2Proof.Machine.execSemAdd m s
  | .semWait m => Sys2Proof.Machine.execSemWait m s
  | .semTry m => Sys2Proof.Machine.execSemTry m s
  | .semArm m => Sys2Proof.Machine.execSemArm m s
  | .semRead m => Sys2Proof.Machine.execSemRead m s
  | .semReset m => Sys2Proof.Machine.execSemReset m s
  | .remotePostArrival => Sys2Proof.Machine.execRemotePostArrival s
  | .barArrive m => Sys2Proof.Machine.execBarArrive m s
  | .barWait m => Sys2Proof.Machine.execBarWait m s
  | .barSync m => Sys2Proof.Machine.execBarSync m s
  | .barMax m => Sys2Proof.Machine.execBarMax m s
  | .barMaxf m => Sys2Proof.Machine.execBarMaxf m s
  | .barSum m => Sys2Proof.Machine.execBarSum m s
  | .barAnd m => Sys2Proof.Machine.execBarAnd m s
  | .barOr m => Sys2Proof.Machine.execBarOr m s
  | .domainBarrierArrival => Sys2Proof.Machine.execDomainBarrierArrival s
  | .ordFence m => Sys2Proof.Machine.execOrdFence m s
  | .ordAcq m => Sys2Proof.Machine.execOrdAcq m s
  | .ordRel m => Sys2Proof.Machine.execOrdRel m s
  | .ordIcsync m => Sys2Proof.Machine.execOrdIcsync m s
  | .ordCinv m => Sys2Proof.Machine.execOrdCinv m s
  | .ordCwb m => Sys2Proof.Machine.execOrdCwb m s
  | .sysTrap m => Sys2Proof.Machine.execSysTrap m s
  | .sysStop m => Sys2Proof.Machine.execSysStop m s
  | .sysRd m => Sys2Proof.Machine.execSysRd m s
  | .sysWr m => Sys2Proof.Machine.execSysWr m s
  | .sysGo m => Sys2Proof.Machine.execSysGo m s
  | .sysDrain m => Sys2Proof.Machine.execSysDrain m s
  | .dbgBrk m => Sys2Proof.Machine.execDbgBrk m s
  | .dbgMark m => Sys2Proof.Machine.execDbgMark m s
  | .dbgStep m => Sys2Proof.Machine.execDbgStep m s
  | .mntSpare m => Sys2Proof.Machine.execMntSpare m s
  | .mntNotice m => Sys2Proof.Machine.execMntNotice m s
  | .mntState m => Sys2Proof.Machine.execMntState m s
  | .mntDiscard m => Sys2Proof.Machine.execMntDiscard m s
  | .mntReply => Sys2Proof.Machine.execMntReply s
  | .engineSlotGrant => Sys2Proof.Machine.execEngineSlotGrant s
  | .cpyCopy m => Sys2Proof.Machine.execCpyCopy m s
  | .cpyFill m => Sys2Proof.Machine.execCpyFill m s
  | .cpyGather m => Sys2Proof.Machine.execCpyGather m s
  | .cpyScatter m => Sys2Proof.Machine.execCpyScatter m s
  | .cpyPlane m => Sys2Proof.Machine.execCpyPlane m s
  | .cpyMcast m => Sys2Proof.Machine.execCpyMcast m s
  | .cpyMapinval m => Sys2Proof.Machine.execCpyMapinval m s
  | .cpyActivate => Sys2Proof.Machine.execCpyActivate s
  | .cpyPiece => Sys2Proof.Machine.execCpyPiece s
  | .cpyCompletion => Sys2Proof.Machine.execCpyCompletion s
  | .mxMma m => Sys2Proof.Machine.execMxMma m s
  | .mxGmma m => Sys2Proof.Machine.execMxGmma m s
  | .mxPartAccept => Sys2Proof.Machine.execMxPartAccept s
  | .mxZero m => Sys2Proof.Machine.execMxZero m s
  | .mxLoad m => Sys2Proof.Machine.execMxLoad m s
  | .mxStore m => Sys2Proof.Machine.execMxStore m s
  | .mxPassStart => Sys2Proof.Machine.execMxPassStart s
  | .mxTransferStart => Sys2Proof.Machine.execMxTransferStart s
  | .mxCompletion => Sys2Proof.Machine.execMxCompletion s
  | .vxAdd m => Sys2Proof.Machine.execVxAdd m s
  | .vxSub m => Sys2Proof.Machine.execVxSub m s
  | .vxMul m => Sys2Proof.Machine.execVxMul m s
  | .vxFma m => Sys2Proof.Machine.execVxFma m s
  | .vxMin m => Sys2Proof.Machine.execVxMin m s
  | .vxMax m => Sys2Proof.Machine.execVxMax m s
  | .vxAbs m => Sys2Proof.Machine.execVxAbs m s
  | .vxScale m => Sys2Proof.Machine.execVxScale m s
  | .vxExp2 m => Sys2Proof.Machine.execVxExp2 m s
  | .vxLog2 m => Sys2Proof.Machine.execVxLog2 m s
  | .vxRcp m => Sys2Proof.Machine.execVxRcp m s
  | .vxRsqrt m => Sys2Proof.Machine.execVxRsqrt m s
  | .vxCmp m => Sys2Proof.Machine.execVxCmp m s
  | .vxSel m => Sys2Proof.Machine.execVxSel m s
  | .vxRowsum m => Sys2Proof.Machine.execVxRowsum m s
  | .vxRowmax m => Sys2Proof.Machine.execVxRowmax m s
  | .vxColsum m => Sys2Proof.Machine.execVxColsum m s
  | .vxBlkmax m => Sys2Proof.Machine.execVxBlkmax m s
  | .vxQuant m => Sys2Proof.Machine.execVxQuant m s
  | .vxDequant m => Sys2Proof.Machine.execVxDequant m s
  | .vxCvt m => Sys2Proof.Machine.execVxCvt m s
  | .vxTblset m => Sys2Proof.Machine.execVxTblset m s
  | .vxTblenc m => Sys2Proof.Machine.execVxTblenc m s
  | .vxTbldec m => Sys2Proof.Machine.execVxTbldec m s
  | .vxCommandStart => Sys2Proof.Machine.execVxCommandStart s
  | .vxChunk => Sys2Proof.Machine.execVxChunk s
  | .vxCompletion => Sys2Proof.Machine.execVxCompletion s
  | .fabLd m => Sys2Proof.Machine.execFabLd m s
  | .fabSt m => Sys2Proof.Machine.execFabSt m s
  | .fabAmo m => Sys2Proof.Machine.execFabAmo m s
  | .remoteRequest => Sys2Proof.Machine.execRemoteRequest s
  | .fabSend m => Sys2Proof.Machine.execFabSend m s
  | .fabSpawn m => Sys2Proof.Machine.execFabSpawn m s
  | .reserveRequest => Sys2Proof.Machine.execReserveRequest s
  | .reserveResend => Sys2Proof.Machine.execReserveResend s
  | .creditReturn => Sys2Proof.Machine.execCreditReturn s
  | .creditIdleRelease => Sys2Proof.Machine.execCreditIdleRelease s
  | .messageAcknowledge => Sys2Proof.Machine.execMessageAcknowledge s
  | .refusedArrivalRetry => Sys2Proof.Machine.execRefusedArrivalRetry s
  | .panAttach m => Sys2Proof.Machine.execPanAttach m s
  | .panDetach m => Sys2Proof.Machine.execPanDetach m s
  | .panExit m => Sys2Proof.Machine.execPanExit m s
  | .panState m => Sys2Proof.Machine.execPanState m s
  | .detachRemoval => Sys2Proof.Machine.execDetachRemoval s
  | .memberDeparture => Sys2Proof.Machine.execMemberDeparture s
  | .colRscat m => Sys2Proof.Machine.execColRscat m s
  | .colAgath m => Sys2Proof.Machine.execColAgath m s
  | .colAredc m => Sys2Proof.Machine.execColAredc m s
  | .colBcast m => Sys2Proof.Machine.execColBcast m s
  | .colWeights m => Sys2Proof.Machine.execColWeights m s
  | .colMatch => Sys2Proof.Machine.execColMatch s
  | .colBucket => Sys2Proof.Machine.execColBucket s
  | .colAbort => Sys2Proof.Machine.execColAbort s
  | .colCompletion => Sys2Proof.Machine.execColCompletion s
  | .routerLinkSlot => Sys2Proof.Machine.execRouterLinkSlot s
  | .linkReplay => Sys2Proof.Machine.execLinkReplay s
  | .linkDown => Sys2Proof.Machine.execLinkDown s
  | .fabricUnreachable => Sys2Proof.Machine.execFabricUnreachable s
  | .mailboxRecordWrite => Sys2Proof.Machine.execMailboxRecordWrite s
  | .trapDisposal => Sys2Proof.Machine.execTrapDisposal s
  | .handlerStart => Sys2Proof.Machine.execHandlerStart s
  | .preemptRequest => Sys2Proof.Machine.execPreemptRequest s
  | .saveHandlerStart => Sys2Proof.Machine.execSaveHandlerStart s
  | .saveComplete => Sys2Proof.Machine.execSaveComplete s
  | .preemptLimitExpiry => Sys2Proof.Machine.execPreemptLimitExpiry s
  | .restorePlacement => Sys2Proof.Machine.execRestorePlacement s
  | .panoramaPreempt => Sys2Proof.Machine.execPanoramaPreempt s
  | .phaseTrackStep => Sys2Proof.Machine.execPhaseTrackStep s
  | .groupRetrain => Sys2Proof.Machine.execGroupRetrain s
  | .eccWriteback => Sys2Proof.Machine.execEccWriteback s
  | .patrolRead => Sys2Proof.Machine.execPatrolRead s
  | .rowRepair => Sys2Proof.Machine.execRowRepair s
  | .bankMigration => Sys2Proof.Machine.execBankMigration s
  | .laneSteer => Sys2Proof.Machine.execLaneSteer s
  | .repairAttemptTimeout => Sys2Proof.Machine.execRepairAttemptTimeout s
  | .pageRetirement => Sys2Proof.Machine.execPageRetirement s
  | .doorbell => Sys2Proof.Machine.execDoorbell s
  | .packetFetch => Sys2Proof.Machine.execPacketFetch s
  | .nop => Sys2Proof.Machine.execNop s
  | .launch => Sys2Proof.Machine.execLaunch s
  | .panlaunch => Sys2Proof.Machine.execPanlaunch s
  | .wait => Sys2Proof.Machine.execWait s
  | .signalPoll => Sys2Proof.Machine.execSignalPoll s
  | .signal => Sys2Proof.Machine.execSignal s
  | .barrier => Sys2Proof.Machine.execBarrier s
  | .copy => Sys2Proof.Machine.execCopy s
  | .event => Sys2Proof.Machine.execEvent s
  | .configQset => Sys2Proof.Machine.execConfigQset s
  | .configQread => Sys2Proof.Machine.execConfigQread s
  | .configQresume => Sys2Proof.Machine.execConfigQresume s
  | .configLog => Sys2Proof.Machine.execConfigLog s
  | .configBind => Sys2Proof.Machine.execConfigBind s
  | .configEvch => Sys2Proof.Machine.execConfigEvch s
  | .configLimits => Sys2Proof.Machine.execConfigLimits s
  | .configTrace => Sys2Proof.Machine.execConfigTrace s
  | .tableMap => Sys2Proof.Machine.execTableMap s
  | .tableUnmap => Sys2Proof.Machine.execTableUnmap s
  | .tableProtect => Sys2Proof.Machine.execTableProtect s
  | .tableReserve => Sys2Proof.Machine.execTableReserve s
  | .discard => Sys2Proof.Machine.execDiscard s
  | .mark => Sys2Proof.Machine.execMark s
  | .dispatchDecision => Sys2Proof.Machine.execDispatchDecision s
  | .gangLoad => Sys2Proof.Machine.execGangLoad s
  | .launchCompletion => Sys2Proof.Machine.execLaunchCompletion s
  | .launchEnd => Sys2Proof.Machine.execLaunchEnd s
  | .panAdmissionPrepare => Sys2Proof.Machine.execPanAdmissionPrepare s
  | .panAdmissionCommit => Sys2Proof.Machine.execPanAdmissionCommit s
  | .eventCoalesceTimeout => Sys2Proof.Machine.execEventCoalesceTimeout s
  | .eventRingSpace => Sys2Proof.Machine.execEventRingSpace s
  | .eventRetransmit => Sys2Proof.Machine.execEventRetransmit s
  | .liveUpdateTakeover => Sys2Proof.Machine.execLiveUpdateTakeover s
  | .rdmaWrite => Sys2Proof.Machine.execRdmaWrite s
  | .rdmaRead => Sys2Proof.Machine.execRdmaRead s
  | .arpRequest => Sys2Proof.Machine.execArpRequest s
  | .neighborDiscovery => Sys2Proof.Machine.execNeighborDiscovery s
  | .lldpSend => Sys2Proof.Machine.execLldpSend s
  | .debugRequest => Sys2Proof.Machine.execDebugRequest s
  | .frontEndGate => Sys2Proof.Machine.execFrontEndGate s
  | .frontEndWake => Sys2Proof.Machine.execFrontEndWake s
  | .getSensorReading => Sys2Proof.Machine.execGetSensorReading s
  | .pldmDiscovery => Sys2Proof.Machine.execPldmDiscovery s
  | .platformEventMessage => Sys2Proof.Machine.execPlatformEventMessage s
  | .applyComplete => Sys2Proof.Machine.execApplyComplete s
  | .firmwareActivation => Sys2Proof.Machine.execFirmwareActivation s
  | .securityMinimumRaise => Sys2Proof.Machine.execSecurityMinimumRaise s
  | .traceControlWrite => Sys2Proof.Machine.execTraceControlWrite s
  | .getVersion => Sys2Proof.Machine.execGetVersion s
  | .getCapabilities => Sys2Proof.Machine.execGetCapabilities s
  | .negotiateAlgorithms => Sys2Proof.Machine.execNegotiateAlgorithms s
  | .getDigests => Sys2Proof.Machine.execGetDigests s
  | .getCertificate => Sys2Proof.Machine.execGetCertificate s
  | .challenge => Sys2Proof.Machine.execChallenge s
  | .getMeasurements => Sys2Proof.Machine.execGetMeasurements s
  | .powerCapWindow => Sys2Proof.Machine.execPowerCapWindow s
  | .powerCapSet => Sys2Proof.Machine.execPowerCapSet s
  | .dieThermalTrip => Sys2Proof.Machine.execDieThermalTrip s
  | .stackThermalTrip => Sys2Proof.Machine.execStackThermalTrip s
  | .coreClockGate => Sys2Proof.Machine.execCoreClockGate s
  | .coreWake => Sys2Proof.Machine.execCoreWake s
  | .clusterPowerGate => Sys2Proof.Machine.execClusterPowerGate s
  | .clusterWake => Sys2Proof.Machine.execClusterWake s
  | .cellReset => Sys2Proof.Machine.execCellReset s
  | .engineReset => Sys2Proof.Machine.execEngineReset s
  | .gangReset => Sys2Proof.Machine.execGangReset s
  | .clusterReset => Sys2Proof.Machine.execClusterReset s
  | .dieWarmReset => Sys2Proof.Machine.execDieWarmReset s
  | .packageWarmReset => Sys2Proof.Machine.execPackageWarmReset s
  | .coldReset => Sys2Proof.Machine.execColdReset s
  | .fullService => Sys2Proof.Machine.execFullService s
  | .contactSheetFrame => Sys2Proof.Machine.execContactSheetFrame s
  | .filmstripRecord => Sys2Proof.Machine.execFilmstripRecord s
  | .repairAttemptComplete => Sys2Proof.Machine.execRepairAttemptComplete s
  | .packetComplete => Sys2Proof.Machine.execPacketComplete s
  | .dieTemperatureCap => Sys2Proof.Machine.execDieTemperatureCap s
  | .hostLinkChange => Sys2Proof.Machine.execHostLinkChange s
  | .degradedService => Sys2Proof.Machine.execDegradedService s
  | .partitionAssignment => Sys2Proof.Machine.execPartitionAssignment s
  | .pageMadeNonResident => Sys2Proof.Machine.execPageMadeNonResident s

end Sys2Proof.Machine
end

