-- ==== Sys2Proof/Machine/Step.lean ====
section
/-! DEFINITION. One step of the device, and the placing of an instruction where the next step fetches it. -/

namespace Sys2Proof.Machine

/-- An event that comes before a core's next cycle (02 R55, 05 R90, 06 R132, R141, 09 R239). -/
def dueOn (c : Nat) : Event → Bool
  | .divResult c' _ => c == c'
  | .fltLongResult c' _ => c == c'
  | .sleepTimeout c' _ => c == c'
  | .intakeDelivery c' => c == c'
  | .engineSlotGrant c' u => c == c' && u == 3
  | _ => false

/-- The queue pair of a request of the host: the requests of one queue pair are performed in their order (18 R441). -/
def qpOf : Event → Option Nat
  | .doorbell d => some d.qp
  | .rdmaWrite qp .. => some qp
  | .rdmaRead qp .. => some qp
  | .debugRequest qp _ => some qp
  | _ => none

/-- Events with only the first request of each queue pair. -/
def headRequests : List Nat → List Event → List Event
  | _, [] => []
  | seen, e :: r =>
    match qpOf e with
    | none => e :: headRequests seen r
    | some q => if seen.contains q then headRequests seen r else e :: headRequests (q :: seen) r

/-- The core that an event arrives at (18 R453). -/
def arrivesAt : Event → Option Nat
  | .remoteAccessReply c .. => some c
  | .poolReply c _ => some c
  | .detectorReply c _ => some c
  | .mntReply c _ => some c
  | .messageArrival m => some m.core
  | .spawnIntakeArrival m => some m.core
  | .intakeDelivery c => some c
  | .remotePostArrival c .. => some c
  | .messageAcknowledge c .. => some c
  | .handlerStart c => some c
  | .trapDisposal _ c _ => some c
  | _ => none

/-- An arrival at a gated core wakes it first (18 R443, R453). -/
def State.wakeFirst (s : State) (e : Event) : Event :=
  match arrivesAt e with
  | some c => if (s.core c).gated then .coreWake c else e
  | none => e

/-- In recovery the device answers only PLDM Type 5 and SPDM (18 R455); it can be reset. -/
def inRecovery : Event → Bool
  | .applyComplete .. => true
  | .firmwareActivation _ => true
  | .getVersion => true
  | .getCapabilities => true
  | .negotiateAlgorithms => true
  | .getDigests => true
  | .getCertificate .. => true
  | .challenge .. => true
  | .getMeasurements .. => true
  | .coldReset => true
  | .packageWarmReset => true
  | .platformEventMessage _ => true
  | .filmstripRecord .. => true
  | _ => false

/-- The cores whose clock runs: those of the clusters in power that are not gated (01 R24, 18 R453). -/
def State.clocked (s : State) : List Nat := (List.range 768).filter (fun c => (s.cluster (clusterOf c)).powered && !(s.core c).gated)

/-- The events of which one comes next: those that are due, the fetches that strands ask for, a cycle of each core whose clock runs, and the waking of a gated core
that has work. -/
def State.candidates (s : State) : List Event :=
  if s.mgmt.service = 3 then s.agenda.filter inRecovery
  else
    ((headRequests [] s.agenda).map s.wakeFirst)
      ++ (s.cores.filter (fun e => !e.2.gated)).flatMap (fun e => s.wantedFetches e.1)
      ++ (s.clocked.filter (fun c => !s.agenda.any (dueOn c))).map (fun c => Event.shutterSelect c)
      ++ (s.cores.filter (fun e => e.2.gated && !e.2.gateable)).map (fun e => Event.coreWake e.1)

/-- One step: the word in the pipeline runs; otherwise one of the candidate events happens (notes/assumptions/3.md). A device with
nothing to do only lets time pass. -/
def step (s : State) : Host.Outcome State Fault Refusal :=
  match s.current with
  | some (c, i) =>
    match s.nextWord c i with
    | .inl s' => .next s'
    | .inr w => exec w s
  | none =>
    let es := s.candidates
    let s := { s with tick := s.tick + 1 }
    match es[Config.schedule s.tick % es.length]? with
    | none => .next s
    | some e => exec e.row { s with agenda := s.agenda.erase e, event := some e }

/-- s with an instruction's words in the fetch buffer of strand 0 of core 0, which is the strand in the pipeline; its breakpoint match is
skipped, as after a resume (17 R427). -/
def State.withFetchWord (s : State) (nbits w : Nat) : State :=
  let v := w % 2 ^ nbits
  let u : FetchUnit := ⟨0, BitVec.ofNat 64 v, BitVec.ofNat 64 (v / 2 ^ 64)⟩
  { s.setSlot 0 0 { s.slot 0 0 with st := .issued, pc := 0, fetch := some u, skipBreak := true } with current := some (0, 0) }

end Sys2Proof.Machine
end

