-- ==== Sys2Proof/Laws/State.lean ====
section
/-! SUPPORT. Reading a field after an update: tables, the parts of the device, and the fields that each update leaves. -/

namespace Sys2Proof.Machine

/-! ## Tables -/

@[simp] theorem table_get_nil {α : Type} (d : α) (k : Nat) : Table.get d ([] : Table α) k = d := rfl

@[simp] theorem table_get_set_self {α : Type} (d : α) (t : Table α) (k : Nat) (v : α) : Table.get d (t.set k v) k = v := by
  induction t with
  | nil => simp [Table.set, Table.get]
  | cons e r ih =>
    obtain ⟨k', v'⟩ := e
    by_cases h1 : k < k'
    · simp [Table.set, h1, Table.get]
    · by_cases h2 : k = k'
      · simp [Table.set, h2, Table.get]
      · simp [Table.set, h1, h2, Table.get, ih]

theorem table_get_set_ne {α : Type} (d : α) (t : Table α) (k j : Nat) (v : α) (h : j ≠ k) :
    Table.get d (t.set k v) j = Table.get d t j := by
  induction t with
  | nil => simp [Table.set, Table.get, h]
  | cons e r ih =>
    obtain ⟨k', v'⟩ := e
    by_cases h1 : k < k'
    · simp [Table.set, h1, Table.get, h]
    · by_cases h2 : k = k'
      · subst h2
        simp [Table.set, Table.get, h]
      · simp [Table.set, h1, h2, Table.get, ih]

theorem table_get_set {α : Type} (d : α) (t : Table α) (k j : Nat) (v : α) :
    Table.get d (t.set k v) j = if j = k then v else Table.get d t j := by
  by_cases h : j = k
  · simp [h]
  · simp [h, table_get_set_ne]

@[simp] theorem table_set_set {α : Type} (t : Table α) (k : Nat) (v w : α) : (t.set k v).set k w = t.set k w := by
  induction t with
  | nil => simp [Table.set]
  | cons e r ih =>
    obtain ⟨k', v'⟩ := e
    by_cases h1 : k < k'
    · simp [Table.set, h1]
    · by_cases h2 : k = k'
      · simp [Table.set, h2]
      · simp [Table.set, h1, h2, ih]

/-! ## The parts of the device -/

@[simp] theorem State.setCore_core (s : State) (c : Nat) (v : Core) : (s.setCore c v).core c = v := by
  simp [State.setCore, State.core]

theorem State.setCore_core_ne (s : State) (c d : Nat) (v : Core) (h : d ≠ c) : (s.setCore c v).core d = s.core d := by
  simp [State.setCore, State.core, table_get_set_ne _ _ _ _ _ h]

@[simp] theorem State.setCore_setCore (s : State) (c : Nat) (v w : Core) : (s.setCore c v).setCore c w = s.setCore c w := by
  simp [State.setCore]

@[simp] theorem Core.setSlot_slot (k : Core) (i : Nat) (v : Slot) : (k.setSlot i v).slot i = v := by
  simp [Core.setSlot, Core.slot]

theorem Core.setSlot_slot_ne (k : Core) (i j : Nat) (v : Slot) (h : j ≠ i) : (k.setSlot i v).slot j = k.slot j := by
  simp [Core.setSlot, Core.slot, table_get_set_ne _ _ _ _ _ h]

@[simp] theorem Core.setSlot_setSlot (k : Core) (i : Nat) (v w : Slot) : (k.setSlot i v).setSlot i w = k.setSlot i w := by
  simp [Core.setSlot]

@[simp] theorem State.setSlot_slot (s : State) (c i : Nat) (v : Slot) : (s.setSlot c i v).slot c i = v := by
  simp [State.setSlot, State.slot]

theorem State.setSlot_slot_ne (s : State) (c i j : Nat) (v : Slot) (h : j ≠ i) : (s.setSlot c i v).slot c j = s.slot c j := by
  simp [State.setSlot, State.slot, Core.setSlot_slot_ne _ _ _ _ h]

theorem State.setSlot_slot_core (s : State) (c d i j : Nat) (v : Slot) (h : d ≠ c) : (s.setSlot c i v).slot d j = s.slot d j := by
  simp [State.setSlot, State.slot, State.setCore_core_ne _ _ _ _ h]

@[simp] theorem State.setSlot_setSlot (s : State) (c i : Nat) (v w : Slot) : (s.setSlot c i v).setSlot c i w = s.setSlot c i w := by
  simp [State.setSlot]

@[simp] theorem State.setSlot_core (s : State) (c i : Nat) (v : Slot) : (s.setSlot c i v).core c = (s.core c).setSlot i v := by
  simp [State.setSlot]

theorem State.setSlot_core_ne (s : State) (c d i : Nat) (v : Slot) (h : d ≠ c) : (s.setSlot c i v).core d = s.core d := by
  simp [State.setSlot, State.setCore_core_ne _ _ _ _ h]

@[simp] theorem State.setCluster_cluster (s : State) (n : Nat) (v : Cluster) : (s.setCluster n v).cluster n = v := by
  simp [State.setCluster, State.cluster]

theorem State.setCluster_cluster_ne (s : State) (n m : Nat) (v : Cluster) (h : m ≠ n) :
    (s.setCluster n v).cluster m = s.cluster m := by
  simp [State.setCluster, State.cluster, table_get_set_ne _ _ _ _ _ h]

@[simp] theorem State.setDie_die (s : State) (n : Nat) (v : Die) : (s.setDie n v).die n = v := by
  simp [State.setDie, State.die]

@[simp] theorem State.setStack_stack (s : State) (n : Nat) (v : Stack) : (s.setStack n v).stack n = v := by
  simp [State.setStack, State.stack]

@[simp] theorem State.setPart_part (s : State) (n : Nat) (v : Partition) : (s.setPart n v).part n = v := by
  simp [State.setPart, State.part]

/-! ## Readers of one part after an update of another -/

@[simp] theorem State.setCore_cluster_of (s : State) (c : Nat) (v : Core) (x : Nat) : (s.setCore c v).cluster x = s.cluster x := rfl
@[simp] theorem State.setCore_die_of (s : State) (c : Nat) (v : Core) (x : Nat) : (s.setCore c v).die x = s.die x := rfl
@[simp] theorem State.setCore_stack_of (s : State) (c : Nat) (v : Core) (x : Nat) : (s.setCore c v).stack x = s.stack x := rfl
@[simp] theorem State.setCore_part_of (s : State) (c : Nat) (v : Core) (x : Nat) : (s.setCore c v).part x = s.part x := rfl
@[simp] theorem State.setSlot_cluster_of (s : State) (c i : Nat) (v : Slot) (x : Nat) : (s.setSlot c i v).cluster x = s.cluster x := rfl
@[simp] theorem State.setSlot_die_of (s : State) (c i : Nat) (v : Slot) (x : Nat) : (s.setSlot c i v).die x = s.die x := rfl
@[simp] theorem State.setSlot_stack_of (s : State) (c i : Nat) (v : Slot) (x : Nat) : (s.setSlot c i v).stack x = s.stack x := rfl
@[simp] theorem State.setSlot_part_of (s : State) (c i : Nat) (v : Slot) (x : Nat) : (s.setSlot c i v).part x = s.part x := rfl
@[simp] theorem State.setCluster_core_of (s : State) (n : Nat) (v : Cluster) (x : Nat) : (s.setCluster n v).core x = s.core x := rfl
@[simp] theorem State.setCluster_slot_of (s : State) (n : Nat) (v : Cluster) (x y : Nat) : (s.setCluster n v).slot x y = s.slot x y := rfl
@[simp] theorem State.setCluster_cell_of (s : State) (n : Nat) (v : Cluster) (x : Nat) : (s.setCluster n v).cell x = s.cell x := rfl
@[simp] theorem State.setCluster_die_of (s : State) (n : Nat) (v : Cluster) (x : Nat) : (s.setCluster n v).die x = s.die x := rfl
@[simp] theorem State.setCluster_stack_of (s : State) (n : Nat) (v : Cluster) (x : Nat) : (s.setCluster n v).stack x = s.stack x := rfl
@[simp] theorem State.setCluster_part_of (s : State) (n : Nat) (v : Cluster) (x : Nat) : (s.setCluster n v).part x = s.part x := rfl
@[simp] theorem State.setDie_core_of (s : State) (n : Nat) (v : Die) (x : Nat) : (s.setDie n v).core x = s.core x := rfl
@[simp] theorem State.setDie_slot_of (s : State) (n : Nat) (v : Die) (x y : Nat) : (s.setDie n v).slot x y = s.slot x y := rfl
@[simp] theorem State.setDie_cell_of (s : State) (n : Nat) (v : Die) (x : Nat) : (s.setDie n v).cell x = s.cell x := rfl
@[simp] theorem State.setDie_cluster_of (s : State) (n : Nat) (v : Die) (x : Nat) : (s.setDie n v).cluster x = s.cluster x := rfl
@[simp] theorem State.setDie_stack_of (s : State) (n : Nat) (v : Die) (x : Nat) : (s.setDie n v).stack x = s.stack x := rfl
@[simp] theorem State.setDie_part_of (s : State) (n : Nat) (v : Die) (x : Nat) : (s.setDie n v).part x = s.part x := rfl
@[simp] theorem State.setStack_core_of (s : State) (n : Nat) (v : Stack) (x : Nat) : (s.setStack n v).core x = s.core x := rfl
@[simp] theorem State.setStack_slot_of (s : State) (n : Nat) (v : Stack) (x y : Nat) : (s.setStack n v).slot x y = s.slot x y := rfl
@[simp] theorem State.setStack_cell_of (s : State) (n : Nat) (v : Stack) (x : Nat) : (s.setStack n v).cell x = s.cell x := rfl
@[simp] theorem State.setStack_cluster_of (s : State) (n : Nat) (v : Stack) (x : Nat) : (s.setStack n v).cluster x = s.cluster x := rfl
@[simp] theorem State.setStack_die_of (s : State) (n : Nat) (v : Stack) (x : Nat) : (s.setStack n v).die x = s.die x := rfl
@[simp] theorem State.setStack_part_of (s : State) (n : Nat) (v : Stack) (x : Nat) : (s.setStack n v).part x = s.part x := rfl
@[simp] theorem State.setPart_core_of (s : State) (n : Nat) (v : Partition) (x : Nat) : (s.setPart n v).core x = s.core x := rfl
@[simp] theorem State.setPart_slot_of (s : State) (n : Nat) (v : Partition) (x y : Nat) : (s.setPart n v).slot x y = s.slot x y := rfl
@[simp] theorem State.setPart_cell_of (s : State) (n : Nat) (v : Partition) (x : Nat) : (s.setPart n v).cell x = s.cell x := rfl
@[simp] theorem State.setPart_cluster_of (s : State) (n : Nat) (v : Partition) (x : Nat) : (s.setPart n v).cluster x = s.cluster x := rfl
@[simp] theorem State.setPart_die_of (s : State) (n : Nat) (v : Partition) (x : Nat) : (s.setPart n v).die x = s.die x := rfl
@[simp] theorem State.setPart_stack_of (s : State) (n : Nat) (v : Partition) (x : Nat) : (s.setPart n v).stack x = s.stack x := rfl
@[simp] theorem State.push_core_of (s : State) (e : Event) (x : Nat) : (s.push e).core x = s.core x := rfl
@[simp] theorem State.push_slot_of (s : State) (e : Event) (x y : Nat) : (s.push e).slot x y = s.slot x y := rfl
@[simp] theorem State.push_cell_of (s : State) (e : Event) (x : Nat) : (s.push e).cell x = s.cell x := rfl
@[simp] theorem State.push_cluster_of (s : State) (e : Event) (x : Nat) : (s.push e).cluster x = s.cluster x := rfl
@[simp] theorem State.push_die_of (s : State) (e : Event) (x : Nat) : (s.push e).die x = s.die x := rfl
@[simp] theorem State.push_stack_of (s : State) (e : Event) (x : Nat) : (s.push e).stack x = s.stack x := rfl
@[simp] theorem State.push_part_of (s : State) (e : Event) (x : Nat) : (s.push e).part x = s.part x := rfl
@[simp] theorem State.emit_core_of (s : State) (o : Output) (x : Nat) : (s.emit o).core x = s.core x := rfl
@[simp] theorem State.emit_slot_of (s : State) (o : Output) (x y : Nat) : (s.emit o).slot x y = s.slot x y := rfl
@[simp] theorem State.emit_cell_of (s : State) (o : Output) (x : Nat) : (s.emit o).cell x = s.cell x := rfl
@[simp] theorem State.emit_cluster_of (s : State) (o : Output) (x : Nat) : (s.emit o).cluster x = s.cluster x := rfl
@[simp] theorem State.emit_die_of (s : State) (o : Output) (x : Nat) : (s.emit o).die x = s.die x := rfl
@[simp] theorem State.emit_stack_of (s : State) (o : Output) (x : Nat) : (s.emit o).stack x = s.stack x := rfl
@[simp] theorem State.emit_part_of (s : State) (o : Output) (x : Nat) : (s.emit o).part x = s.part x := rfl

/-! ## Fields after setCore -/

@[simp] theorem State.setCore_device_eq (s : State) (c : Nat) (v : Core) : (s.setCore c v).device = s.device := rfl
@[simp] theorem State.setCore_clusters_eq (s : State) (c : Nat) (v : Core) : (s.setCore c v).clusters = s.clusters := rfl
@[simp] theorem State.setCore_dies_eq (s : State) (c : Nat) (v : Core) : (s.setCore c v).dies = s.dies := rfl
@[simp] theorem State.setCore_hbm_eq (s : State) (c : Nat) (v : Core) : (s.setCore c v).hbm = s.hbm := rfl
@[simp] theorem State.setCore_memory_eq (s : State) (c : Nat) (v : Core) : (s.setCore c v).memory = s.memory := rfl
@[simp] theorem State.setCore_frames_eq (s : State) (c : Nat) (v : Core) : (s.setCore c v).frames = s.frames := rfl
@[simp] theorem State.setCore_tableNext_eq (s : State) (c : Nat) (v : Core) : (s.setCore c v).tableNext = s.tableNext := rfl
@[simp] theorem State.setCore_tableFree_eq (s : State) (c : Nat) (v : Core) : (s.setCore c v).tableFree = s.tableFree := rfl
@[simp] theorem State.setCore_retired_eq (s : State) (c : Nat) (v : Core) : (s.setCore c v).retired = s.retired := rfl
@[simp] theorem State.setCore_parts_eq (s : State) (c : Nat) (v : Core) : (s.setCore c v).parts = s.parts := rfl
@[simp] theorem State.setCore_queues_eq (s : State) (c : Nat) (v : Core) : (s.setCore c v).queues = s.queues := rfl
@[simp] theorem State.setCore_blockCache_eq (s : State) (c : Nat) (v : Core) : (s.setCore c v).blockCache = s.blockCache := rfl
@[simp] theorem State.setCore_bells_eq (s : State) (c : Nat) (v : Core) : (s.setCore c v).bells = s.bells := rfl
@[simp] theorem State.setCore_launches_eq (s : State) (c : Nat) (v : Core) : (s.setCore c v).launches = s.launches := rfl
@[simp] theorem State.setCore_nextLaunch_eq (s : State) (c : Nat) (v : Core) : (s.setCore c v).nextLaunch = s.nextLaunch := rfl
@[simp] theorem State.setCore_pans_eq (s : State) (c : Nat) (v : Core) : (s.setCore c v).pans = s.pans := rfl
@[simp] theorem State.setCore_panCount_eq (s : State) (c : Nat) (v : Core) : (s.setCore c v).panCount = s.panCount := rfl
@[simp] theorem State.setCore_panWaits_eq (s : State) (c : Nat) (v : Core) : (s.setCore c v).panWaits = s.panWaits := rfl
@[simp] theorem State.setCore_domain_eq (s : State) (c : Nat) (v : Core) : (s.setCore c v).domain = s.domain := rfl
@[simp] theorem State.setCore_asleep_eq (s : State) (c : Nat) (v : Core) : (s.setCore c v).asleep = s.asleep := rfl
@[simp] theorem State.setCore_backs_eq (s : State) (c : Nat) (v : Core) : (s.setCore c v).backs = s.backs := rfl
@[simp] theorem State.setCore_breaks_eq (s : State) (c : Nat) (v : Core) : (s.setCore c v).breaks = s.breaks := rfl
@[simp] theorem State.setCore_watches_eq (s : State) (c : Nat) (v : Core) : (s.setCore c v).watches = s.watches := rfl
@[simp] theorem State.setCore_router_eq (s : State) (c : Nat) (v : Core) : (s.setCore c v).router = s.router := rfl
@[simp] theorem State.setCore_host_eq (s : State) (c : Nat) (v : Core) : (s.setCore c v).host = s.host := rfl
@[simp] theorem State.setCore_mgmt_eq (s : State) (c : Nat) (v : Core) : (s.setCore c v).mgmt = s.mgmt := rfl
@[simp] theorem State.setCore_film_eq (s : State) (c : Nat) (v : Core) : (s.setCore c v).film = s.film := rfl
@[simp] theorem State.setCore_filmSeq_eq (s : State) (c : Nat) (v : Core) : (s.setCore c v).filmSeq = s.filmSeq := rfl
@[simp] theorem State.setCore_filmTime_eq (s : State) (c : Nat) (v : Core) : (s.setCore c v).filmTime = s.filmTime := rfl
@[simp] theorem State.setCore_agenda_eq (s : State) (c : Nat) (v : Core) : (s.setCore c v).agenda = s.agenda := rfl
@[simp] theorem State.setCore_event_eq (s : State) (c : Nat) (v : Core) : (s.setCore c v).event = s.event := rfl
@[simp] theorem State.setCore_outbox_eq (s : State) (c : Nat) (v : Core) : (s.setCore c v).outbox = s.outbox := rfl
@[simp] theorem State.setCore_current_eq (s : State) (c : Nat) (v : Core) : (s.setCore c v).current = s.current := rfl
@[simp] theorem State.setCore_tick_eq (s : State) (c : Nat) (v : Core) : (s.setCore c v).tick = s.tick := rfl
@[simp] theorem State.setCore_draws_eq (s : State) (c : Nat) (v : Core) : (s.setCore c v).draws = s.draws := rfl

/-! ## Fields after setSlot -/

@[simp] theorem State.setSlot_device_eq (s : State) (c i : Nat) (v : Slot) : (s.setSlot c i v).device = s.device := rfl
@[simp] theorem State.setSlot_clusters_eq (s : State) (c i : Nat) (v : Slot) : (s.setSlot c i v).clusters = s.clusters := rfl
@[simp] theorem State.setSlot_dies_eq (s : State) (c i : Nat) (v : Slot) : (s.setSlot c i v).dies = s.dies := rfl
@[simp] theorem State.setSlot_hbm_eq (s : State) (c i : Nat) (v : Slot) : (s.setSlot c i v).hbm = s.hbm := rfl
@[simp] theorem State.setSlot_memory_eq (s : State) (c i : Nat) (v : Slot) : (s.setSlot c i v).memory = s.memory := rfl
@[simp] theorem State.setSlot_frames_eq (s : State) (c i : Nat) (v : Slot) : (s.setSlot c i v).frames = s.frames := rfl
@[simp] theorem State.setSlot_tableNext_eq (s : State) (c i : Nat) (v : Slot) : (s.setSlot c i v).tableNext = s.tableNext := rfl
@[simp] theorem State.setSlot_tableFree_eq (s : State) (c i : Nat) (v : Slot) : (s.setSlot c i v).tableFree = s.tableFree := rfl
@[simp] theorem State.setSlot_retired_eq (s : State) (c i : Nat) (v : Slot) : (s.setSlot c i v).retired = s.retired := rfl
@[simp] theorem State.setSlot_parts_eq (s : State) (c i : Nat) (v : Slot) : (s.setSlot c i v).parts = s.parts := rfl
@[simp] theorem State.setSlot_queues_eq (s : State) (c i : Nat) (v : Slot) : (s.setSlot c i v).queues = s.queues := rfl
@[simp] theorem State.setSlot_blockCache_eq (s : State) (c i : Nat) (v : Slot) : (s.setSlot c i v).blockCache = s.blockCache := rfl
@[simp] theorem State.setSlot_bells_eq (s : State) (c i : Nat) (v : Slot) : (s.setSlot c i v).bells = s.bells := rfl
@[simp] theorem State.setSlot_launches_eq (s : State) (c i : Nat) (v : Slot) : (s.setSlot c i v).launches = s.launches := rfl
@[simp] theorem State.setSlot_nextLaunch_eq (s : State) (c i : Nat) (v : Slot) : (s.setSlot c i v).nextLaunch = s.nextLaunch := rfl
@[simp] theorem State.setSlot_pans_eq (s : State) (c i : Nat) (v : Slot) : (s.setSlot c i v).pans = s.pans := rfl
@[simp] theorem State.setSlot_panCount_eq (s : State) (c i : Nat) (v : Slot) : (s.setSlot c i v).panCount = s.panCount := rfl
@[simp] theorem State.setSlot_panWaits_eq (s : State) (c i : Nat) (v : Slot) : (s.setSlot c i v).panWaits = s.panWaits := rfl
@[simp] theorem State.setSlot_domain_eq (s : State) (c i : Nat) (v : Slot) : (s.setSlot c i v).domain = s.domain := rfl
@[simp] theorem State.setSlot_asleep_eq (s : State) (c i : Nat) (v : Slot) : (s.setSlot c i v).asleep = s.asleep := rfl
@[simp] theorem State.setSlot_backs_eq (s : State) (c i : Nat) (v : Slot) : (s.setSlot c i v).backs = s.backs := rfl
@[simp] theorem State.setSlot_breaks_eq (s : State) (c i : Nat) (v : Slot) : (s.setSlot c i v).breaks = s.breaks := rfl
@[simp] theorem State.setSlot_watches_eq (s : State) (c i : Nat) (v : Slot) : (s.setSlot c i v).watches = s.watches := rfl
@[simp] theorem State.setSlot_router_eq (s : State) (c i : Nat) (v : Slot) : (s.setSlot c i v).router = s.router := rfl
@[simp] theorem State.setSlot_host_eq (s : State) (c i : Nat) (v : Slot) : (s.setSlot c i v).host = s.host := rfl
@[simp] theorem State.setSlot_mgmt_eq (s : State) (c i : Nat) (v : Slot) : (s.setSlot c i v).mgmt = s.mgmt := rfl
@[simp] theorem State.setSlot_film_eq (s : State) (c i : Nat) (v : Slot) : (s.setSlot c i v).film = s.film := rfl
@[simp] theorem State.setSlot_filmSeq_eq (s : State) (c i : Nat) (v : Slot) : (s.setSlot c i v).filmSeq = s.filmSeq := rfl
@[simp] theorem State.setSlot_filmTime_eq (s : State) (c i : Nat) (v : Slot) : (s.setSlot c i v).filmTime = s.filmTime := rfl
@[simp] theorem State.setSlot_agenda_eq (s : State) (c i : Nat) (v : Slot) : (s.setSlot c i v).agenda = s.agenda := rfl
@[simp] theorem State.setSlot_event_eq (s : State) (c i : Nat) (v : Slot) : (s.setSlot c i v).event = s.event := rfl
@[simp] theorem State.setSlot_outbox_eq (s : State) (c i : Nat) (v : Slot) : (s.setSlot c i v).outbox = s.outbox := rfl
@[simp] theorem State.setSlot_current_eq (s : State) (c i : Nat) (v : Slot) : (s.setSlot c i v).current = s.current := rfl
@[simp] theorem State.setSlot_tick_eq (s : State) (c i : Nat) (v : Slot) : (s.setSlot c i v).tick = s.tick := rfl
@[simp] theorem State.setSlot_draws_eq (s : State) (c i : Nat) (v : Slot) : (s.setSlot c i v).draws = s.draws := rfl

/-! ## Fields after setCluster -/

@[simp] theorem State.setCluster_device_eq (s : State) (n : Nat) (v : Cluster) : (s.setCluster n v).device = s.device := rfl
@[simp] theorem State.setCluster_cores_eq (s : State) (n : Nat) (v : Cluster) : (s.setCluster n v).cores = s.cores := rfl
@[simp] theorem State.setCluster_dies_eq (s : State) (n : Nat) (v : Cluster) : (s.setCluster n v).dies = s.dies := rfl
@[simp] theorem State.setCluster_hbm_eq (s : State) (n : Nat) (v : Cluster) : (s.setCluster n v).hbm = s.hbm := rfl
@[simp] theorem State.setCluster_memory_eq (s : State) (n : Nat) (v : Cluster) : (s.setCluster n v).memory = s.memory := rfl
@[simp] theorem State.setCluster_frames_eq (s : State) (n : Nat) (v : Cluster) : (s.setCluster n v).frames = s.frames := rfl
@[simp] theorem State.setCluster_tableNext_eq (s : State) (n : Nat) (v : Cluster) : (s.setCluster n v).tableNext = s.tableNext := rfl
@[simp] theorem State.setCluster_tableFree_eq (s : State) (n : Nat) (v : Cluster) : (s.setCluster n v).tableFree = s.tableFree := rfl
@[simp] theorem State.setCluster_retired_eq (s : State) (n : Nat) (v : Cluster) : (s.setCluster n v).retired = s.retired := rfl
@[simp] theorem State.setCluster_parts_eq (s : State) (n : Nat) (v : Cluster) : (s.setCluster n v).parts = s.parts := rfl
@[simp] theorem State.setCluster_queues_eq (s : State) (n : Nat) (v : Cluster) : (s.setCluster n v).queues = s.queues := rfl
@[simp] theorem State.setCluster_blockCache_eq (s : State) (n : Nat) (v : Cluster) : (s.setCluster n v).blockCache = s.blockCache := rfl
@[simp] theorem State.setCluster_bells_eq (s : State) (n : Nat) (v : Cluster) : (s.setCluster n v).bells = s.bells := rfl
@[simp] theorem State.setCluster_launches_eq (s : State) (n : Nat) (v : Cluster) : (s.setCluster n v).launches = s.launches := rfl
@[simp] theorem State.setCluster_nextLaunch_eq (s : State) (n : Nat) (v : Cluster) : (s.setCluster n v).nextLaunch = s.nextLaunch := rfl
@[simp] theorem State.setCluster_pans_eq (s : State) (n : Nat) (v : Cluster) : (s.setCluster n v).pans = s.pans := rfl
@[simp] theorem State.setCluster_panCount_eq (s : State) (n : Nat) (v : Cluster) : (s.setCluster n v).panCount = s.panCount := rfl
@[simp] theorem State.setCluster_panWaits_eq (s : State) (n : Nat) (v : Cluster) : (s.setCluster n v).panWaits = s.panWaits := rfl
@[simp] theorem State.setCluster_domain_eq (s : State) (n : Nat) (v : Cluster) : (s.setCluster n v).domain = s.domain := rfl
@[simp] theorem State.setCluster_asleep_eq (s : State) (n : Nat) (v : Cluster) : (s.setCluster n v).asleep = s.asleep := rfl
@[simp] theorem State.setCluster_backs_eq (s : State) (n : Nat) (v : Cluster) : (s.setCluster n v).backs = s.backs := rfl
@[simp] theorem State.setCluster_breaks_eq (s : State) (n : Nat) (v : Cluster) : (s.setCluster n v).breaks = s.breaks := rfl
@[simp] theorem State.setCluster_watches_eq (s : State) (n : Nat) (v : Cluster) : (s.setCluster n v).watches = s.watches := rfl
@[simp] theorem State.setCluster_router_eq (s : State) (n : Nat) (v : Cluster) : (s.setCluster n v).router = s.router := rfl
@[simp] theorem State.setCluster_host_eq (s : State) (n : Nat) (v : Cluster) : (s.setCluster n v).host = s.host := rfl
@[simp] theorem State.setCluster_mgmt_eq (s : State) (n : Nat) (v : Cluster) : (s.setCluster n v).mgmt = s.mgmt := rfl
@[simp] theorem State.setCluster_film_eq (s : State) (n : Nat) (v : Cluster) : (s.setCluster n v).film = s.film := rfl
@[simp] theorem State.setCluster_filmSeq_eq (s : State) (n : Nat) (v : Cluster) : (s.setCluster n v).filmSeq = s.filmSeq := rfl
@[simp] theorem State.setCluster_filmTime_eq (s : State) (n : Nat) (v : Cluster) : (s.setCluster n v).filmTime = s.filmTime := rfl
@[simp] theorem State.setCluster_agenda_eq (s : State) (n : Nat) (v : Cluster) : (s.setCluster n v).agenda = s.agenda := rfl
@[simp] theorem State.setCluster_event_eq (s : State) (n : Nat) (v : Cluster) : (s.setCluster n v).event = s.event := rfl
@[simp] theorem State.setCluster_outbox_eq (s : State) (n : Nat) (v : Cluster) : (s.setCluster n v).outbox = s.outbox := rfl
@[simp] theorem State.setCluster_current_eq (s : State) (n : Nat) (v : Cluster) : (s.setCluster n v).current = s.current := rfl
@[simp] theorem State.setCluster_tick_eq (s : State) (n : Nat) (v : Cluster) : (s.setCluster n v).tick = s.tick := rfl
@[simp] theorem State.setCluster_draws_eq (s : State) (n : Nat) (v : Cluster) : (s.setCluster n v).draws = s.draws := rfl

/-! ## Fields after setDie -/

@[simp] theorem State.setDie_device_eq (s : State) (n : Nat) (v : Die) : (s.setDie n v).device = s.device := rfl
@[simp] theorem State.setDie_cores_eq (s : State) (n : Nat) (v : Die) : (s.setDie n v).cores = s.cores := rfl
@[simp] theorem State.setDie_clusters_eq (s : State) (n : Nat) (v : Die) : (s.setDie n v).clusters = s.clusters := rfl
@[simp] theorem State.setDie_hbm_eq (s : State) (n : Nat) (v : Die) : (s.setDie n v).hbm = s.hbm := rfl
@[simp] theorem State.setDie_memory_eq (s : State) (n : Nat) (v : Die) : (s.setDie n v).memory = s.memory := rfl
@[simp] theorem State.setDie_frames_eq (s : State) (n : Nat) (v : Die) : (s.setDie n v).frames = s.frames := rfl
@[simp] theorem State.setDie_tableNext_eq (s : State) (n : Nat) (v : Die) : (s.setDie n v).tableNext = s.tableNext := rfl
@[simp] theorem State.setDie_tableFree_eq (s : State) (n : Nat) (v : Die) : (s.setDie n v).tableFree = s.tableFree := rfl
@[simp] theorem State.setDie_retired_eq (s : State) (n : Nat) (v : Die) : (s.setDie n v).retired = s.retired := rfl
@[simp] theorem State.setDie_parts_eq (s : State) (n : Nat) (v : Die) : (s.setDie n v).parts = s.parts := rfl
@[simp] theorem State.setDie_queues_eq (s : State) (n : Nat) (v : Die) : (s.setDie n v).queues = s.queues := rfl
@[simp] theorem State.setDie_blockCache_eq (s : State) (n : Nat) (v : Die) : (s.setDie n v).blockCache = s.blockCache := rfl
@[simp] theorem State.setDie_bells_eq (s : State) (n : Nat) (v : Die) : (s.setDie n v).bells = s.bells := rfl
@[simp] theorem State.setDie_launches_eq (s : State) (n : Nat) (v : Die) : (s.setDie n v).launches = s.launches := rfl
@[simp] theorem State.setDie_nextLaunch_eq (s : State) (n : Nat) (v : Die) : (s.setDie n v).nextLaunch = s.nextLaunch := rfl
@[simp] theorem State.setDie_pans_eq (s : State) (n : Nat) (v : Die) : (s.setDie n v).pans = s.pans := rfl
@[simp] theorem State.setDie_panCount_eq (s : State) (n : Nat) (v : Die) : (s.setDie n v).panCount = s.panCount := rfl
@[simp] theorem State.setDie_panWaits_eq (s : State) (n : Nat) (v : Die) : (s.setDie n v).panWaits = s.panWaits := rfl
@[simp] theorem State.setDie_domain_eq (s : State) (n : Nat) (v : Die) : (s.setDie n v).domain = s.domain := rfl
@[simp] theorem State.setDie_asleep_eq (s : State) (n : Nat) (v : Die) : (s.setDie n v).asleep = s.asleep := rfl
@[simp] theorem State.setDie_backs_eq (s : State) (n : Nat) (v : Die) : (s.setDie n v).backs = s.backs := rfl
@[simp] theorem State.setDie_breaks_eq (s : State) (n : Nat) (v : Die) : (s.setDie n v).breaks = s.breaks := rfl
@[simp] theorem State.setDie_watches_eq (s : State) (n : Nat) (v : Die) : (s.setDie n v).watches = s.watches := rfl
@[simp] theorem State.setDie_router_eq (s : State) (n : Nat) (v : Die) : (s.setDie n v).router = s.router := rfl
@[simp] theorem State.setDie_host_eq (s : State) (n : Nat) (v : Die) : (s.setDie n v).host = s.host := rfl
@[simp] theorem State.setDie_mgmt_eq (s : State) (n : Nat) (v : Die) : (s.setDie n v).mgmt = s.mgmt := rfl
@[simp] theorem State.setDie_film_eq (s : State) (n : Nat) (v : Die) : (s.setDie n v).film = s.film := rfl
@[simp] theorem State.setDie_filmSeq_eq (s : State) (n : Nat) (v : Die) : (s.setDie n v).filmSeq = s.filmSeq := rfl
@[simp] theorem State.setDie_filmTime_eq (s : State) (n : Nat) (v : Die) : (s.setDie n v).filmTime = s.filmTime := rfl
@[simp] theorem State.setDie_agenda_eq (s : State) (n : Nat) (v : Die) : (s.setDie n v).agenda = s.agenda := rfl
@[simp] theorem State.setDie_event_eq (s : State) (n : Nat) (v : Die) : (s.setDie n v).event = s.event := rfl
@[simp] theorem State.setDie_outbox_eq (s : State) (n : Nat) (v : Die) : (s.setDie n v).outbox = s.outbox := rfl
@[simp] theorem State.setDie_current_eq (s : State) (n : Nat) (v : Die) : (s.setDie n v).current = s.current := rfl
@[simp] theorem State.setDie_tick_eq (s : State) (n : Nat) (v : Die) : (s.setDie n v).tick = s.tick := rfl
@[simp] theorem State.setDie_draws_eq (s : State) (n : Nat) (v : Die) : (s.setDie n v).draws = s.draws := rfl

/-! ## Fields after setStack -/

@[simp] theorem State.setStack_device_eq (s : State) (n : Nat) (v : Stack) : (s.setStack n v).device = s.device := rfl
@[simp] theorem State.setStack_cores_eq (s : State) (n : Nat) (v : Stack) : (s.setStack n v).cores = s.cores := rfl
@[simp] theorem State.setStack_clusters_eq (s : State) (n : Nat) (v : Stack) : (s.setStack n v).clusters = s.clusters := rfl
@[simp] theorem State.setStack_dies_eq (s : State) (n : Nat) (v : Stack) : (s.setStack n v).dies = s.dies := rfl
@[simp] theorem State.setStack_memory_eq (s : State) (n : Nat) (v : Stack) : (s.setStack n v).memory = s.memory := rfl
@[simp] theorem State.setStack_frames_eq (s : State) (n : Nat) (v : Stack) : (s.setStack n v).frames = s.frames := rfl
@[simp] theorem State.setStack_tableNext_eq (s : State) (n : Nat) (v : Stack) : (s.setStack n v).tableNext = s.tableNext := rfl
@[simp] theorem State.setStack_tableFree_eq (s : State) (n : Nat) (v : Stack) : (s.setStack n v).tableFree = s.tableFree := rfl
@[simp] theorem State.setStack_retired_eq (s : State) (n : Nat) (v : Stack) : (s.setStack n v).retired = s.retired := rfl
@[simp] theorem State.setStack_parts_eq (s : State) (n : Nat) (v : Stack) : (s.setStack n v).parts = s.parts := rfl
@[simp] theorem State.setStack_queues_eq (s : State) (n : Nat) (v : Stack) : (s.setStack n v).queues = s.queues := rfl
@[simp] theorem State.setStack_blockCache_eq (s : State) (n : Nat) (v : Stack) : (s.setStack n v).blockCache = s.blockCache := rfl
@[simp] theorem State.setStack_bells_eq (s : State) (n : Nat) (v : Stack) : (s.setStack n v).bells = s.bells := rfl
@[simp] theorem State.setStack_launches_eq (s : State) (n : Nat) (v : Stack) : (s.setStack n v).launches = s.launches := rfl
@[simp] theorem State.setStack_nextLaunch_eq (s : State) (n : Nat) (v : Stack) : (s.setStack n v).nextLaunch = s.nextLaunch := rfl
@[simp] theorem State.setStack_pans_eq (s : State) (n : Nat) (v : Stack) : (s.setStack n v).pans = s.pans := rfl
@[simp] theorem State.setStack_panCount_eq (s : State) (n : Nat) (v : Stack) : (s.setStack n v).panCount = s.panCount := rfl
@[simp] theorem State.setStack_panWaits_eq (s : State) (n : Nat) (v : Stack) : (s.setStack n v).panWaits = s.panWaits := rfl
@[simp] theorem State.setStack_domain_eq (s : State) (n : Nat) (v : Stack) : (s.setStack n v).domain = s.domain := rfl
@[simp] theorem State.setStack_asleep_eq (s : State) (n : Nat) (v : Stack) : (s.setStack n v).asleep = s.asleep := rfl
@[simp] theorem State.setStack_backs_eq (s : State) (n : Nat) (v : Stack) : (s.setStack n v).backs = s.backs := rfl
@[simp] theorem State.setStack_breaks_eq (s : State) (n : Nat) (v : Stack) : (s.setStack n v).breaks = s.breaks := rfl
@[simp] theorem State.setStack_watches_eq (s : State) (n : Nat) (v : Stack) : (s.setStack n v).watches = s.watches := rfl
@[simp] theorem State.setStack_router_eq (s : State) (n : Nat) (v : Stack) : (s.setStack n v).router = s.router := rfl
@[simp] theorem State.setStack_host_eq (s : State) (n : Nat) (v : Stack) : (s.setStack n v).host = s.host := rfl
@[simp] theorem State.setStack_mgmt_eq (s : State) (n : Nat) (v : Stack) : (s.setStack n v).mgmt = s.mgmt := rfl
@[simp] theorem State.setStack_film_eq (s : State) (n : Nat) (v : Stack) : (s.setStack n v).film = s.film := rfl
@[simp] theorem State.setStack_filmSeq_eq (s : State) (n : Nat) (v : Stack) : (s.setStack n v).filmSeq = s.filmSeq := rfl
@[simp] theorem State.setStack_filmTime_eq (s : State) (n : Nat) (v : Stack) : (s.setStack n v).filmTime = s.filmTime := rfl
@[simp] theorem State.setStack_agenda_eq (s : State) (n : Nat) (v : Stack) : (s.setStack n v).agenda = s.agenda := rfl
@[simp] theorem State.setStack_event_eq (s : State) (n : Nat) (v : Stack) : (s.setStack n v).event = s.event := rfl
@[simp] theorem State.setStack_outbox_eq (s : State) (n : Nat) (v : Stack) : (s.setStack n v).outbox = s.outbox := rfl
@[simp] theorem State.setStack_current_eq (s : State) (n : Nat) (v : Stack) : (s.setStack n v).current = s.current := rfl
@[simp] theorem State.setStack_tick_eq (s : State) (n : Nat) (v : Stack) : (s.setStack n v).tick = s.tick := rfl
@[simp] theorem State.setStack_draws_eq (s : State) (n : Nat) (v : Stack) : (s.setStack n v).draws = s.draws := rfl

/-! ## Fields after setPart -/

@[simp] theorem State.setPart_device_eq (s : State) (n : Nat) (v : Partition) : (s.setPart n v).device = s.device := rfl
@[simp] theorem State.setPart_cores_eq (s : State) (n : Nat) (v : Partition) : (s.setPart n v).cores = s.cores := rfl
@[simp] theorem State.setPart_clusters_eq (s : State) (n : Nat) (v : Partition) : (s.setPart n v).clusters = s.clusters := rfl
@[simp] theorem State.setPart_dies_eq (s : State) (n : Nat) (v : Partition) : (s.setPart n v).dies = s.dies := rfl
@[simp] theorem State.setPart_hbm_eq (s : State) (n : Nat) (v : Partition) : (s.setPart n v).hbm = s.hbm := rfl
@[simp] theorem State.setPart_memory_eq (s : State) (n : Nat) (v : Partition) : (s.setPart n v).memory = s.memory := rfl
@[simp] theorem State.setPart_frames_eq (s : State) (n : Nat) (v : Partition) : (s.setPart n v).frames = s.frames := rfl
@[simp] theorem State.setPart_tableNext_eq (s : State) (n : Nat) (v : Partition) : (s.setPart n v).tableNext = s.tableNext := rfl
@[simp] theorem State.setPart_tableFree_eq (s : State) (n : Nat) (v : Partition) : (s.setPart n v).tableFree = s.tableFree := rfl
@[simp] theorem State.setPart_retired_eq (s : State) (n : Nat) (v : Partition) : (s.setPart n v).retired = s.retired := rfl
@[simp] theorem State.setPart_queues_eq (s : State) (n : Nat) (v : Partition) : (s.setPart n v).queues = s.queues := rfl
@[simp] theorem State.setPart_blockCache_eq (s : State) (n : Nat) (v : Partition) : (s.setPart n v).blockCache = s.blockCache := rfl
@[simp] theorem State.setPart_bells_eq (s : State) (n : Nat) (v : Partition) : (s.setPart n v).bells = s.bells := rfl
@[simp] theorem State.setPart_launches_eq (s : State) (n : Nat) (v : Partition) : (s.setPart n v).launches = s.launches := rfl
@[simp] theorem State.setPart_nextLaunch_eq (s : State) (n : Nat) (v : Partition) : (s.setPart n v).nextLaunch = s.nextLaunch := rfl
@[simp] theorem State.setPart_pans_eq (s : State) (n : Nat) (v : Partition) : (s.setPart n v).pans = s.pans := rfl
@[simp] theorem State.setPart_panCount_eq (s : State) (n : Nat) (v : Partition) : (s.setPart n v).panCount = s.panCount := rfl
@[simp] theorem State.setPart_panWaits_eq (s : State) (n : Nat) (v : Partition) : (s.setPart n v).panWaits = s.panWaits := rfl
@[simp] theorem State.setPart_domain_eq (s : State) (n : Nat) (v : Partition) : (s.setPart n v).domain = s.domain := rfl
@[simp] theorem State.setPart_asleep_eq (s : State) (n : Nat) (v : Partition) : (s.setPart n v).asleep = s.asleep := rfl
@[simp] theorem State.setPart_backs_eq (s : State) (n : Nat) (v : Partition) : (s.setPart n v).backs = s.backs := rfl
@[simp] theorem State.setPart_breaks_eq (s : State) (n : Nat) (v : Partition) : (s.setPart n v).breaks = s.breaks := rfl
@[simp] theorem State.setPart_watches_eq (s : State) (n : Nat) (v : Partition) : (s.setPart n v).watches = s.watches := rfl
@[simp] theorem State.setPart_router_eq (s : State) (n : Nat) (v : Partition) : (s.setPart n v).router = s.router := rfl
@[simp] theorem State.setPart_host_eq (s : State) (n : Nat) (v : Partition) : (s.setPart n v).host = s.host := rfl
@[simp] theorem State.setPart_mgmt_eq (s : State) (n : Nat) (v : Partition) : (s.setPart n v).mgmt = s.mgmt := rfl
@[simp] theorem State.setPart_film_eq (s : State) (n : Nat) (v : Partition) : (s.setPart n v).film = s.film := rfl
@[simp] theorem State.setPart_filmSeq_eq (s : State) (n : Nat) (v : Partition) : (s.setPart n v).filmSeq = s.filmSeq := rfl
@[simp] theorem State.setPart_filmTime_eq (s : State) (n : Nat) (v : Partition) : (s.setPart n v).filmTime = s.filmTime := rfl
@[simp] theorem State.setPart_agenda_eq (s : State) (n : Nat) (v : Partition) : (s.setPart n v).agenda = s.agenda := rfl
@[simp] theorem State.setPart_event_eq (s : State) (n : Nat) (v : Partition) : (s.setPart n v).event = s.event := rfl
@[simp] theorem State.setPart_outbox_eq (s : State) (n : Nat) (v : Partition) : (s.setPart n v).outbox = s.outbox := rfl
@[simp] theorem State.setPart_current_eq (s : State) (n : Nat) (v : Partition) : (s.setPart n v).current = s.current := rfl
@[simp] theorem State.setPart_tick_eq (s : State) (n : Nat) (v : Partition) : (s.setPart n v).tick = s.tick := rfl
@[simp] theorem State.setPart_draws_eq (s : State) (n : Nat) (v : Partition) : (s.setPart n v).draws = s.draws := rfl

/-! ## Fields after push -/

@[simp] theorem State.push_device_eq (s : State) (e : Event) : (s.push e).device = s.device := rfl
@[simp] theorem State.push_cores_eq (s : State) (e : Event) : (s.push e).cores = s.cores := rfl
@[simp] theorem State.push_clusters_eq (s : State) (e : Event) : (s.push e).clusters = s.clusters := rfl
@[simp] theorem State.push_dies_eq (s : State) (e : Event) : (s.push e).dies = s.dies := rfl
@[simp] theorem State.push_hbm_eq (s : State) (e : Event) : (s.push e).hbm = s.hbm := rfl
@[simp] theorem State.push_memory_eq (s : State) (e : Event) : (s.push e).memory = s.memory := rfl
@[simp] theorem State.push_frames_eq (s : State) (e : Event) : (s.push e).frames = s.frames := rfl
@[simp] theorem State.push_tableNext_eq (s : State) (e : Event) : (s.push e).tableNext = s.tableNext := rfl
@[simp] theorem State.push_tableFree_eq (s : State) (e : Event) : (s.push e).tableFree = s.tableFree := rfl
@[simp] theorem State.push_retired_eq (s : State) (e : Event) : (s.push e).retired = s.retired := rfl
@[simp] theorem State.push_parts_eq (s : State) (e : Event) : (s.push e).parts = s.parts := rfl
@[simp] theorem State.push_queues_eq (s : State) (e : Event) : (s.push e).queues = s.queues := rfl
@[simp] theorem State.push_blockCache_eq (s : State) (e : Event) : (s.push e).blockCache = s.blockCache := rfl
@[simp] theorem State.push_bells_eq (s : State) (e : Event) : (s.push e).bells = s.bells := rfl
@[simp] theorem State.push_launches_eq (s : State) (e : Event) : (s.push e).launches = s.launches := rfl
@[simp] theorem State.push_nextLaunch_eq (s : State) (e : Event) : (s.push e).nextLaunch = s.nextLaunch := rfl
@[simp] theorem State.push_pans_eq (s : State) (e : Event) : (s.push e).pans = s.pans := rfl
@[simp] theorem State.push_panCount_eq (s : State) (e : Event) : (s.push e).panCount = s.panCount := rfl
@[simp] theorem State.push_panWaits_eq (s : State) (e : Event) : (s.push e).panWaits = s.panWaits := rfl
@[simp] theorem State.push_domain_eq (s : State) (e : Event) : (s.push e).domain = s.domain := rfl
@[simp] theorem State.push_asleep_eq (s : State) (e : Event) : (s.push e).asleep = s.asleep := rfl
@[simp] theorem State.push_backs_eq (s : State) (e : Event) : (s.push e).backs = s.backs := rfl
@[simp] theorem State.push_breaks_eq (s : State) (e : Event) : (s.push e).breaks = s.breaks := rfl
@[simp] theorem State.push_watches_eq (s : State) (e : Event) : (s.push e).watches = s.watches := rfl
@[simp] theorem State.push_router_eq (s : State) (e : Event) : (s.push e).router = s.router := rfl
@[simp] theorem State.push_host_eq (s : State) (e : Event) : (s.push e).host = s.host := rfl
@[simp] theorem State.push_mgmt_eq (s : State) (e : Event) : (s.push e).mgmt = s.mgmt := rfl
@[simp] theorem State.push_film_eq (s : State) (e : Event) : (s.push e).film = s.film := rfl
@[simp] theorem State.push_filmSeq_eq (s : State) (e : Event) : (s.push e).filmSeq = s.filmSeq := rfl
@[simp] theorem State.push_filmTime_eq (s : State) (e : Event) : (s.push e).filmTime = s.filmTime := rfl
@[simp] theorem State.push_event_eq (s : State) (e : Event) : (s.push e).event = s.event := rfl
@[simp] theorem State.push_outbox_eq (s : State) (e : Event) : (s.push e).outbox = s.outbox := rfl
@[simp] theorem State.push_current_eq (s : State) (e : Event) : (s.push e).current = s.current := rfl
@[simp] theorem State.push_tick_eq (s : State) (e : Event) : (s.push e).tick = s.tick := rfl
@[simp] theorem State.push_draws_eq (s : State) (e : Event) : (s.push e).draws = s.draws := rfl

/-! ## Fields after emit -/

@[simp] theorem State.emit_device_eq (s : State) (o : Output) : (s.emit o).device = s.device := rfl
@[simp] theorem State.emit_cores_eq (s : State) (o : Output) : (s.emit o).cores = s.cores := rfl
@[simp] theorem State.emit_clusters_eq (s : State) (o : Output) : (s.emit o).clusters = s.clusters := rfl
@[simp] theorem State.emit_dies_eq (s : State) (o : Output) : (s.emit o).dies = s.dies := rfl
@[simp] theorem State.emit_hbm_eq (s : State) (o : Output) : (s.emit o).hbm = s.hbm := rfl
@[simp] theorem State.emit_memory_eq (s : State) (o : Output) : (s.emit o).memory = s.memory := rfl
@[simp] theorem State.emit_frames_eq (s : State) (o : Output) : (s.emit o).frames = s.frames := rfl
@[simp] theorem State.emit_tableNext_eq (s : State) (o : Output) : (s.emit o).tableNext = s.tableNext := rfl
@[simp] theorem State.emit_tableFree_eq (s : State) (o : Output) : (s.emit o).tableFree = s.tableFree := rfl
@[simp] theorem State.emit_retired_eq (s : State) (o : Output) : (s.emit o).retired = s.retired := rfl
@[simp] theorem State.emit_parts_eq (s : State) (o : Output) : (s.emit o).parts = s.parts := rfl
@[simp] theorem State.emit_queues_eq (s : State) (o : Output) : (s.emit o).queues = s.queues := rfl
@[simp] theorem State.emit_blockCache_eq (s : State) (o : Output) : (s.emit o).blockCache = s.blockCache := rfl
@[simp] theorem State.emit_bells_eq (s : State) (o : Output) : (s.emit o).bells = s.bells := rfl
@[simp] theorem State.emit_launches_eq (s : State) (o : Output) : (s.emit o).launches = s.launches := rfl
@[simp] theorem State.emit_nextLaunch_eq (s : State) (o : Output) : (s.emit o).nextLaunch = s.nextLaunch := rfl
@[simp] theorem State.emit_pans_eq (s : State) (o : Output) : (s.emit o).pans = s.pans := rfl
@[simp] theorem State.emit_panCount_eq (s : State) (o : Output) : (s.emit o).panCount = s.panCount := rfl
@[simp] theorem State.emit_panWaits_eq (s : State) (o : Output) : (s.emit o).panWaits = s.panWaits := rfl
@[simp] theorem State.emit_domain_eq (s : State) (o : Output) : (s.emit o).domain = s.domain := rfl
@[simp] theorem State.emit_asleep_eq (s : State) (o : Output) : (s.emit o).asleep = s.asleep := rfl
@[simp] theorem State.emit_backs_eq (s : State) (o : Output) : (s.emit o).backs = s.backs := rfl
@[simp] theorem State.emit_breaks_eq (s : State) (o : Output) : (s.emit o).breaks = s.breaks := rfl
@[simp] theorem State.emit_watches_eq (s : State) (o : Output) : (s.emit o).watches = s.watches := rfl
@[simp] theorem State.emit_router_eq (s : State) (o : Output) : (s.emit o).router = s.router := rfl
@[simp] theorem State.emit_host_eq (s : State) (o : Output) : (s.emit o).host = s.host := rfl
@[simp] theorem State.emit_mgmt_eq (s : State) (o : Output) : (s.emit o).mgmt = s.mgmt := rfl
@[simp] theorem State.emit_film_eq (s : State) (o : Output) : (s.emit o).film = s.film := rfl
@[simp] theorem State.emit_filmSeq_eq (s : State) (o : Output) : (s.emit o).filmSeq = s.filmSeq := rfl
@[simp] theorem State.emit_filmTime_eq (s : State) (o : Output) : (s.emit o).filmTime = s.filmTime := rfl
@[simp] theorem State.emit_agenda_eq (s : State) (o : Output) : (s.emit o).agenda = s.agenda := rfl
@[simp] theorem State.emit_event_eq (s : State) (o : Output) : (s.emit o).event = s.event := rfl
@[simp] theorem State.emit_current_eq (s : State) (o : Output) : (s.emit o).current = s.current := rfl
@[simp] theorem State.emit_tick_eq (s : State) (o : Output) : (s.emit o).tick = s.tick := rfl
@[simp] theorem State.emit_draws_eq (s : State) (o : Output) : (s.emit o).draws = s.draws := rfl

/-! ## Fields of a core after Core.setSlot -/

@[simp] theorem Core.setSlot_cell_eq (k : Core) (i : Nat) (v : Slot) : (k.setSlot i v).cell = k.cell := rfl
@[simp] theorem Core.setSlot_left_eq (k : Core) (i : Nat) (v : Slot) : (k.setSlot i v).left = k.left := rfl
@[simp] theorem Core.setSlot_store_eq (k : Core) (i : Nat) (v : Slot) : (k.setSlot i v).store = k.store := rfl
@[simp] theorem Core.setSlot_plane_eq (k : Core) (i : Nat) (v : Slot) : (k.setSlot i v).plane = k.plane := rfl
@[simp] theorem Core.setSlot_acc_eq (k : Core) (i : Nat) (v : Slot) : (k.setSlot i v).acc = k.acc := rfl
@[simp] theorem Core.setSlot_accBad_eq (k : Core) (i : Nat) (v : Slot) : (k.setSlot i v).accBad = k.accBad := rfl
@[simp] theorem Core.setSlot_accFound_eq (k : Core) (i : Nat) (v : Slot) : (k.setSlot i v).accFound = k.accFound := rfl
@[simp] theorem Core.setSlot_tables_eq (k : Core) (i : Nat) (v : Slot) : (k.setSlot i v).tables = k.tables := rfl
@[simp] theorem Core.setSlot_sems_eq (k : Core) (i : Nat) (v : Slot) : (k.setSlot i v).sems = k.sems := rfl
@[simp] theorem Core.setSlot_rings_eq (k : Core) (i : Nat) (v : Slot) : (k.setSlot i v).rings = k.rings := rfl
@[simp] theorem Core.setSlot_intake_eq (k : Core) (i : Nat) (v : Slot) : (k.setSlot i v).intake = k.intake := rfl
@[simp] theorem Core.setSlot_intakeGranted_eq (k : Core) (i : Nat) (v : Slot) : (k.setSlot i v).intakeGranted = k.intakeGranted := rfl
@[simp] theorem Core.setSlot_intakeTicket_eq (k : Core) (i : Nat) (v : Slot) : (k.setSlot i v).intakeTicket = k.intakeTicket := rfl
@[simp] theorem Core.setSlot_intakeOutstanding_eq (k : Core) (i : Nat) (v : Slot) : (k.setSlot i v).intakeOutstanding = k.intakeOutstanding := rfl
@[simp] theorem Core.setSlot_intakeAt_eq (k : Core) (i : Nat) (v : Slot) : (k.setSlot i v).intakeAt = k.intakeAt := rfl
@[simp] theorem Core.setSlot_intakeSlot_eq (k : Core) (i : Nat) (v : Slot) : (k.setSlot i v).intakeSlot = k.intakeSlot := rfl
@[simp] theorem Core.setSlot_retry_eq (k : Core) (i : Nat) (v : Slot) : (k.setSlot i v).retry = k.retry := rfl
@[simp] theorem Core.setSlot_lines_eq (k : Core) (i : Nat) (v : Slot) : (k.setSlot i v).lines = k.lines := rfl
@[simp] theorem Core.setSlot_code_eq (k : Core) (i : Nat) (v : Slot) : (k.setSlot i v).code = k.code := rfl
@[simp] theorem Core.setSlot_logging_eq (k : Core) (i : Nat) (v : Slot) : (k.setSlot i v).logging = k.logging := rfl
@[simp] theorem Core.setSlot_logCount_eq (k : Core) (i : Nat) (v : Slot) : (k.setSlot i v).logCount = k.logCount := rfl
@[simp] theorem Core.setSlot_logMerged_eq (k : Core) (i : Nat) (v : Slot) : (k.setSlot i v).logMerged = k.logMerged := rfl
@[simp] theorem Core.setSlot_logFilter_eq (k : Core) (i : Nat) (v : Slot) : (k.setSlot i v).logFilter = k.logFilter := rfl
@[simp] theorem Core.setSlot_cpy_eq (k : Core) (i : Nat) (v : Slot) : (k.setSlot i v).cpy = k.cpy := rfl
@[simp] theorem Core.setSlot_mx_eq (k : Core) (i : Nat) (v : Slot) : (k.setSlot i v).mx = k.mx := rfl
@[simp] theorem Core.setSlot_vx_eq (k : Core) (i : Nat) (v : Slot) : (k.setSlot i v).vx = k.vx := rfl
@[simp] theorem Core.setSlot_fab_eq (k : Core) (i : Nat) (v : Slot) : (k.setSlot i v).fab = k.fab := rfl
@[simp] theorem Core.setSlot_slotWait_eq (k : Core) (i : Nat) (v : Slot) : (k.setSlot i v).slotWait = k.slotWait := rfl
@[simp] theorem Core.setSlot_faults_eq (k : Core) (i : Nat) (v : Slot) : (k.setSlot i v).faults = k.faults := rfl
@[simp] theorem Core.setSlot_maps_eq (k : Core) (i : Nat) (v : Slot) : (k.setSlot i v).maps = k.maps := rfl
@[simp] theorem Core.setSlot_credits_eq (k : Core) (i : Nat) (v : Slot) : (k.setSlot i v).credits = k.credits := rfl
@[simp] theorem Core.setSlot_cycles_eq (k : Core) (i : Nat) (v : Slot) : (k.setSlot i v).cycles = k.cycles := rfl
@[simp] theorem Core.setSlot_created_eq (k : Core) (i : Nat) (v : Slot) : (k.setSlot i v).created = k.created := rfl
@[simp] theorem Core.setSlot_ue_eq (k : Core) (i : Nat) (v : Slot) : (k.setSlot i v).ue = k.ue := rfl
@[simp] theorem Core.setSlot_ce_eq (k : Core) (i : Nat) (v : Slot) : (k.setSlot i v).ce = k.ce := rfl
@[simp] theorem Core.setSlot_gated_eq (k : Core) (i : Nat) (v : Slot) : (k.setSlot i v).gated = k.gated := rfl
@[simp] theorem Core.setSlot_idleFor_eq (k : Core) (i : Nat) (v : Slot) : (k.setSlot i v).idleFor = k.idleFor := rfl
@[simp] theorem Core.setSlot_handling_eq (k : Core) (i : Nat) (v : Slot) : (k.setSlot i v).handling = k.handling := rfl
@[simp] theorem Core.setSlot_posts_eq (k : Core) (i : Nat) (v : Slot) : (k.setSlot i v).posts = k.posts := rfl
@[simp] theorem Core.setSlot_cellD_eq (k : Core) (i : Nat) (v : Slot) : (k.setSlot i v).cellD = k.cellD := rfl

/-! ## Fields of a slot after setRes -/

@[simp] theorem Slot.setRes_st_eq (sl : Slot) (r : Nat) (v : Word) : (sl.setRes r v).st = sl.st := rfl
@[simp] theorem Slot.setRes_serial_eq (sl : Slot) (r : Nat) (v : Word) : (sl.setRes r v).serial = sl.serial := rfl
@[simp] theorem Slot.setRes_exitSerial_eq (sl : Slot) (r : Nat) (v : Word) : (sl.setRes r v).exitSerial = sl.exitSerial := rfl
@[simp] theorem Slot.setRes_exitValue_eq (sl : Slot) (r : Nat) (v : Word) : (sl.setRes r v).exitValue = sl.exitValue := rfl
@[simp] theorem Slot.setRes_pc_eq (sl : Slot) (r : Nat) (v : Word) : (sl.setRes r v).pc = sl.pc := rfl
@[simp] theorem Slot.setRes_x_eq (sl : Slot) (r : Nat) (v : Word) : (sl.setRes r v).x = sl.x := rfl
@[simp] theorem Slot.setRes_g_eq (sl : Slot) (r : Nat) (v : Word) : (sl.setRes r v).g = sl.g := rfl
@[simp] theorem Slot.setRes_segL_eq (sl : Slot) (r : Nat) (v : Word) : (sl.setRes r v).segL = sl.segL := rfl
@[simp] theorem Slot.setRes_segH_eq (sl : Slot) (r : Nat) (v : Word) : (sl.setRes r v).segH = sl.segH := rfl
@[simp] theorem Slot.setRes_stage_eq (sl : Slot) (r : Nat) (v : Word) : (sl.setRes r v).stage = sl.stage := rfl
@[simp] theorem Slot.setRes_opnd_eq (sl : Slot) (r : Nat) (v : Word) : (sl.setRes r v).opnd = sl.opnd := rfl
@[simp] theorem Slot.setRes_fflags_eq (sl : Slot) (r : Nat) (v : Word) : (sl.setRes r v).fflags = sl.fflags := rfl
@[simp] theorem Slot.setRes_fmode_eq (sl : Slot) (r : Nat) (v : Word) : (sl.setRes r v).fmode = sl.fmode := rfl
@[simp] theorem Slot.setRes_srseed_eq (sl : Slot) (r : Nat) (v : Word) : (sl.setRes r v).srseed = sl.srseed := rfl
@[simp] theorem Slot.setRes_waitdesc_eq (sl : Slot) (r : Nat) (v : Word) : (sl.setRes r v).waitdesc = sl.waitdesc := rfl
@[simp] theorem Slot.setRes_level_eq (sl : Slot) (r : Nat) (v : Word) : (sl.setRes r v).level = sl.level := rfl
@[simp] theorem Slot.setRes_base_eq (sl : Slot) (r : Nat) (v : Word) : (sl.setRes r v).base = sl.base := rfl
@[simp] theorem Slot.setRes_age_eq (sl : Slot) (r : Nat) (v : Word) : (sl.setRes r v).age = sl.age := rfl
@[simp] theorem Slot.setRes_yield_eq (sl : Slot) (r : Nat) (v : Word) : (sl.setRes r v).yield = sl.yield := rfl
@[simp] theorem Slot.setRes_wake_eq (sl : Slot) (r : Nat) (v : Word) : (sl.setRes r v).wake = sl.wake := rfl
@[simp] theorem Slot.setRes_step_eq (sl : Slot) (r : Nat) (v : Word) : (sl.setRes r v).step = sl.step := rfl
@[simp] theorem Slot.setRes_skipBreak_eq (sl : Slot) (r : Nat) (v : Word) : (sl.setRes r v).skipBreak = sl.skipBreak := rfl
@[simp] theorem Slot.setRes_stopReq_eq (sl : Slot) (r : Nat) (v : Word) : (sl.setRes r v).stopReq = sl.stopReq := rfl
@[simp] theorem Slot.setRes_squashes_eq (sl : Slot) (r : Nat) (v : Word) : (sl.setRes r v).squashes = sl.squashes := rfl
@[simp] theorem Slot.setRes_gsi_eq (sl : Slot) (r : Nat) (v : Word) : (sl.setRes r v).gsi = sl.gsi := rfl
@[simp] theorem Slot.setRes_readyAt_eq (sl : Slot) (r : Nat) (v : Word) : (sl.setRes r v).readyAt = sl.readyAt := rfl
@[simp] theorem Slot.setRes_issuedAt_eq (sl : Slot) (r : Nat) (v : Word) : (sl.setRes r v).issuedAt = sl.issuedAt := rfl
@[simp] theorem Slot.setRes_fetchLost_eq (sl : Slot) (r : Nat) (v : Word) : (sl.setRes r v).fetchLost = sl.fetchLost := rfl
@[simp] theorem Slot.setRes_fetchAt_eq (sl : Slot) (r : Nat) (v : Word) : (sl.setRes r v).fetchAt = sl.fetchAt := rfl
@[simp] theorem Slot.setRes_seen_eq (sl : Slot) (r : Nat) (v : Word) : (sl.setRes r v).seen = sl.seen := rfl
@[simp] theorem Slot.setRes_units_eq (sl : Slot) (r : Nat) (v : Word) : (sl.setRes r v).units = sl.units := rfl
@[simp] theorem Slot.setRes_fetch_eq (sl : Slot) (r : Nat) (v : Word) : (sl.setRes r v).fetch = sl.fetch := rfl
@[simp] theorem Slot.setRes_held_eq (sl : Slot) (r : Nat) (v : Word) : (sl.setRes r v).held = sl.held := rfl
@[simp] theorem Slot.setRes_park_eq (sl : Slot) (r : Nat) (v : Word) : (sl.setRes r v).park = sl.park := rfl
@[simp] theorem Slot.setRes_trap_eq (sl : Slot) (r : Nat) (v : Word) : (sl.setRes r v).trap = sl.trap := rfl
@[simp] theorem Slot.setRes_killBy_eq (sl : Slot) (r : Nat) (v : Word) : (sl.setRes r v).killBy = sl.killBy := rfl
@[simp] theorem Slot.setRes_port (sl : Slot) (r : Nat) (v : Word) : (sl.setRes r v).port r = ⟨v, false, 0, 0⟩ := by
  simp [Slot.setRes, Slot.port]

theorem Slot.setRes_port_ne (sl : Slot) (r q : Nat) (v : Word) (h : q ≠ r) : (sl.setRes r v).port q = sl.port q := by
  simp [Slot.setRes, Slot.port, table_get_set_ne _ _ _ _ _ h]

@[simp] theorem Slot.setRes_readX (sl : Slot) (r : Nat) (v : Word) (n : Nat) : (sl.setRes r v).readX n = sl.readX n := rfl

@[simp] theorem Slot.setRes_readG (sl : Slot) (r : Nat) (v : Word) (n : Nat) : (sl.setRes r v).readG n = sl.readG n := rfl

@[simp] theorem Slot.setRes_operand (sl : Slot) (r : Nat) (v : Word) (d : Nat) : (sl.setRes r v).operand d = sl.operand d := rfl

/-! ## Register writes: x0 and g0 are constant (04 R76, R77) -/

@[simp] theorem Slot.readX_zero (sl : Slot) : sl.readX 0 = 0 := rfl

@[simp] theorem Slot.readG_zero (sl : Slot) : sl.readG 0 = true := rfl

@[simp] theorem Slot.writeX_zero (sl : Slot) (v : Word) : sl.writeX 0 v = sl := rfl

@[simp] theorem Slot.writeG_zero (sl : Slot) (v : Word) : sl.writeG 0 v = sl := rfl

theorem Slot.writeX_readX (sl : Slot) (n : Nat) (v : Word) (h : n ≠ 0) : (sl.writeX n v).readX n = v := by
  simp [Slot.writeX, Slot.readX, h]

theorem Slot.writeX_readX_ne (sl : Slot) (n m : Nat) (v : Word) (h : m ≠ n) : (sl.writeX n v).readX m = sl.readX m := by
  by_cases hn : n = 0
  · simp [Slot.writeX, hn]
  · simp [Slot.writeX, Slot.readX, hn, table_get_set_ne _ _ _ _ _ h]

theorem Slot.writeG_readG (sl : Slot) (n : Nat) (v : Word) (h : n ≠ 0) : (sl.writeG n v).readG n = v.getLsbD 0 := by
  simp [Slot.writeG, Slot.readG, h]

theorem Slot.writeG_readG_ne (sl : Slot) (n m : Nat) (v : Word) (h : m ≠ n) : (sl.writeG n v).readG m = sl.readG m := by
  by_cases hn : n = 0
  · simp [Slot.writeG, hn]
  · simp [Slot.writeG, Slot.readG, hn, table_get_set_ne _ _ _ _ _ h]

end Sys2Proof.Machine
end

