-- ==== Sys2Proof/Safety.lean ====
section
/-! DEFINITION. What a safe run is, and the terms that the statements use. -/

namespace Sys2Proof

open Sys2Proof.Machine

/-- The store and the B plane of a core are in canonical form. -/
def coreWf (k : Core) : Prop := k.store.wf = true ∧ k.plane.wf = true

/-- Every memory of a state is in canonical form: device memory, and the store and the B plane of each core, in its cluster or saved with its
gang. -/
def memoriesWf (s : State) : Prop :=
  s.memory.wf = true ∧ (∀ e ∈ s.cores, coreWf e.2) ∧ ∀ l ∈ s.launches, ∀ g ∈ l.2.gangs, ∀ e ∈ g.2.saved, coreWf e.2

/-- A step of the state ends in a next state. -/
def stepsOn (s : State) : Prop := ∃ t, step s = .next t

end Sys2Proof

namespace Sys2Proof.Machine

/-- The strand in the pipeline is that of slot i of core c: its word has been issued, it waits for nothing and for no
reply, no result of it is pending, it is not to stop and it is not stepped (02 R40, R53, R57, 17 R433). -/
structure OnStage (s : State) (c i : Nat) : Prop where
  current : s.current = some (c, i)
  issued : (s.slot c i).st = .issued
  ports : ∀ r, ((s.slot c i).port r).pending = false
  unstepped : (s.slot c i).step = false
  unstopped : (s.slot c i).stopReq = false
  unparked : (s.slot c i).park = none
  unheld : (s.slot c i).held = none

/-- The strand in the pipeline holds a lone word whose move is live (02 R32, 03 R64). -/
structure LoneReady (s : State) (c i : Nat) (m : Lone) : Prop extends OnStage s c i where
  live : (s.slot c i).readG (m.guard.toNat % 8) ≠ m.guard.getLsbD 3

/-- The value that a lone word's move carries (02 R34, R36). -/
def State.loneValue (s : State) (c i : Nat) (m : Lone) : Word := s.source c i (DMove.ofMove (m.to 0) false)

/-- The slot of a strand that moves on to the word after an 8-byte word (02 R50). -/
def State.stepped (s : State) (c i : Nat) : Slot := { s.slot c i with pc := (s.slot c i).pc + 8 }

/-- The word retires: its strand, with the slot given, is READY again and may issue from the next cycle on, and no sooner than 8 cycles after the word's
issue (02 R53, 06 R116). -/
def State.retires (s : State) (c i : Nat) (sl : Slot) : State :=
  { s.setSlot c i { sl with st := .ready, held := none, fetch := none, skipBreak := false, readyAt := s.readyFrom c sl } with current := none }

/-- The word retires and its strand enters a wait (02 R56). -/
def State.waits (s : State) (c i : Nat) (sl : Slot) (p : Park) : State :=
  { s.setSlot c i { sl with st := p.state, park := some p, held := none, fetch := none, skipBreak := false } with current := none }

/-- A lone word has retired and all it did was to put a value on a result port (02 R40, R53). -/
def State.loneResult (s : State) (c i port : Nat) (v : Word) : State :=
  s.retires c i ((s.stepped c i).setRes port v)

/-- A lone word has retired after an effect on the device and with a value on a result port. -/
def State.loneEffect (s : State) (c i port : Nat) (v : Word) (effect : State → State) : State :=
  let u := effect (s.setSlot c i (s.stepped c i))
  u.retires c i ((u.slot c i).setRes port v)

/-- A lone word has retired after an effect on the device and with nothing on a result port. -/
def State.loneDone (s : State) (c i : Nat) (effect : State → State) : State :=
  let u := effect (s.setSlot c i (s.stepped c i))
  u.retires c i (u.slot c i)

/-- The registers of two slots are the same: general registers, guards, segments and staging halves, operand ports, flags,
rounding mode, stream, class and instance. -/
def sameRegs (a b : Slot) : Prop :=
  b.x = a.x ∧ b.g = a.g ∧ b.segL = a.segL ∧ b.segH = a.segH ∧ b.stage = a.stage ∧ b.opnd = a.opnd ∧ b.fflags = a.fflags
    ∧ b.fmode = a.fmode ∧ b.srseed = a.srseed ∧ b.base = a.base ∧ b.level = a.level ∧ b.serial = a.serial ∧ b.gsi = a.gsi

/-- A lone word has retired with its strand READY at the next word and a value on a result port, whatever else it did. -/
def endsWith (s t : State) (c i port : Nat) (v : Word) : Prop :=
  t.current = none ∧ (t.slot c i).st = .ready ∧ (t.slot c i).pc = (s.slot c i).pc + 8 ∧ ((t.slot c i).port port).val = v
    ∧ ((t.slot c i).port port).pending = false ∧ sameRegs (s.slot c i) (t.slot c i)

/-- A lone word has retired into a wait, after an effect on the device (02 R56). -/
def State.loneWait (s : State) (c i : Nat) (p : Park) (effect : State → State) : State :=
  let u := effect (s.setSlot c i (s.stepped c i))
  u.waits c i (u.slot c i) p

/-- A lone word has faulted: nothing of it took effect, and its strand traps with INFO naming the trigger (02 R59, 14 R350, R353). -/
def State.loneTrap (s : State) (c i : Nat) (m : Lone) (d : BitVec 14) (code : Nat) (addr : Option Word) : State :=
  s.trap c i ⟨code, 0, addr, d.setWidth 64⟩ false (s.slot c i).pc (pairWord (m.to d) Move.nop)

/-- The word has not committed: its strand is held in the slot state given until a reply comes or an agent lets it go on (02 R54, R55). -/
def State.isHeld (s : State) (c i : Nat) (why : Hold) (st : SlotState) : Prop :=
  s.current = none ∧ (s.slot c i).st = st ∧ ∃ h, (s.slot c i).held = some h ∧ h.why = why

/-- Nothing of two states differs but the core c and the word in the pipeline. -/
def sameBut (s t : State) (c : Nat) : Prop := ∃ k, t = { s.setCore c k with current := none }

/-- A strand whose word is held is in no wait: a word that is held has not committed, and a wait is entered by a word that retires (02 R54, R56). -/
def heldApart (s : State) : Prop := ∀ c i, (s.slot c i).held ≠ none → (s.slot c i).park = none

/-- Every slot of a core is listed once. -/
def slotsOnce (s : State) (c : Nat) : Prop := ((s.core c).slots.map (·.1)).Nodup

/-- A strand that is not to stop and is not stepped holds a word whose one live move is a trigger, for a reply; next is the offset after the word
(02 R54). -/
structure HeldLone (s : State) (c i : Nat) (d : BitVec 14) (v : Word) (why : Hold) (next : Word) : Prop where
  held : ∃ h, (s.slot c i).held = some h ∧ h.why = why ∧ h.moves = [⟨d, v, false⟩] ∧ h.next = next
  unstepped : (s.slot c i).step = false
  unstopped : (s.slot c i).stopReq = false
  unparked : (s.slot c i).park = none

/-- A held word has committed with a value on a result port: its strand is READY at the next word, from the next cycle on and no sooner than 8 cycles after
the word's issue (02 R53, R54). -/
def repliesWith (s t : State) (c i port : Nat) (v next : Word) : Prop :=
  (t.slot c i).st = .ready ∧ (t.slot c i).pc = next ∧ (t.slot c i).held = none ∧ (t.slot c i).readyAt = s.readyFrom c (s.slot c i)
    ∧ ((t.slot c i).port port).val = v ∧ ((t.slot c i).port port).pending = false ∧ sameRegs (s.slot c i) (t.slot c i)

/-- The packet p is the one that queue q has fetched, and the queue runs, with its block in the cache (16 R396, R399). -/
def State.mayIssue (s : State) (q : Nat) (p : Block) : Prop :=
  cbState (s.queueAt q).cb = 1 ∧ (s.queueAt q).fetched = some p ∧ s.blockCache.contains q = true

/-- The packet p of queue q has issued under its index with an INFO0: RDIDX has advanced by one (16 R399). -/
def issuesPacket (s t : State) (q : Nat) (p : Block) (info : Word) : Prop :=
  (t.queueAt q).issued = (s.queueAt q).issued ++ [⟨cbRdidx (s.queueAt q).cb, p, info, 0, 0⟩] ∧ (t.queueAt q).fetched = none
    ∧ cbRdidx (t.queueAt q).cb = (cbRdidx (s.queueAt q).cb + 1) % 2 ^ 32

/-- The packet has issued, and its completion is due (16 R399). -/
def completesPacket (s t : State) (q : Nat) (p : Block) (info : Word) : Prop :=
  issuesPacket s t q p info ∧ .packetComplete q (cbRdidx (s.queueAt q).cb) ∈ t.agenda

/-- The page of va is resident in a partition, is neither discarded nor lost, has the rights asked for, and has va at the physical address given
(07 R168). -/
def pageAt (s : State) (part va phys : Nat) (rd wr : Bool) : Prop :=
  va < 2 ^ 42 ∧ ∃ e size a, s.walk part va = .leaf e size a ∧ pteP e = true ∧ pteLost e = false ∧ pteDisc e = false
    ∧ (rd = true → pteRd e = true) ∧ (wr = true → pteWr e = true) ∧ phys = pteFrame e + va % size

end Sys2Proof.Machine
end

