-- ==== Sys2Proof/Laws/Words.lean ====
section
/-! SUPPORT. What a lone word does: the one lemma for each way that its operation ends. -/

namespace Sys2Proof.Machine

theorem OnStage.slot_eq {s : State} {c i : Nat} (h : OnStage s c i) : (s.slot c i).st = .issued := h.issued

/-- No move of a strand with no pending result waits for a port. -/
theorem Slot.waitsPort_false (sl : Slot) (h : ∀ r, (sl.port r).pending = false) (m : DMove) : sl.waitsPort m = false := by
  unfold Slot.waitsPort
  simp only [h, Bool.and_false, Bool.or_false]
  split <;> split <;> first | rfl | (split <;> rfl)

@[simp] theorem DMove.ofMove_dst (a : Move) (b : Bool) : (DMove.ofMove a b).dst = a.dst := rfl

@[simp] theorem Lone.to_dst (m : Lone) (d : BitVec 14) : (m.to d).dst = d := rfl

theorem source_to (s : State) (c i : Nat) (m : Lone) (d : BitVec 14) :
    s.source c i (DMove.ofMove (m.to d) false) = s.loneValue c i m := rfl

/-- Drains leave a slot with no pending result as it is. -/
theorem Slot.drain_eq (sl : Slot) (h : ∀ r, (sl.port r).pending = false) : sl.drain = sl := by
  simp [Slot.drain, Slot.deliver, h]

/-- The move of a lone word as its operation sees it. -/
def loneMove (s : State) (c i : Nat) (m : Lone) (d : BitVec 14) : MoveVal := ⟨d, s.loneValue c i m, false⟩

/-- A lone word whose checks pass is its commit (02 R50). -/
theorem runLone_fire {s : State} {c i : Nat} {m : Lone} (d : BitVec 14) (h : LoneReady s c i m)
    (hl : needsHandler d = true → (s.slot c i).level = 1) :
    runLone d m s = .next (s.fire c i [loneMove s c i m d] (s.slot c i).pc ((s.slot c i).pc + 8) (pairWord (m.to d) Move.nop)
      none) := by
  have live : (s.slot c i).live (DMove.ofMove (m.to d) false) = true := by
    simpa [Slot.live, DMove.ofMove, Lone.to] using h.live
  have port := Slot.waitsPort_false (s.slot c i) h.ports (DMove.ofMove (m.to d) false)
  have lev : ¬ ((s.slot c i).level ≠ 1 ∧ needsHandler d = true) := fun x => x.1 (hl x.2)
  simp only [runLone, runWord, h.current, State.runAt, List.filter_cons, List.filter_nil, live, if_true, List.any_cons, List.any_nil,
    port, DMove.ofMove_dst, Lone.to_dst, Bool.or_false, lev, if_false, anyConflict, Bool.false_eq_true, List.map_cons, List.map_nil]
  rfl

/-- A trigger writes nothing of its own: the slot of a lone word only moves on. -/
theorem writeMoves_trigger (sl : Slot) (m : MoveVal) (h : isTrigger m.dst = true) : sl.writeMoves [m] = sl := by
  simp [Slot.writeMoves, h]

/-- A word that retires with its strand not stopping and not waiting (02 R53). -/
theorem settle_ready (s : State) (c i : Nat) (here word : Word) (hstop : (s.slot c i).stopReq = false)
    (hpark : (s.slot c i).park = none) (hcur : s.current = some (c, i)) :
    s.settle c i here word false = s.retires c i (s.slot c i) := by
  simp only [State.settle, hstop, hpark, hcur, Bool.false_eq_true, if_false, if_true, State.retires]
  rfl

/-- A word that retires with its strand entering a wait (02 R56). -/
theorem settle_park (s : State) (c i : Nat) (here word : Word) (p : Park) (hstop : (s.slot c i).stopReq = false)
    (hpark : (s.slot c i).park = some p) (hcur : s.current = some (c, i)) :
    s.settle c i here word false = s.waits c i (s.slot c i) p := by
  simp only [State.settle, hstop, hpark, hcur, Bool.false_eq_true, if_false, if_true, State.waits]
  rfl

@[simp] theorem State.setSlot_retires (s : State) (c i : Nat) (v w : Slot) : (s.setSlot c i v).retires c i w = s.retires c i w := by
  simp [State.retires, State.readyFrom]

@[simp] theorem State.setSlot_waits (s : State) (c i : Nat) (v w : Slot) (p : Park) : (s.setSlot c i v).waits c i w p = s.waits c i w p := by
  simp [State.waits]

/-- What an immediate operation without a fault leaves (02 R44, R50). -/
theorem runLone_immediate {s : State} {c i : Nat} {m : Lone} (d : BitVec 14) (sl : Slot) (h : LoneReady s c i m)
    (ht : isTrigger d = true) (hi : isImmediate (blockOf d) = true) (hn : needsHandler d = false)
    (hop : immOp (s.immCtx c i (s.slot c i).pc ((s.slot c i).pc + 8)) d (s.loneValue c i m) (s.stepped c i) = .ok sl)
    (hstop : sl.stopReq = false) (hpark : sl.park = none) :
    runLone d m s = .next (s.retires c i sl) := by
  rw [runLone_fire d h (by simp [hn])]
  have hop' := hop
  simp only [State.stepped] at hop'
  simp only [State.fire, State.commitSlot, immediateMoves, loneMove, List.filter_cons, List.filter_nil, ht, hi, Bool.and_self, if_true,
    writeMoves_trigger _ ⟨d, s.loneValue c i m, false⟩ ht, immMoves, hop', resolvingMove, List.find?, Bool.not_true, Bool.and_false]
  rw [h.unstepped, settle_ready _ _ _ _ _ (by simpa using hstop) (by simpa using hpark) (by simpa using h.current)]
  simp

/-- What an immediate operation with a fault leaves: a trap on the state as it was (02 R59, 14 R350). -/
theorem runLone_immediate_fault {s : State} {c i : Nat} {m : Lone} (d : BitVec 14) (f : FaultInfo) (h : LoneReady s c i m)
    (ht : isTrigger d = true) (hi : isImmediate (blockOf d) = true) (hn : needsHandler d = false)
    (hop : immOp (s.immCtx c i (s.slot c i).pc ((s.slot c i).pc + 8)) d (s.loneValue c i m) (s.stepped c i) = .error f) :
    runLone d m s = .next (s.trap c i (withInfo f (loneMove s c i m d)) false (s.slot c i).pc (pairWord (m.to d) Move.nop)) := by
  rw [runLone_fire d h (by simp [hn])]
  have hop' := hop
  simp only [State.stepped] at hop'
  simp only [State.fire, State.commitSlot, immediateMoves, loneMove, List.filter_cons, List.filter_nil, ht, hi, Bool.and_self, if_true,
    writeMoves_trigger _ ⟨d, s.loneValue c i m, false⟩ ht, immMoves, hop']

/-- A lone word of a resolving unit is what its operation leaves (02 R50). -/
theorem runLone_resolving {s : State} {c i : Nat} {m : Lone} (d : BitVec 14) (h : LoneReady s c i m)
    (hl : needsHandler d = true → (s.slot c i).level = 1) (ht : isTrigger d = true) (hi : isImmediate (blockOf d) = false) :
    runLone d m s = .next (s.conclude c i [loneMove s c i m d] (loneMove s c i m d) (s.slot c i).pc ((s.slot c i).pc + 8)
      (pairWord (m.to d) Move.nop)
      (resolve ⟨c, i, loneMove s c i m d, (s.slot c i).pc, (s.slot c i).pc + 8, pairWord (m.to d) Move.nop⟩ (s.stepped c i) s none)) := by
  rw [runLone_fire d h hl]
  simp only [State.fire, State.commitSlot, immediateMoves, loneMove, List.filter_cons, List.filter_nil, ht, hi, Bool.and_false,
    Bool.false_eq_true, if_false, writeMoves_trigger _ ⟨d, s.loneValue c i m, false⟩ ht, immMoves, resolvingMove, List.find?,
    Bool.not_false, Bool.and_self]
  rfl

/-- An operation that is done with its strand still issued, not stopping and not waiting: the word retires. -/
theorem conclude_done (s u : State) (c i : Nat) (ms : List MoveVal) (m : MoveVal) (here next word : Word)
    (hst : (u.slot c i).st = .issued) (hstep : (s.slot c i).step = false) (hstop : (u.slot c i).stopReq = false)
    (hpark : (u.slot c i).park = none) (hcur : u.current = some (c, i)) :
    s.conclude c i ms m here next word (.done u) = u.retires c i (u.slot c i) := by
  simp only [State.conclude, hst, hstep, if_true, settle_ready u c i here word hstop hpark hcur]

/-- An operation that is done with its strand entering a wait. -/
theorem conclude_park (s u : State) (c i : Nat) (ms : List MoveVal) (m : MoveVal) (here next word : Word) (p : Park)
    (hst : (u.slot c i).st = .issued) (hstep : (s.slot c i).step = false) (hstop : (u.slot c i).stopReq = false)
    (hpark : (u.slot c i).park = some p) (hcur : u.current = some (c, i)) :
    s.conclude c i ms m here next word (.done u) = u.waits c i (u.slot c i) p := by
  simp only [State.conclude, hst, hstep, if_true, settle_park u c i here word p hstop hpark hcur]

/-- A fault of a resolving operation traps on the state as it was (02 R59, 14 R350). -/
theorem conclude_fault (s : State) (c i : Nat) (ms : List MoveVal) (m : MoveVal) (here next word : Word) (f : FaultInfo)
    (h : f.code ≠ cDataLost) :
    s.conclude c i ms m here next word (.fault f) = s.trap c i (withInfo f m) m.isB here word := by
  simp [State.conclude, h]

end Sys2Proof.Machine
end

