-- ==== Sys2Proof/Certificates/Slice0/Obligations.lean ====
section
/-! DEFINITION. The statements for the provers. Each docstring says which rule of spec/ a statement formalises. -/

open Sys2Proof Sys2Proof.Machine

/-! ## Decoding, stepping and reset -/

/-- Words written out from the encodings of 02 R27, R28, R29, R32 to R36 and R43 decode to the instructions they stand for. -/
def Obligations.WordsDecode : Prop :=
  decodeTableWord 64 0x0004000180201005 = some (.movePair ⟨0, 0x040, false, 3⟩ ⟨0, 0x100, true, 5⟩)
    ∧ decodeTableWord 64 0x0028000F00000000 = some (.brJmp ⟨0, false, 30⟩)
    ∧ decodeTableWord 64 0x4000700123456789 = some (.moveLong 0 7 0x123456789)
    ∧ decodeTableWord 128 0x00000000000000778000900000000000 = some (.moveLiteralPair 0 9 0x77)
    ∧ decodeTableWord 64 0x002C600200000000 = some (.lsuLd64 ⟨0, false, 4⟩)
    ∧ decodeTableWord 64 0x0050000000000000 = some (.dbgBrk ⟨0, false, 0⟩)
    ∧ decodeTableWord 64 0x00640B2000000000 = some (.mxMma ⟨0, true, 0x640⟩)
    ∧ decodeTableWord 64 0xC000000000000000 = none

/-- Every word form and every operation comes back from its own encoding, with every guard, source, destination and literal
(02 R27 to R29, R43, R45, 03 R64). -/
def Obligations.EncodingRoundTrip : Prop :=
  ∀ i : Instr, i.isWord = true → i.wf = true → ∃ n, decodeWords (encode i) = .ok i n ∧ n = 8 * (encode i).length

/-- A fetched word that decodes is executed as that instruction, and nothing is done around it: no breakpoint applies to it
(02 R50, 17 R426). -/
def Parts.StepRunsDecodedWord : Prop :=
  ∀ (s : State) (c i : Nat) (u : FetchUnit) (ins : Instr) (n : Nat), s.current = some (c, i) → (s.slot c i).fetch = some u
    → s.breakAt c i = none → decodeUnit ((s.slot c i).pc.toNat % 16 == 0) u.first u.second = .ok ins n → step s = exec ins s

/-- With no word in the pipeline, the event that is chosen happens as its row of the instruction set, after it has left the agenda; with no event due only time passes (05 R90; the choice is the model's, notes/assumptions/3.md). -/
def Parts.StepRunsEvent : Prop :=
  ∀ (s : State), s.current = none →
    (∀ e, s.candidates[Config.schedule s.tick % s.candidates.length]? = some e →
        step s = exec e.row { s with tick := s.tick + 1, agenda := s.agenda.erase e, event := some e })
      ∧ (s.candidates = [] → step s = .next { s with tick := s.tick + 1 })

/-- The events of the cores, their accesses and their engines (02, 05 to 12): each, whatever state it meets, ends in a next state, that of its own effect. The rule that governs it stands beside it; what the effect does is said by the
statements on its family. -/
def Parts.CoreEventsComplete : Prop :=
  ∀ s : State,
    (∀ c, s.event = some (.shutterSelect c) → exec .shutterSelect s = .next (s.taken.shutterSelect c))  -- R123
      ∧ (∀ c i, s.event = some (.fetchArrival c i) → exec .fetchArrival s = .next (s.taken.fetchArrival c i))  -- R106
      ∧ (∀ cl part a, s.event = some (.clusterIcacheReply cl part a) → exec .clusterIcacheReply s = .next (s.taken.icacheReply cl part a))  -- R108
      ∧ (∀ c i, s.event = some (.divResult c i) → exec .divResult s = .next (s.taken.portResult c i rDiv))  -- R90
      ∧ (∀ c i, s.event = some (.fltLongResult c i) → exec .fltLongResult s = .next (s.taken.portResult c i rFlt))  -- R239
      ∧ (∀ c i rep, s.event = some (.remoteAccessReply c i rep) → exec .remoteAccessReply s = .next (s.taken.remoteReply c i rep))  -- R54
      ∧ (∀ c i, s.event = some (.feRetryResend c i) → exec .feRetryResend s = .next (s.taken.feResend c i))  -- R157
      ∧ (∀ ctrl, s.event = some (.ticketHoldExpiry ctrl) → exec .ticketHoldExpiry s = .next (s.taken.expireTicket ctrl))  -- R157
      ∧ (∀ c i, s.event = some (.feWithdraw c i) → exec .feWithdraw s = .next (s.taken.feTakeBack c i))  -- R157
      ∧ (∀ part va, s.event = some (.pageWake part va) → exec .pageWake s = .next (s.taken.pageWake part va))  -- R171
      ∧ (∀ c, s.event = some (.logMerge c) → exec .logMerge s = .next (s.taken.logMergeEvent c))  -- R173
      ∧ (∀ c i, s.event = some (.sleepTimeout c i) → exec .sleepTimeout s = .next (s.taken.sleepTimeout c i))  -- R132
      ∧ (∀ c i, s.event = some (.poolReply c i) → exec .poolReply s = .next (s.taken.replyTo c i .pool poolAnswer))  -- R137
      ∧ (∀ c i, s.event = some (.detectorReply c i) → exec .detectorReply s = .next (s.taken.replyTo c i .detector detectorAnswer))  -- R137
      ∧ (∀ pan n, s.event = some (.quiescenceSample pan n) → exec .quiescenceSample s = .next (s.taken.quietSample pan n))  -- R146
      ∧ (∀ m, s.event = some (.messageArrival m) → exec .messageArrival s = .next (s.taken.messageIn m))  -- R140
      ∧ (∀ m, s.event = some (.spawnIntakeArrival m) → exec .spawnIntakeArrival s = .next (s.taken.spawnIn m))  -- R141
      ∧ (∀ c, s.event = some (.intakeDelivery c) → exec .intakeDelivery s = .next (s.taken.deliverIntake c))  -- R141
      ∧ (∀ c i n, s.event = some (.remotePostArrival c i n) → exec .remotePostArrival s = .next (s.taken.postArrival c i n))  -- R202
      ∧ (∀ p ch m k kind v, s.event = some (.domainBarrierArrival p ch m k kind v) → exec .domainBarrierArrival s = .next (s.taken.barrierArrival p ch m k kind v))  -- R209
      ∧ (∀ c unit, s.event = some (.engineSlotGrant c unit) → exec .engineSlotGrant s = .next (s.taken.slotGrant c unit))  -- R55
      ∧ (∀ c, s.event = some (.cpyActivate c) → exec .cpyActivate s = .next (s.taken.cpyActivate c))  -- R241
      ∧ (∀ c, s.event = some (.cpyPiece c) → exec .cpyPiece s = .next (s.taken.cpyPiece c))  -- R241
      ∧ (∀ c seq, s.event = some (.cpyCompletion c seq) → exec .cpyCompletion s = .next (s.taken.cpyComplete c seq))  -- R259
      ∧ (∀ c seq target, s.event = some (.mxPartAccept c seq target) → exec .mxPartAccept s = .next (s.taken.mxPartAccept c seq target))  -- R278
      ∧ (∀ c, s.event = some (.mxPassStart c) → exec .mxPassStart s = .next (s.taken.mxPass c))  -- R265
      ∧ (∀ c, s.event = some (.mxTransferStart c) → exec .mxTransferStart s = .next (s.taken.mxTransfer c))  -- R265
      ∧ (∀ c seq, s.event = some (.mxCompletion c seq) → exec .mxCompletion s = .next (s.taken.mxComplete c seq))  -- R285
      ∧ (∀ c, s.event = some (.vxCommandStart c) → exec .vxCommandStart s = .next (s.taken.vxStart c))  -- R290
      ∧ (∀ c, s.event = some (.vxChunk c) → exec .vxChunk s = .next (s.taken.vxChunk c))  -- R306
      ∧ (∀ c seq, s.event = some (.vxCompletion c seq) → exec .vxCompletion s = .next (s.taken.vxComplete c seq))  -- R306
      ∧ (∀ q p, s.event = some (.configLog q p) → exec .configLog s = .next (s.taken.runLog q p))  -- R174
      ∧ (∀ l g, s.event = some (.gangLoad l g) → exec .gangLoad s = .next (s.taken.gangLoad l g))  -- R21
      ∧ (∀ part va, s.event = some (.pageMadeNonResident part va) → exec .pageMadeNonResident s = .next (s.taken.makeAbsent part va))  -- R175

/-- The events of the fabric and of traps (13, 14): each, whatever state it meets, ends in a next state, that of its own effect. The rule that governs it stands beside it; what the effect does is said by the
statements on its family. -/
def Parts.FabricEventsComplete : Prop :=
  ∀ s : State,
    (∀ r, s.event = some (.remoteRequest r) → exec .remoteRequest s = .next (s.taken.remoteRequest r))  -- R322
      ∧ (∀ r, s.event = some (.reserveRequest r) → exec .reserveRequest s = .next (s.taken.reserve r))  -- R328
      ∧ (∀ c seq, s.event = some (.reserveResend c seq) → exec .reserveResend s = .next (s.taken.reserveAgain c seq))  -- R328
      ∧ (∀ r, s.event = some (.creditReturn r) → exec .creditReturn s = .next (s.taken.creditBack r))  -- R328
      ∧ (∀ c n, s.event = some (.creditIdleRelease c n) → exec .creditIdleRelease s = .next (s.taken.creditIdle c n))  -- R328
      ∧ (∀ c seq fault, s.event = some (.messageAcknowledge c seq fault) → exec .messageAcknowledge s = .next (s.taken.messageAck c seq fault))  -- R329
      ∧ (∀ c seq, s.event = some (.refusedArrivalRetry c seq) → exec .refusedArrivalRetry s = .next (s.taken.retryMessage c seq))  -- R332
      ∧ (∀ p m h, s.event = some (.detachRemoval p m h) → exec .detachRemoval s = .next (s.taken.removeHold p m h))  -- R335
      ∧ (∀ p m, s.event = some (.memberDeparture p m) → exec .memberDeparture s = .next (s.taken.departMember p m))  -- R337
      ∧ (∀ d a, s.event = some (.colMatch d a) → exec .colMatch s = .next (s.taken.colMatched d a))  -- R340
      ∧ (∀ d seq peers, s.event = some (.colBucket d seq peers) → exec .colBucket s = .next (s.taken.colStep d seq peers))  -- R342
      ∧ (∀ d seq fault, s.event = some (.colAbort d seq fault) → exec .colAbort s = .next (s.taken.colAborted d seq fault))  -- R344
      ∧ (∀ d seq, s.event = some (.colCompletion d seq) → exec .colCompletion s = .next (s.taken.colComplete d seq))  -- R343
      ∧ (∀ arrived asks, s.event = some (.routerLinkSlot arrived asks) → exec .routerLinkSlot s = .next (s.taken.linkSlot arrived asks))  -- R313
      ∧ (∀ p, s.event = some (.linkReplay p) → exec .linkReplay s = .next (s.taken.replayLink p))  -- R316
      ∧ (∀ p, s.event = some (.linkDown p) → exec .linkDown s = .next (s.taken.downLink p))  -- R316
      ∧ (∀ device, s.event = some (.fabricUnreachable device) → exec .fabricUnreachable s = .next (s.taken.loseDevice device))  -- R316
      ∧ (∀ c x0, s.event = some (.mailboxRecordWrite c x0) → exec .mailboxRecordWrite s = .next (s.taken.writeRecord c))  -- R352
      ∧ (∀ c i x0, s.event = some (.trapDisposal x0 c i) → exec .trapDisposal s = .next (s.taken.disposeTrap c i))  -- R354
      ∧ (∀ c, s.event = some (.handlerStart c) → exec .handlerStart s = .next (s.taken.nextHandler c))  -- R355
      ∧ (∀ l g, s.event = some (.preemptRequest l g) → exec .preemptRequest s = .next (s.taken.preemptGang l g))  -- R369
      ∧ (∀ l g, s.event = some (.saveHandlerStart l g) → exec .saveHandlerStart s = .next (s.taken.stoppedGang l g))  -- R369
      ∧ (∀ l g, s.event = some (.saveComplete l g) → exec .saveComplete s = .next (s.taken.savedGang l g))  -- R371
      ∧ (∀ l g, s.event = some (.preemptLimitExpiry l g) → exec .preemptLimitExpiry s = .next (s.taken.limitGang l g))  -- R372
      ∧ (∀ l g cl, s.event = some (.restorePlacement l g cl) → exec .restorePlacement s = .next (s.taken.restoreAt l g cl))  -- R374
      ∧ (∀ ph, s.event = some (.panoramaPreempt ph) → exec .panoramaPreempt s = .next (s.taken.panPhase ph))  -- R376

/-- The events of the stacks, of queues and of launches (15, 16): each, whatever state it meets, ends in a next state, that of its own effect. The rule that governs it stands beside it; what the effect does is said by the
statements on its family. -/
def Parts.MemoryEventsComplete : Prop :=
  ∀ s : State,
    (∀ c i, s.event = some (.mntReply c i) → exec .mntReply s = .next (s.taken.mntReply c i))  -- R390
      ∧ (∀ n g up, s.event = some (.phaseTrackStep n g up) → exec .phaseTrackStep s = .next (s.taken.trackStep n g up))  -- R377
      ∧ (∀ n g, s.event = some (.groupRetrain n g) → exec .groupRetrain s = .next (s.taken.addRepair n (.retrain g)))  -- R378
      ∧ (∀ n granule, s.event = some (.eccWriteback (.stack n granule)) → exec .eccWriteback s = .next (s.taken.corrected n granule))  -- R379
      ∧ (∀ c, s.event = some (.eccWriteback (.core c)) → exec .eccWriteback s = .next (s.taken.correctedCore c))  -- R379
      ∧ (∀ n granule found, s.event = some (.patrolRead n granule found) → exec .patrolRead s = .next (s.taken.patrol n granule found))  -- R380
      ∧ (∀ n c b w, s.event = some (.rowRepair n c b w) → exec .rowRepair s = .next (s.taken.addRepair n (.row c b w)))  -- R381
      ∧ (∀ n c b, s.event = some (.bankMigration n c b) → exec .bankMigration s = .next (s.taken.addRepair n (.bank c b 0)))  -- R381
      ∧ (∀ n g, s.event = some (.laneSteer n g) → exec .laneSteer s = .next (s.taken.addRepair n (.lane g)))  -- R381
      ∧ (∀ n, s.event = some (.repairAttemptTimeout n) → exec .repairAttemptTimeout s = .next (s.taken.endAttempt n false))  -- R382
      ∧ (∀ n frame, s.event = some (.pageRetirement n frame) → exec .pageRetirement s = .next (if s.migrating n frame then s.taken.fixNext n else s.taken.retireFrame n frame))  -- R386
      ∧ (∀ d, s.event = some (.doorbell d) → exec .doorbell s = .next (s.taken.sendArrival d))  -- R397
      ∧ (∀ q, s.event = some (.packetFetch q) → exec .packetFetch s = .next (s.taken.fetchPacket q))  -- R399
      ∧ (∀ q p, s.event = some (.nop q p) → exec .nop s = .next (s.taken.packet q p (fun s i => s.issueDone q p i)))  -- R400
      ∧ (∀ q p, s.event = some (.launch q p) → exec .launch s = .next (s.taken.packet q p (fun s i => s.runLaunch q p i)))  -- R405
      ∧ (∀ q p, s.event = some (.panlaunch q p) → exec .panlaunch s = .next (s.taken.packet q p (fun s i => s.runPanlaunch q p i)))  -- R414
      ∧ (∀ q p, s.event = some (.wait q p) → exec .wait s = .next (s.taken.packet q p (fun s i => ((s.mapQueue q (fun k => { k with wait := some (i, p) })).issue q p 0).pollWait q)))  -- R403
      ∧ (∀ q, s.event = some (.signalPoll q) → exec .signalPoll s = .next (s.taken.pollWait q))  -- R403
      ∧ (∀ q p, s.event = some (.signal q p) → exec .signal s = .next (s.taken.packet q p (fun s i => s.runSignal q p i)))  -- R403
      ∧ (∀ q p, s.event = some (.barrier q p) → exec .barrier s = .next (s.taken.packet q p (fun s i => s.issueDone q p i)))  -- R400
      ∧ (∀ q p, s.event = some (.copy q p) → exec .copy s = .next ((s.taken.packet q p (fun s _ => s.issue q p 0)).runCopy q p))  -- R404
      ∧ (∀ q p, s.event = some (.event q p) → exec .event s = .next (s.taken.packet q p (fun s i => (s.issueDone q p i).queueEvent q 0x37 0 (pkTag p) (pk8 p 8) (pk8 p 16))))  -- R400
      ∧ (∀ q p, s.event = some (.configQset q p) → exec .configQset s = .next (s.taken.packet q p (fun s i => s.runQset q p i)))  -- R418
      ∧ (∀ q p, s.event = some (.configQread q p) → exec .configQread s = .next (s.taken.packet q p (fun s i => s.runQread q p i)))  -- R418
      ∧ (∀ q p, s.event = some (.configQresume q p) → exec .configQresume s =
        .next (s.taken.packet q p (fun s i =>
            s.config q p i (!s.sameOwner q (pk8 p 16)) (fun s => s.resumeQueue (pk8 p 16) (pk8 p 24 == 1)))))  -- R418
      ∧ (∀ q p, s.event = some (.configBind q p) → exec .configBind s = .next (s.taken.packet q p (fun s i => s.runBind q p i)))  -- R418
      ∧ (∀ q p, s.event = some (.configEvch q p) → exec .configEvch s = .next (s.taken.packet q p (fun s i => s.runEvch q p i)))  -- R418
      ∧ (∀ q p, s.event = some (.configLimits q p) → exec .configLimits s =
        .next (s.taken.packet q p (fun s i => s.config q p i false (fun s =>
            let part := cbPart (s.queueAt q).cb
            s.setPart part { s.part part with limitUs := pk8 p 16 % 2 ^ 32, weights := bitsOf (pk8 p 16) 32 1 == 1 }))))  -- R418
      ∧ (∀ q p, s.event = some (.configTrace q p) → exec .configTrace s =
        .next (s.taken.packet q p (fun s i => s.config q p i false (fun s =>
            let bit : BitVec 16 := BitVec.ofNat 16 (2 ^ cbPart (s.queueAt q).cb)
            (List.range 8).foldl (fun s cl =>
              let k := s.cluster cl
              s.setCluster cl { k with trace := { k.trace with
                parts := if pk8 p 16 = 1 then k.trace.parts ||| bit else k.trace.parts &&& ~~~bit } }) s))))  -- R418
      ∧ (∀ q p, s.event = some (.tableMap q p) → exec .tableMap s = .next (s.taken.packet q p (fun s i => s.runTable q p i)))  -- R417
      ∧ (∀ q p, s.event = some (.tableUnmap q p) → exec .tableUnmap s = .next (s.taken.packet q p (fun s i => s.runTable q p i)))  -- R417
      ∧ (∀ q p, s.event = some (.tableProtect q p) → exec .tableProtect s = .next (s.taken.packet q p (fun s i => s.runTable q p i)))  -- R417
      ∧ (∀ q p, s.event = some (.tableReserve q p) → exec .tableReserve s = .next (s.taken.packet q p (fun s i => s.runTable q p i)))  -- R417
      ∧ (∀ q p, s.event = some (.discard q p) → exec .discard s = .next (s.taken.packet q p (fun s i => s.runDiscard q p i)))  -- R416
      ∧ (∀ q p, s.event = some (.mark q p) → exec .mark s =
        .next (s.taken.packet q p (fun s i =>
            let part := cbPart (s.queueAt q).cb
            let ws := [traceHeader 2 4 0 0 0, BitVec.ofNat 64 q, BitVec.ofNat 64 (pkTag p), BitVec.ofNat 64 (pk8 p 56)]
            ((List.range 8).foldl (fun s cl => (s.trace cl 2 part ws).1) s).issueDone q p i)))  -- R400
      ∧ (s.event = some .dispatchDecision → exec .dispatchDecision s = .next s.taken.dispatchAll)  -- R411
      ∧ (∀ l, s.event = some (.launchCompletion l) → exec .launchCompletion s = .next (s.taken.finishLaunch l))  -- R409
      ∧ (∀ l detail a b, s.event = some (.launchEnd l detail a b) → exec .launchEnd s = .next (s.taken.endWork l detail a b))  -- R410
      ∧ (∀ a, s.event = some (.panAdmissionPrepare (.ask a)) → exec .panAdmissionPrepare s = .next (s.taken.panAsked a))  -- R415
      ∧ (∀ key d n ready places busy, s.event = some (.panAdmissionPrepare (.answer key d n ready places busy)) → exec .panAdmissionPrepare s = .next (s.taken.panAnswered key d n ready places busy))  -- R415
      ∧ (∀ key n commit panid chs places, s.event = some (.panAdmissionCommit key n commit panid chs places) → exec .panAdmissionCommit s = .next (s.taken.panDecide key n commit panid chs places))  -- R415
      ∧ (∀ p ch, s.event = some (.eventCoalesceTimeout p ch) → exec .eventCoalesceTimeout s = .next (s.taken.flushChan p ch))  -- R421
      ∧ (∀ p ch, s.event = some (.eventRingSpace p ch) → exec .eventRingSpace s = .next (s.taken.flushChan p ch))  -- R421
      ∧ (s.event = some .liveUpdateTakeover → exec .liveUpdateTakeover s = .next s.taken.liveUpdate)  -- R422
      ∧ (∀ n, s.event = some (.repairAttemptComplete n) → exec .repairAttemptComplete s = .next (s.taken.endAttempt n true))  -- R382
      ∧ (∀ q i, s.event = some (.packetComplete q i) → exec .packetComplete s = .next (s.taken.completePacket q i))  -- R399

/-- The events of the host link, of management and of resets (17, 18, 20): each, whatever state it meets, ends in a next state, that of its own effect. The rule that governs it stands beside it; what the effect does is said by the
statements on its family. -/
def Parts.PlatformEventsComplete : Prop :=
  ∀ s : State,
    (∀ part ch, s.event = some (.eventRetransmit part ch) → exec .eventRetransmit s = .next (s.taken.retransmit part ch))  -- R440
      ∧ (∀ qp rkey va data, s.event = some (.rdmaWrite qp rkey va data) → exec .rdmaWrite s = .next (s.taken.hostWrite qp rkey va data))  -- R441
      ∧ (∀ qp rkey va len, s.event = some (.rdmaRead qp rkey va len) → exec .rdmaRead s = .next (s.taken.hostRead qp rkey va len))  -- R441
      ∧ (∀ frame, s.event = some (.arpRequest frame) → exec .arpRequest s = .next (s.taken.frameOut 1 frame))  -- R439
      ∧ (∀ frame, s.event = some (.neighborDiscovery frame) → exec .neighborDiscovery s = .next (s.taken.frameOut 2 frame))  -- R439
      ∧ (s.event = some .lldpSend → exec .lldpSend s = .next (s.taken.frameOut 3 []))  -- R439
      ∧ (∀ qp r, s.event = some (.debugRequest qp r) → exec .debugRequest s = .next (s.taken.debugSend qp r))  -- R444
      ∧ (s.event = some .frontEndGate → exec .frontEndGate s = .next (if s.host.held.isEmpty then s.taken.mapHost (fun h => { h with gated := true }) else s.taken))  -- R443
      ∧ (s.event = some .frontEndWake → exec .frontEndWake s = .next s.taken.frontWake)  -- R443
      ∧ (∀ n, s.event = some (.getSensorReading n) → exec .getSensorReading s = .next (s.taken.readSensor n))  -- R446
      ∧ (∀ a, s.event = some (.pldmDiscovery a) → exec .pldmDiscovery s = .next (s.taken.emit (s.pldmAnswer a)))  -- R445
      ∧ (∀ n, s.event = some (.platformEventMessage n) → exec .platformEventMessage s = .next (s.taken.tellSensor n))  -- R447
      ∧ (∀ k bank version hash rsaOk slhOk, s.event = some (.applyComplete k bank version hash rsaOk slhOk) → exec .applyComplete s = .next (s.taken.applyImage k bank version hash rsaOk slhOk))  -- R449
      ∧ (∀ k, s.event = some (.firmwareActivation k) → exec .firmwareActivation s = .next (s.taken.activate k))  -- R448
      ∧ (∀ k version, s.event = some (.securityMinimumRaise k version) → exec .securityMinimumRaise s = .next (s.taken.raiseMinimum k version))  -- R449
      ∧ (∀ cl w, s.event = some (.traceControlWrite cl w) → exec .traceControlWrite s = .next (s.taken.putTrace cl w))  -- R434
      ∧ (s.event = some .getVersion → exec .getVersion s = .next (s.taken.spdm 1 [1, 3]))  -- R450
      ∧ (s.event = some .getCapabilities → exec .getCapabilities s = .next (s.taken.spdm 2 [0]))  -- R450
      ∧ (s.event = some .negotiateAlgorithms → exec .negotiateAlgorithms s = .next (s.taken.spdm 3 [384, 384]))  -- R450
      ∧ (s.event = some .getDigests → exec .getDigests s = .next (s.taken.spdm 4 [1]))  -- R450
      ∧ (∀ slot offset length, s.event = some (.getCertificate slot offset length) → exec .getCertificate s = .next (s.taken.spdm (if slot = 0 then 5 else 0) [slot, offset, length]))  -- R450
      ∧ (∀ slot nonce, s.event = some (.challenge slot nonce) → exec .challenge s = .next (s.taken.spdm (if slot = 0 then 6 else 0) [slot, nonce.toNat]))  -- R450
      ∧ (∀ index nonce, s.event = some (.getMeasurements index nonce) → exec .getMeasurements s = .next (let s := s.taken; (if index = 0 ∨ 8 < index then s.spdm 0 [index] else s.spdm 7 ([index, nonce.toNat] ++ s.mgmt.measured index))))  -- R450
      ∧ (∀ w, s.event = some (.powerCapWindow w) → exec .powerCapWindow s = .next (s.taken.setClock (decide (s.mgmt.cap < w) || s.mgmt.hot)))  -- R452
      ∧ (∀ w, s.event = some (.powerCapSet w) → exec .powerCapSet s = .next (if 600 ≤ w ∧ w ≤ 2000 then s.taken.mapMgmt (fun m => { m with cap := w }) else s.taken))  -- R452
      ∧ (∀ die celsius, s.event = some (.dieThermalTrip die celsius) → exec .dieThermalTrip s = .next (s.taken.dieTrip die celsius))  -- R452
      ∧ (∀ n celsius, s.event = some (.stackThermalTrip n celsius) → exec .stackThermalTrip s = .next (s.taken.stackTrip n celsius))  -- R452
      ∧ (∀ c, s.event = some (.coreClockGate c) → exec .coreClockGate s = .next (let k := s.core c; (if k.gateable && decide (1024 ≤ k.idleFor) then s.taken.setCore c { k with gated := true } else s.taken)))  -- R453
      ∧ (∀ c, s.event = some (.coreWake c) → exec .coreWake s = .next (s.taken.setCore c { s.core c with gated := false, idleFor := 0 }))  -- R453
      ∧ (∀ cl, s.event = some (.clusterPowerGate cl) → exec .clusterPowerGate s = .next (if s.clusterIdle cl then s.taken.setCluster cl { s.cluster cl with powered := false } else s.taken))  -- R452
      ∧ (∀ cl, s.event = some (.clusterWake cl) → exec .clusterWake s = .next (let k := s.cluster cl; (if k.inService then (s.taken.setCluster cl { k with powered := true }).pushOnce .dispatchDecision else s.taken)))  -- R452
      ∧ (∀ c, s.event = some (.cellReset c) → exec .cellReset s = .next (s.taken.resetBy (.cellReset c) (fun s => if (s.core c).cell.elim false (fun k => !k.ended) then s.killCell c else s)))  -- R454
      ∧ (∀ c unit, s.event = some (.engineReset c unit) → exec .engineReset s = .next (s.taken.resetBy (.engineReset c unit) (fun s => (s.filmReset 0 c 2).abandonEngine c unit)))  -- R454
      ∧ (∀ l g, s.event = some (.gangReset l g) → exec .gangReset s = .next (s.taken.resetBy (.gangReset l g) (fun s => s.resetGang l g)))  -- R454
      ∧ (∀ cl, s.event = some (.clusterReset cl) → exec .clusterReset s = .next (s.taken.resetBy (.clusterReset cl) (fun s => (s.filmReset 1 cl 4).restartCluster cl)))  -- R454
      ∧ (∀ d, s.event = some (.dieWarmReset d) → exec .dieWarmReset s = .next (s.taken.resetBy (.dieWarmReset d) (fun s => s.resetDie d)))  -- R454
      ∧ (s.event = some .packageWarmReset → exec .packageWarmReset s = .next (s.taken.resetBy .packageWarmReset (fun s => s.resetPackage)))  -- R454
      ∧ (s.event = some .coldReset → exec .coldReset s = .next (s.taken.resetBy .coldReset (fun s => s.coldStart)))  -- R455
      ∧ (s.event = some .fullService → exec .fullService s = .next (s.taken.declareService 0))  -- R456
      ∧ (∀ cl, s.event = some (.contactSheetFrame cl) → exec .contactSheetFrame s = .next (s.taken.sheetFrame cl))  -- R437
      ∧ (∀ source code unit data, s.event = some (.filmstripRecord source code unit data) → exec .filmstripRecord s = .next (s.taken.filmAdd source code unit data))  -- R438
      ∧ (∀ die celsius, s.event = some (.dieTemperatureCap die celsius) → exec .dieTemperatureCap s = .next (s.taken.dieTemp die celsius))  -- R452
      ∧ (∀ v, s.event = some (.hostLinkChange v) → exec .hostLinkChange s = .next (s.taken.linkChange v))  -- R446
      ∧ (s.event = some .degradedService → exec .degradedService s = .next (let d := s.taken.draw; (d.2.declareService (1 + d.1.toNat % 255))))  -- R456
      ∧ (∀ a, s.event = some (.partitionAssignment a) → exec .partitionAssignment s = .next (s.taken.assign a))  -- R441

/-- A step runs the instruction that a fetched word decodes to, or the event that comes next (02 R50, 17 R426), and every event ends in a next state, that of its effect. -/
def Obligations.StepRunsInstruction : Prop :=
  Parts.StepRunsDecodedWord
    ∧ Parts.StepRunsEvent
    ∧ Parts.CoreEventsComplete
    ∧ Parts.FabricEventsComplete
    ∧ Parts.MemoryEventsComplete
    ∧ Parts.PlatformEventsComplete

/-- A word in the pipeline that does not decode raises ILLEGAL_WORD, with no move executed (02 R29, R37): the step takes the trap of that code at the word, no
register, guard or port changes but for the strand's pending results, which complete, and the record has the code, the slot and the word (02 R58, 14 R350, R353); in
the stop phase of a pre-emption its strand is STOPPED instead of TRAPPED, and there is no record (14 R369). -/
def Obligations.UndecodedWordTraps : Prop :=
  ∀ (s : State) (c i : Nat) (u : FetchUnit) (r : Reject), s.current = some (c, i) → (s.slot c i).fetch = some u
    → s.breakAt c i = none → decodeUnit ((s.slot c i).pc.toNat % 16 == 0) u.first u.second = .illegal r
    → ∃ t, step s = .next t ∧ t = s.trap c i ⟨0x01, 0, none, 0⟩ false (s.slot c i).pc u.first
        ∧ sameRegs (s.slot c i).drain (t.slot c i) ∧ (t.slot c i).res = (s.slot c i).drain.res
        ∧ ((s.cell c).preempt = .stopped → (t.slot c i).trap = none)
        ∧ ((s.cell c).preempt ≠ .stopped → ∃ r, (t.slot c i).trap = some r ∧ blkField r 1 1 = 0x01 ∧ blkField r 2 1 = 0
            ∧ (i < 256 → blkField r 3 1 = i ∧ blkField r 4 1 = 0 ∧ blkField r 8 8 = (s.slot c i).pc.toNat ∧ blkField r 16 8 = u.first.toNat))
        ∧ (t.slot c i).st = (if (s.cell c).preempt = .stopped then .stopped else .trapped)
        ∧ (t.slot c i).pc = (s.slot c i).pc ∧ t.current = none
        ∧ t.memory = (s.traceStrand c i 3 5 [(s.slot c i).pc, 0x01]).1.memory
        ∧ (t.core c).store = (s.core c).store ∧ (t.core c).plane = (s.core c).plane

/-- After cold reset there is no cell, no launch and no strand; the device is in safelight mode with its four gateable clusters
unpowered, no queue belongs to a partition, and every spare of every stack is unused (15 R384, 18 R453 to R455). -/
def Obligations.ResetLeaves : Prop :=
  State.reset.current = none ∧ State.reset.agenda = [] ∧ State.reset.outbox = [] ∧ State.reset.launches = []
    ∧ (∀ c, (State.reset.core c).cell = none) ∧ (∀ c i, (State.reset.slot c i).st = .free) ∧ State.reset.mgmt.service = 0
    ∧ (∀ q, (State.reset.queues.get Queue.none q).part = none) ∧ State.reset.mgmt.clock = 1200
    ∧ (∀ n, (State.reset.stack n).rows = 8192 ∧ (State.reset.stack n).banks = 16 ∧ (State.reset.stack n).lanes = 80)
    ∧ (∀ n, n < 8 → ((State.reset.cluster n).powered = true ↔ n % 2 = 0))

/-! ## The immediate units -/

/-- alu (04 R85): the result is on alu.res when the word retires, and nothing else changes but the strand's progress. -/
def Parts.AluResults : Prop :=
  ∀ (s : State) (c i : Nat) (m : Lone), LoneReady s c i m →
    let o := (s.slot c i).operand 0x40
    let t := s.loneValue c i m
    let res (v : Word) : Host.Outcome State Fault Refusal := .next (s.loneResult c i rAlu v)
    exec (.aluAdd m) s = res (o + t) ∧ exec (.aluSub m) s = res (o - t) ∧ exec (.aluRsub m) s = res (t - o)
      ∧ exec (.aluAnd m) s = res (o &&& t) ∧ exec (.aluOr m) s = res (o ||| t) ∧ exec (.aluXor m) s = res (o ^^^ t)
      ∧ exec (.aluAndn m) s = res (o &&& ~~~t)
      ∧ exec (.aluMin m) s = res (if o.toInt ≤ t.toInt then o else t) ∧ exec (.aluMax m) s = res (if o.toInt ≤ t.toInt then t else o)
      ∧ exec (.aluMinz m) s = res (if o.toNat ≤ t.toNat then o else t) ∧ exec (.aluMaxz m) s = res (if o.toNat ≤ t.toNat then t else o)
      ∧ exec (.aluAddw m) s = res (((o + t).extractLsb' 0 32).signExtend 64)
      ∧ exec (.aluSubw m) s = res (((o - t).extractLsb' 0 32).signExtend 64)
      ∧ exec (.aluAdds m) s = res (BitVec.ofInt 64 (max (-(2 ^ 63)) (min (2 ^ 63 - 1) (o.toInt + t.toInt))))
      ∧ exec (.aluAddz m) s = res (BitVec.ofNat 64 (min (2 ^ 64 - 1) (o.toNat + t.toNat)))

/-- sh (04 R86, R87). pos and len are the field of a control word; a count is the number that the bits of t determine. -/
def Obligations.ShiftResults : Prop :=
  ∀ (s : State) (c i : Nat) (m : Lone), LoneReady s c i m →
    let o := (s.slot c i).operand 0x41
    let p := (s.slot c i).operand 0x42
    let t := s.loneValue c i m
    let a := t.toNat % 64
    let aw := t.toNat % 32
    let pos := t.toNat % 64
    let len := min (t.toNat / 256 % 128) (64 - pos)
    let field := o.toNat / 2 ^ pos % 2 ^ len
    let res (v : Word) : Host.Outcome State Fault Refusal := .next (s.loneResult c i rSh v)
    exec (.shSll m) s = res (BitVec.ofNat 64 (o.toNat * 2 ^ a)) ∧ exec (.shSrl m) s = res (BitVec.ofNat 64 (o.toNat / 2 ^ a))
      ∧ exec (.shSra m) s = res (BitVec.ofInt 64 (o.toInt / 2 ^ a))
      ∧ (∃ r, exec (.shRotl m) s = res r ∧ ∀ k, k < 64 → r.getLsbD ((k + a) % 64) = o.getLsbD k)
      ∧ (∃ r, exec (.shRotr m) s = res r ∧ ∀ k, k < 64 → r.getLsbD k = o.getLsbD ((k + a) % 64))
      ∧ exec (.shExt m) s = res (BitVec.ofInt 64 (if 2 * field < 2 ^ len then (field : Int) else (field : Int) - 2 ^ len))
      ∧ exec (.shExtz m) s = res (BitVec.ofNat 64 field)
      ∧ (∃ r, exec (.shIns m) s = res r
          ∧ ∀ k, k < 64 → r.getLsbD k = if pos ≤ k ∧ k < pos + len then p.getLsbD (k - pos) else o.getLsbD k)
      ∧ (∃ n, exec (.shClz m) s = res (BitVec.ofNat 64 n) ∧ n ≤ 64 ∧ t.toNat < 2 ^ (64 - n) ∧ (n < 64 → 2 ^ (63 - n) ≤ t.toNat))
      ∧ (∃ n, exec (.shCtz m) s = res (BitVec.ofNat 64 n) ∧ n ≤ 64 ∧ t.toNat % 2 ^ n = 0 ∧ (n < 64 → t.getLsbD n = true))
      ∧ exec (.shPopc m) s = res (BitVec.ofNat 64 ((List.range 64).filter (fun k => t.getLsbD k)).length)
      ∧ (∃ r, exec (.shBrev m) s = res r ∧ ∀ k, k < 64 → r.getLsbD k = t.getLsbD (63 - k))
      ∧ (∃ r, exec (.shBswap m) s = res r ∧ ∀ k, k < 8 → r.extractLsb' (8 * k) 8 = t.extractLsb' (8 * (7 - k)) 8)
      ∧ exec (.shSllw m) s = res ((BitVec.ofNat 32 (o.toNat * 2 ^ aw)).signExtend 64)
      ∧ exec (.shSrlw m) s = res ((BitVec.ofNat 32 (o.toNat % 2 ^ 32 / 2 ^ aw)).signExtend 64)
      ∧ exec (.shSraw m) s = res (BitVec.ofInt 64 ((o.setWidth 32).toInt / 2 ^ aw))

/-- mul (04 R88): the exact product, its halves, and the 32-bit form. -/
def Parts.MulResults : Prop :=
  ∀ (s : State) (c i : Nat) (m : Lone), LoneReady s c i m →
    let o := (s.slot c i).operand 0x43
    let t := s.loneValue c i m
    let res (v : Word) : Host.Outcome State Fault Refusal := .next (s.loneResult c i rMul v)
    exec (.mulLo m) s = res (BitVec.ofNat 64 (o.toNat * t.toNat)) ∧ exec (.mulHi m) s = res (BitVec.ofInt 64 (o.toInt * t.toInt / 2 ^ 64))
      ∧ exec (.mulHiz m) s = res (BitVec.ofNat 64 (o.toNat * t.toNat / 2 ^ 64))
      ∧ exec (.mulHisz m) s = res (BitVec.ofInt 64 (o.toInt * (t.toNat : Int) / 2 ^ 64))
      ∧ exec (.mulW m) s = res (BitVec.ofInt 64 ((BitVec.ofInt 32 ((o.setWidth 32).toInt * (t.setWidth 32).toInt)).toInt))

/-- div (04 R89, R90): the quotient rounds toward zero and the remainder has the dividend's sign; a zero divisor gives all ones and the
dividend; the result is pending until 18 cycles and one more for every four bits of the quotient have passed since the issue, and valid at once where a held
word commits no sooner than that (02 R54). -/
def Obligations.DivResults : Prop :=
  ∀ (s : State) (c i : Nat) (m : Lone), LoneReady s c i m →
    let o := (s.slot c i).operand 0x44
    let t := s.loneValue c i m
    let ow := (o.setWidth 32).toInt
    let tw := (t.setWidth 32).toInt
    let steps (q : Nat) : Nat := if q = 0 then 18 else 18 + (Nat.log2 q + 1 + 3) / 4
    let q : Int := o.toInt.tdiv t.toInt
    let qw : Int := ow.tdiv tw
    let res (v : Word) (l : Nat) : Host.Outcome State Fault Refusal :=
      .next (s.retires c i
        (if (s.slot c i).issuedAt + l ≤ (s.core c).cycles + 1 then (s.stepped c i).setRes rDiv v
        else { s.stepped c i with res := (s.slot c i).res.set rDiv ⟨v, true, (s.slot c i).issuedAt + l, 0⟩ }))
    (t = 0 → exec (.divDiv m) s = res (-1) 18 ∧ exec (.divDivz m) s = res (-1) 18 ∧ exec (.divRem m) s = res o 18
        ∧ exec (.divRemz m) s = res o 18)
      ∧ (tw = 0 → exec (.divDivw m) s = res (-1) 18 ∧ exec (.divRemw m) s = res (BitVec.ofInt 64 ow) 18)
      ∧ (t ≠ 0 → exec (.divDiv m) s = res (BitVec.ofInt 64 q) (steps q.natAbs)
          ∧ exec (.divDivz m) s = res (BitVec.ofNat 64 (o.toNat / t.toNat)) (steps (o.toNat / t.toNat))
          ∧ exec (.divRem m) s = res (BitVec.ofInt 64 (o.toInt.tmod t.toInt)) (steps q.natAbs)
          ∧ exec (.divRemz m) s = res (BitVec.ofNat 64 (o.toNat % t.toNat)) (steps (o.toNat / t.toNat)))
      ∧ (tw ≠ 0 → exec (.divDivw m) s = res (BitVec.ofInt 64 (BitVec.ofInt 32 qw).toInt) (steps qw.natAbs)
          ∧ exec (.divRemw m) s = res (BitVec.ofInt 64 (ow.tmod tw)) (steps qw.natAbs))

/-- cmp (04 R91, R92): 1 or 0. -/
def Parts.CmpResults : Prop :=
  ∀ (s : State) (c i : Nat) (m : Lone), LoneReady s c i m →
    let o := (s.slot c i).operand 0x45
    let t := s.loneValue c i m
    let res (p : Prop) [Decidable p] : Host.Outcome State Fault Refusal := .next (s.loneResult c i rCmp (if p then 1 else 0))
    exec (.cmpEq m) s = res (o = t) ∧ exec (.cmpNe m) s = res (o ≠ t) ∧ exec (.cmpLt m) s = res (o.toInt < t.toInt)
      ∧ exec (.cmpLtz m) s = res (o.toNat < t.toNat) ∧ exec (.cmpLe m) s = res (o.toInt ≤ t.toInt)
      ∧ exec (.cmpLez m) s = res (o.toNat ≤ t.toNat) ∧ exec (.cmpBset m) s = res (o.getLsbD (t.toNat % 64) = true)
      ∧ exec (.cmpBclr m) s = res (o.getLsbD (t.toNat % 64) = false)

/-- alu, mul and cmp (04 R85, R88, R91). -/
def Obligations.IntegerResults : Prop := Parts.AluResults ∧ Parts.MulResults ∧ Parts.CmpResults

/-- adr (04 R93 to R97): generic addresses are made and taken apart, and window locations computed with all ones where there is none. That adr.inseg gives 0 for a
domain segment of a device number from 288 up is the model's reading (notes/assumptions/94.md). -/
def Obligations.AdrResults : Prop :=
  ∀ (s : State) (c i : Nat) (m : Lone), LoneReady s c i m →
    let o := (s.slot c i).operand 0x46
    let t := s.loneValue c i m
    let off := t.toNat % 2 ^ 21
    let core := if o.getLsbD 63 then c % 96 else o.toNat % 128
    let g := (s.slot c i).seg (segNo o)
    let n := t.toNat % 2 ^ 41
    let res (v : Word) : Host.Outcome State Fault Refusal := .next (s.loneResult c i rAdr v)
    exec (.adrMk m) s = res (BitVec.ofNat 64 (o.toNat % 8 * 2 ^ 61 + t.toNat % 2 ^ 61))
      ∧ exec (.adrSeg m) s = res (BitVec.ofNat 64 (t.toNat / 2 ^ 61)) ∧ exec (.adrOff m) s = res (BitVec.ofNat 64 (t.toNat % 2 ^ 61))
      ∧ exec (.adrTocw m) s = res (if t.toNat < 2 ^ 21 ∧ off < 0x180000 ∧ core < 96 then BitVec.ofNat 64 (core * 2 ^ 21 + off) else -1)
      ∧ exec (.adrTopan m) s = res (if t.toNat < 2 ^ 28 ∧ t.toNat / 2 ^ 21 < 96 ∧ off < 0x180000 ∧ o.toNat % 512 < 288 then
          BitVec.ofNat 64 (o.toNat % 512 * 2 ^ 28 + t.toNat) else -1)
      ∧ exec (.adrSpace m) s = res (adrSpace ((s.slot c i).seg (segNo t)))
      ∧ ∃ b : Bool, exec (.adrInseg m) s = res (if b then 1 else 0)
          ∧ (b = true ↔ (1 ≤ g.space ∧ g.space ≤ 6) ∧ (t.getLsbD 41 → g.rd) ∧ (t.getLsbD 42 → g.wr) ∧ (t.getLsbD 43 → g.ex)
              ∧ (t.getLsbD 44 → g.at_) ∧ (t.getLsbD 42 ∨ t.getLsbD 44 → g.cn = false) ∧ n ≤ 2 ^ 40
              ∧ (n = 0 ∨ (offOf o + n ≤ g.limit ∧ g.locate (panMembers (s.cell c).paninfo) (offOf o) n ≠ none)))

/-- br (05 R99): a taken branch goes to its target and br.res has the offset of the next word; br.call and br.callrel write it to x30 as
well; br.loop takes br.o while the count is not 0 and returns the count less 1. -/
def Parts.BranchResults : Prop :=
  ∀ (s : State) (c i : Nat) (m : Lone), LoneReady s c i m →
    let o := (s.slot c i).operand 0x47
    let t := s.loneValue c i m
    let here := (s.slot c i).pc
    let next := here + 8
    let ok (v : Int) : Prop := 0 ≤ v ∧ v < 2 ^ 40 ∧ v % 8 = 0
    let rel : Int := here.toNat + t.toInt
    let go (sl : Slot) (v : Int) (r : Word) : Host.Outcome State Fault Refusal :=
      .next (s.retires c i ({ sl with pc := BitVec.ofInt 64 v }.setRes rBr r))
    (ok t.toNat → exec (.brJmp m) s = go (s.slot c i) t.toNat next
        ∧ exec (.brCall m) s = go ((s.slot c i).writeX 30 next) t.toNat next)
      ∧ (ok rel → exec (.brJmprel m) s = go (s.slot c i) rel next
        ∧ exec (.brCallrel m) s = go ((s.slot c i).writeX 30 next) rel next)
      ∧ (t ≠ 0 → ok o.toNat → exec (.brLoop m) s = go (s.slot c i) o.toNat (t - 1))
      ∧ (t = 0 → exec (.brLoop m) s = .next (s.loneResult c i rBr (-1)))

/-- br (05 R99, 02 R59, 14 R350): a taken branch to a target below 0 or from 2^40 up raises SEG_LIMIT, and one to a target that is no multiple
of 8 raises MISALIGNED; ADDR has the target, no register is written and the pc stays. -/
def Parts.BranchFaults : Prop :=
  ∀ (s : State) (c i : Nat) (m : Lone), LoneReady s c i m →
    let o := (s.slot c i).operand 0x47
    let t := s.loneValue c i m
    let here := (s.slot c i).pc
    let rel : Int := here.toNat + t.toInt
    let code (v : Int) : Nat := if v < 0 ∨ 2 ^ 40 ≤ v then 0x04 else 0x06
    let bad (v : Int) : Prop := v < 0 ∨ 2 ^ 40 ≤ v ∨ v % 8 ≠ 0
    let trap (d : BitVec 14) (v : Int) : Host.Outcome State Fault Refusal :=
      .next (s.trap c i ⟨code v, 0, some (BitVec.ofInt 64 v), d.setWidth 64⟩ false here (pairWord (m.to d) Move.nop))
    (bad t.toNat → exec (.brJmp m) s = trap 0x280 t.toNat ∧ exec (.brCall m) s = trap 0x282 t.toNat)
      ∧ (bad rel → exec (.brJmprel m) s = trap 0x281 rel ∧ exec (.brCallrel m) s = trap 0x283 rel)
      ∧ (t ≠ 0 → bad o.toNat → exec (.brLoop m) s = trap 0x284 o.toNat)

/-- br: where it goes, what it writes, and its faults (05 R99). -/
def Obligations.Branches : Prop := Parts.BranchResults ∧ Parts.BranchFaults

/-- flt (09 R234 to R238): with legal control fields each operation delivers its result to flt.res and adds its flags to FFLAGS, takes
a step of the stochastic stream where it rounds under RSR, and nothing else; the long operations keep flt.res pending for 18 or 30
cycles from the issue (R239). -/
def Parts.FloatResults : Prop :=
  ∀ (s : State) (c i : Nat) (m : Lone), LoneReady s c i m →
    let sl := s.slot c i
    let o := sl.operand 0x52
    let p := sl.operand 0x53
    let q := sl.operand 0x54
    let t := s.loneValue c i m
    let wide := q.toNat % 16 = 1
    let f := if wide then Fmt.f64 else Fmt.f32
    let v (w : Word) : FVal := f.value (if wide then w.toNat else w.toNat % 2 ^ 32)
    let rm := if q.toNat / 16 % 16 = 7 then sl.fmode.toNat else q.toNat / 16 % 16
    let sat := q.getLsbD 14
    let draw := (lfsrStep sl.srseed).toNat
    let seed := if rm = 4 then lfsrStep sl.srseed else sl.srseed
    let end_ (sd : BitVec 32) (w : Word) (fl : FFlags) : Host.Outcome State Fault Refusal :=
      .next (s.retires c i ({ s.stepped c i with srseed := sd, fflags := sl.fflags ||| fl }.setRes rFlt w))
    let later (r : FRes) (l : Nat) : Host.Outcome State Fault Refusal :=
      if sl.issuedAt + l ≤ (s.core c).cycles + 1 then end_ seed (BitVec.ofNat 64 r.code) r.flags
      else .next (s.retires c i
        { s.stepped c i with srseed := seed, res := sl.res.set rFlt ⟨BitVec.ofNat 64 r.code, true, sl.issuedAt + l, r.flags⟩ })
    let res (r : FRes) : Host.Outcome State Fault Refusal := end_ seed (BitVec.ofNat 64 r.code) r.flags
    let nan := (v o).isNaN || (v t).isNaN
    let signal := snan (v o) ||| snan (v t)
    (q.toNat % 16 ≤ 1 → (q.toNat / 16 % 16 ≤ 4 ∨ q.toNat / 16 % 16 = 7) →
        exec (.fltAdd m) s = res (fAdd f rm sat draw (v o) (v t)) ∧ exec (.fltSub m) s = res (fAdd f rm sat draw (v o) (v t).negate)
        ∧ exec (.fltMul m) s = res (fMul f rm sat draw (v o) (v t)) ∧ exec (.fltFma m) s = res (fFma f rm sat draw (v o) (v t) (v p))
        ∧ exec (.fltDiv m) s = later (fDiv f rm sat draw (v o) (v t)) (if wide then 30 else 18)
        ∧ exec (.fltSqrt m) s = later (fSqrt f rm sat draw (v t)) (if wide then 30 else 18))
      ∧ (q.toNat % 16 ≤ 1 →
        exec (.fltMin m) s = end_ sl.srseed (BitVec.ofNat 64 (fPick f false (v o) (v t)).code) signal
        ∧ exec (.fltMax m) s = end_ sl.srseed (BitVec.ofNat 64 (fPick f true (v o) (v t)).code) signal
        ∧ exec (.fltEq m) s = end_ sl.srseed (if !nan && (v o).eqv (v t) then 1 else 0) signal
        ∧ exec (.fltLt m) s = end_ sl.srseed (if !nan && (v o).lt (v t) then 1 else 0) (if nan then NV else 0)
        ∧ exec (.fltLe m) s = end_ sl.srseed (if !nan && ((v o).lt (v t) || (v o).eqv (v t)) then 1 else 0) (if nan then NV else 0)
        ∧ exec (.fltClass m) s = end_ sl.srseed (BitVec.ofNat 64 (fClass f (v t))) 0)
      ∧ exec (.fltTdec m) s = end_ sl.srseed
          (BitVec.ofNat 64 (((s.core c).tables.get 0 (256 * (q.toNat / 2 ^ 12 % 4) + t.toNat % 256)).toNat % 2 ^ 19 * 2 ^ 13)) 0

/-- flt.cvt and flt.tenc (09 R233, R237, R238) with legal control fields: the conversion, and the code of the table's nearest entry. -/
def Parts.FloatConversions : Prop :=
  ∀ (s : State) (c i : Nat) (m : Lone), LoneReady s c i m →
    let sl := s.slot c i
    let q := sl.operand 0x54
    let t := s.loneValue c i m
    let src := q.toNat % 16
    let dst := q.toNat / 2 ^ 8 % 16
    let field := q.toNat / 16 % 16
    let rm := if field = 7 then sl.fmode.toNat else field
    let seed := if rm = 4 then lfsrStep sl.srseed else sl.srseed
    let draw := (lfsrStep sl.srseed).toNat
    let end_ (sd : BitVec 32) (w : Word) (fl : FFlags) : Host.Outcome State Fault Refusal :=
      .next (s.retires c i ({ s.stepped c i with srseed := sd, fflags := sl.fflags ||| fl }.setRes rFlt w))
    let r := convert src dst rm (q.getLsbD 14) draw t
    let e := encodeTable (tableView (s.core c).tables (q.toNat / 2 ^ 12 % 4) (if dst = 7 then 256 else 16)) rm (q.getLsbD 14) draw
      (Fmt.f32.value (t.toNat % 2 ^ 32))
    (field ≤ 4 ∨ field = 7) →
      (src ≠ 7 → src ≠ 8 → dst ≠ 7 → dst ≠ 8 →
        exec (.fltCvt m) s = end_ (if dst = 0xE then sl.srseed else seed) (resultWord dst r.code) r.flags)
      ∧ (dst = 7 ∨ dst = 8 → exec (.fltTenc m) s = end_ seed (BitVec.ofNat 64 e.code) e.flags)

/-- flt: results, flags, stream and latency (09 R235, R237 to R239). -/
def Obligations.FloatOperations : Prop := Parts.FloatResults ∧ Parts.FloatConversions

/-- A flt operation with an illegal control field raises ILLEGAL_WORD and does nothing else (09 R234, R238): a rounding code of 5, 6 or
above 7 where it rounds, a format code above 1, a table code in flt.cvt, another code in flt.tenc. -/
def Obligations.FloatIllegalFieldsTrap : Prop :=
  ∀ (s : State) (c i : Nat) (m : Lone), LoneReady s c i m →
    let q := (s.slot c i).operand 0x54
    let fmt := q.toNat % 16
    let dst := q.toNat / 2 ^ 8 % 16
    let badRm := ¬ (q.toNat / 16 % 16 ≤ 4 ∨ q.toNat / 16 % 16 = 7)
    let traps (ins : Instr) (d : BitVec 14) : Prop :=
      exec ins s = .next (s.trap c i ⟨0x01, 0, none, d.setWidth 64⟩ false (s.slot c i).pc (pairWord (m.to d) Move.nop))
    (badRm ∨ 1 < fmt → traps (.fltAdd m) 0x340 ∧ traps (.fltSub m) 0x341 ∧ traps (.fltMul m) 0x342 ∧ traps (.fltDiv m) 0x343
        ∧ traps (.fltSqrt m) 0x344 ∧ traps (.fltFma m) 0x345)
      ∧ (1 < fmt → traps (.fltMin m) 0x346 ∧ traps (.fltMax m) 0x347 ∧ traps (.fltEq m) 0x348 ∧ traps (.fltLt m) 0x349
        ∧ traps (.fltLe m) 0x34A ∧ traps (.fltClass m) 0x34B)
      ∧ (badRm ∨ fmt = 7 ∨ fmt = 8 ∨ dst = 7 ∨ dst = 8 → traps (.fltCvt m) 0x34C)
      ∧ (badRm ∨ ¬ (dst = 7 ∨ dst = 8) → traps (.fltTenc m) 0x34E)

/-! ## Moves and special registers -/

/-- A pair word whose destinations are registers and operand ports (02 R32, R34, R38, R50, 04 R76, R77): both moves read before either
writes, a move whose guard reads 0 writes nothing, x0 and g0 discard writes, a guard takes bit 0, and nothing else of the strand
changes. -/
def Parts.PlainPairs : Prop :=
  ∀ (s : State) (c i : Nat) (a b : Move), OnStage s c i → a.dst.toNat < 0x61 → b.dst.toNat < 0x61
    → (a.dst = b.dst → a.dst = 0 ∨ a.dst = 0x20) →
    let sl := s.slot c i
    let va := s.source c i (DMove.ofMove a false)
    let vb := s.source c i (DMove.ofMove b true)
    let toA (n : Nat) : Prop := sl.live (DMove.ofMove a false) = true ∧ a.dst.toNat = n
    let toB (n : Nat) : Prop := sl.live (DMove.ofMove b true) = true ∧ b.dst.toNat = n
    ∃ sl', exec (.movePair a b) s = .next (s.retires c i sl') ∧ sl'.pc = sl.pc + 8
      ∧ sl'.readX 0 = 0 ∧ sl'.readG 0 = true
      ∧ (∀ n, 1 ≤ n → n < 32 → (toA n → sl'.readX n = va) ∧ (toB n → sl'.readX n = vb) ∧ (¬ toA n → ¬ toB n → sl'.readX n = sl.readX n))
      ∧ (∀ n, 1 ≤ n → n < 8 → (toA (0x20 + n) → sl'.readG n = va.getLsbD 0) ∧ (toB (0x20 + n) → sl'.readG n = vb.getLsbD 0)
          ∧ (¬ toA (0x20 + n) → ¬ toB (0x20 + n) → sl'.readG n = sl.readG n))
      ∧ (∀ n, 0x40 ≤ n → n < 0x61 → (toA n → sl'.operand n = va) ∧ (toB n → sl'.operand n = vb)
          ∧ (¬ toA n → ¬ toB n → sl'.operand n = sl.operand n))
      ∧ sl'.res = sl.res ∧ sl'.segL = sl.segL ∧ sl'.segH = sl.segH ∧ sl'.stage = sl.stage ∧ sl'.fflags = sl.fflags
      ∧ sl'.fmode = sl.fmode ∧ sl'.srseed = sl.srseed ∧ sl'.base = sl.base ∧ sl'.level = sl.level ∧ sl'.gsi = sl.gsi

/-- A pair word with triggers (02 R28, R32, R50, R53, R54, R59): no live move needs a privilege that the strand lacks, and none conflicts with the other. Where the plain writes and the
immediate triggers commit and no live move is a resolving unit's trigger, the word retires; a resolving trigger acts on the committed slot, and the word retires after it, faults with nothing of it
in effect, or is held. A fault of an immediate trigger traps. -/
def Parts.PairOperations : Prop :=
  ∀ (s : State) (c i : Nat) (a b : Move), OnStage s c i →
    let sl := s.slot c i
    let live := [DMove.ofMove a false, DMove.ofMove b true].filter sl.live
    let ms := live.map (fun m => MoveVal.mk m.dst (s.source c i m) m.isB)
    (sl.level = 1 ∨ ∀ m ∈ live, needsHandler m.dst = false) → anyConflict live = false →
      (∀ e, s.commitSlot c i ms sl.pc (sl.pc + 8) = .error e →
          exec (.movePair a b) s = .next (s.trap c i (withInfo e.1 e.2) e.2.isB sl.pc (pairWord a b)))
        ∧ ∀ sl', s.commitSlot c i ms sl.pc (sl.pc + 8) = .ok sl' →
            (resolvingMove ms = none → exec (.movePair a b) s = .next (s.retires c i sl'))
              ∧ ∀ m, resolvingMove ms = some m →
                  let r := resolve ⟨c, i, m, sl.pc, sl.pc + 8, pairWord a b⟩ sl' s none
                  (∀ u, r = .done u → u.current = s.current → (u.slot c i).st = .issued → (u.slot c i).stopReq = false → (u.slot c i).park = none →
                      exec (.movePair a b) s = .next (u.retires c i (u.slot c i)))
                    ∧ (∀ f, r = .fault f → f.code ≠ cDataLost → exec (.movePair a b) s = .next (s.trap c i (withInfo f m) m.isB sl.pc (pairWord a b)))
                    ∧ ∀ u why st rep, r = .hold u why st rep → (∀ va, why ≠ .page va) → u.current = s.current →
                        ∃ t, exec (.movePair a b) s = .next t ∧ t.isHeld c i why st

/-- Pairs of moves: what two plain moves write, and what a pair with triggers does (02 R28, R50, R51, R59). -/
def Obligations.PairMovesWrite : Prop := Parts.PlainPairs ∧ Parts.PairOperations

/-- Long words and literal pairs (02 R27, R29): a long word carries a 44-bit literal, sign-extended, and takes 8 bytes; a literal pair
carries 64 bits and takes 16. They write general registers, guards and operand ports as any move does. -/
def Obligations.LiteralMovesWrite : Prop :=
  ∀ (s : State) (c i : Nat) (g : BitVec 4) (d : BitVec 14) (imm : BitVec 44) (w : Word), OnStage s c i → d.toNat < 0x61 →
    let sl := s.slot c i
    let live := sl.readG (g.toNat % 8) ≠ g.getLsbD 3
    let write (v : Word) (len : Word) : State :=
      s.retires c i ((if live then sl.writeDst d v else sl).writeItem 0x100 (sl.pc + len))
    exec (.moveLong g d imm) s = .next (write (imm.signExtend 64) 8) ∧ exec (.moveLiteralPair g d w) s = .next (write w 16)

/-- A lone write of a special register (02 R45, 09 R223 to R225): FFLAGS takes bits 4:0, FMODE bits 2:0 with codes 5 to 7 stored as 0, SRSEED
bits 31:0, and a write of a read-only register does nothing. -/
def Parts.SpecialWrites : Prop :=
  ∀ (s : State) (c i : Nat) (m : Lone), LoneReady s c i m →
    let v := s.loneValue c i m
    let done (sl : Slot) : Host.Outcome State Fault Refusal := .next (s.retires c i sl)
    exec (.fmodeWrite m) s = done { s.stepped c i with fmode := if 5 ≤ v.toNat % 8 then 0 else v.extractLsb' 0 3 }
      ∧ exec (.specialRegisterWrite 0x10 m) s = done { s.stepped c i with fflags := v.extractLsb' 0 5 }
      ∧ exec (.specialRegisterWrite 0x12 m) s = done { s.stepped c i with srseed := v.extractLsb' 0 32 }
      ∧ ∀ n, n ∈ [0, 1, 2, 3, 4, 5, 6, 7, 0x13] → exec (.specialRegisterWrite n m) s = done (s.stepped c i)

/-- SEGkL and SEGkH (02 R45, R46, 07 R150): for a handler, a write of SEGkL stages the low half, and a write of SEGkH installs both halves,
with reserved bits stored as 0; for any other strand both raise PRIVILEGE and write nothing. -/
def Parts.SegmentWrites : Prop :=
  ∀ (s : State) (c i : Nat) (m : Lone) (k : BitVec 3), LoneReady s c i m →
    let v := s.loneValue c i m
    let sl := s.slot c i
    let done (sl : Slot) : Host.Outcome State Fault Refusal := .next (s.retires c i sl)
    let trap (d : BitVec 14) : Host.Outcome State Fault Refusal :=
      .next (s.trap c i ⟨0x03, 0, none, 0⟩ false sl.pc (pairWord (m.to d) Move.nop))
    (sl.level = 1 →
        exec (.segklWrite k m) s = done { s.stepped c i with stage := sl.stage.set k.toNat (v &&& 0x000FFFFFFFFFFFFF) }
        ∧ exec (.segkhWrite k m) s = done { s.stepped c i with
            segL := sl.segL.set k.toNat (sl.stage.get 0 k.toNat), segH := sl.segH.set k.toNat (v &&& 0x01F701FFFFFFFFFF) })
      ∧ (sl.level ≠ 1 → exec (.segklWrite k m) s = trap (BitVec.ofNat 14 (0x820 + 2 * k.toNat))
          ∧ exec (.segkhWrite k m) s = trap (BitVec.ofNat 14 (0x821 + 2 * k.toNat)))

/-- Writes of the special registers (02 R45, R46, 09 R224). -/
def Obligations.SpecialRegisterWrites : Prop := Parts.SpecialWrites ∧ Parts.SegmentWrites

/-- Two live moves of one word that have one destination, or trigger one unit, or both trigger resolving units, or write x30 beside a call, raise PORT_CONFLICT; neither
takes effect (02 R44, R51, R59, 05 R99). -/
def Parts.ConflictingMovesTrap : Prop :=
  ∀ (s : State) (c i : Nat) (a b : Move), OnStage s c i → (s.slot c i).live (DMove.ofMove a false) = true
    → (s.slot c i).live (DMove.ofMove b true) = true → (s.slot c i).level = 1 ∨ (needsHandler a.dst = false ∧ needsHandler b.dst = false)
    → ((a.dst = b.dst ∧ a.dst ≠ 0 ∧ a.dst ≠ 0x20)
        ∨ (a.dst = 0x1E ∧ (b.dst = 0x282 ∨ b.dst = 0x283)) ∨ (b.dst = 0x1E ∧ (a.dst = 0x282 ∨ a.dst = 0x283))
        ∨ (triggersUnit a.dst = true ∧ triggersUnit b.dst = true ∧ a.dst.toNat / 64 = b.dst.toNat / 64)
        ∨ (triggersUnit a.dst = true ∧ triggersUnit b.dst = true ∧ isImmediate (a.dst.toNat / 64) = false
            ∧ isImmediate (b.dst.toNat / 64) = false))
    → exec (.movePair a b) s = .next (s.trap c i ⟨0x02, 0, none, 0⟩ false (s.slot c i).pc (pairWord a b))

/-- An operation that only a handler may use raises PRIVILEGE in any other strand, and does nothing else (02 R43, R59, 14 R358). -/
def Parts.HandlerOperationsTrap : Prop :=
  ∀ (s : State) (c i : Nat) (m : Lone), LoneReady s c i m → (s.slot c i).level ≠ 1 →
    let trap (d : BitVec 14) : Host.Outcome State Fault Refusal :=
      .next (s.trap c i ⟨0x03, 0, none, 0⟩ false (s.slot c i).pc (pairWord (m.to d) Move.nop))
    exec (.sysStop m) s = trap 0x4C1 ∧ exec (.sysRd m) s = trap 0x4C2 ∧ exec (.sysWr m) s = trap 0x4C3 ∧ exec (.sysGo m) s = trap 0x4C4
      ∧ exec (.sysDrain m) s = trap 0x4C5

/-- A word with a live move that reads a pending result port waits in WAIT_PORT with nothing written (02 R41). -/
def Parts.PendingPortWaits : Prop :=
  ∀ (s : State) (c i : Nat) (a : Move) (r : Nat), s.current = some (c, i) → (s.slot c i).live (DMove.ofMove a false) = true
    → a.dst.toNat < 0x61 → a.imm = false → r ≤ 0x15 → a.src.toNat = 0x40 + r → ((s.slot c i).port r).pending = true
    → exec (.movePair a Move.nop) s = .next { s.setSlot c i { s.slot c i with st := .waitPort } with current := none }

/-- The checks that come before a word executes: privilege, conflicts and pending ports (02 R41, R44, R51, R59). -/
def Obligations.WordChecks : Prop := Parts.ConflictingMovesTrap ∧ Parts.HandlerOperationsTrap ∧ Parts.PendingPortWaits

/-! ## Loads, stores and atomics -/

/-- Plain loads from the own core store (07 R151, R152, R177, R178): aligned, within limit and extent, outside the log area, with no
watchpoint set and no uncorrectable granule, each returns the bytes at its location, extended to 64 bits, and nothing else changes. -/
def Obligations.CoreLoads : Prop :=
  ∀ (s : State) (c i : Nat) (m : Lone), LoneReady s c i m → (s.slot c i).operand 0x4C = 0 → s.watches = [] →
    let sl := s.slot c i
    let ea := sl.operand 0x4B + s.loneValue c i m
    let g := sl.seg (ea.toNat / 2 ^ 61)
    let a := g.base + ea.toNat % 2 ^ 61
    let mem := (s.core c).store
    let fits (n : Nat) : Prop := g.space = 1 ∧ g.rd = true ∧ ea.toNat % 2 ^ 61 + n ≤ g.limit ∧ a + n ≤ 0x180000 ∧ a % n = 0
      ∧ ((s.core c).logging = true → a + n ≤ 0x17F000) ∧ mem.lost 8 a n = false
    let res (lo hi : Word) : Host.Outcome State Fault Refusal :=
      .next (s.retires c i (((s.stepped c i).setRes rLsu lo).setRes rLsuh hi))
    (fits 1 → exec (.lsuLd8 m) s = res (BitVec.ofInt 64 (signExt 8 (mem.read a 1))) 0 ∧ exec (.lsuLd8z m) s = res (BitVec.ofNat 64 (mem.read a 1)) 0)
      ∧ (fits 2 → exec (.lsuLd16 m) s = res (BitVec.ofInt 64 (signExt 16 (mem.read a 2))) 0
          ∧ exec (.lsuLd16z m) s = res (BitVec.ofNat 64 (mem.read a 2)) 0)
      ∧ (fits 4 → exec (.lsuLd32 m) s = res (BitVec.ofInt 64 (signExt 32 (mem.read a 4))) 0
          ∧ exec (.lsuLd32z m) s = res (BitVec.ofNat 64 (mem.read a 4)) 0)
      ∧ (fits 8 → exec (.lsuLd64 m) s = res (BitVec.ofNat 64 (mem.read a 8)) 0)
      ∧ (fits 16 → exec (.lsuLd128 m) s = res (BitVec.ofNat 64 (mem.read a 16)) (BitVec.ofNat 64 (mem.read a 16 / 2 ^ 64)))

/-- Plain stores to the own core store (07 R151, R152, R177, R178): the low bytes of lsu.dh and lsu.d are stored at the location, lsu.res and lsu.resh
become 0, every other byte of the store reads as before, and nothing else changes. -/
def Obligations.CoreStores : Prop :=
  ∀ (s : State) (c i : Nat) (m : Lone), LoneReady s c i m → (s.slot c i).operand 0x4C = 0 → s.watches = [] →
    let sl := s.slot c i
    let ea := sl.operand 0x4B + s.loneValue c i m
    let g := sl.seg (ea.toNat / 2 ^ 61)
    let a := g.base + ea.toNat % 2 ^ 61
    let data := (sl.operand 0x4D).toNat + 2 ^ 64 * (sl.operand 0x4E).toNat
    let fits (n : Nat) : Prop := g.space = 1 ∧ g.wr = true ∧ g.cn = false ∧ ea.toNat % 2 ^ 61 + n ≤ g.limit ∧ a + n ≤ 0x180000 ∧ a % n = 0
      ∧ ((s.core c).logging = true → a + n ≤ 0x17F000)
    let stores (ins : Instr) (n : Nat) : Prop := ∃ mem : Mem,
      exec ins s = .next ((s.setCore c { s.core c with store := mem }).retires c i
        (((s.stepped c i).setRes rLsu 0).setRes rLsuh 0))
      ∧ mem.read a n = data % 2 ^ (8 * n) ∧ (∀ b, b < a ∨ a + n ≤ b → mem.byte b = (s.core c).store.byte b)
      ∧ mem.empties = (s.core c).store.empties
    (fits 1 → stores (.lsuSt8 m) 1) ∧ (fits 2 → stores (.lsuSt16 m) 2) ∧ (fits 4 → stores (.lsuSt32 m) 4)
      ∧ (fits 8 → stores (.lsuSt64 m) 8) ∧ (fits 16 → stores (.lsuSt128 m) 16)

/-- The faults of a plain load or store, in their order (07 R152, R178): SEG_RIGHTS for a segment of another space or without the right,
SEG_LIMIT, then MISALIGNED; ADDR has the generic address, and no port is written. -/
def Obligations.AccessFaults : Prop :=
  ∀ (s : State) (c i : Nat) (m : Lone), LoneReady s c i m → (s.slot c i).operand 0x4C = 0 →
    let sl := s.slot c i
    let ea := sl.operand 0x4B + s.loneValue c i m
    let g := sl.seg (ea.toNat / 2 ^ 61)
    let off := ea.toNat % 2 ^ 61
    let own := g.space = 1 ∨ g.space = 2 ∨ g.space = 4
    let faults (ins : Instr) (d : BitVec 14) (n : Nat) (right : Prop) : Prop :=
      (¬ own ∨ ¬ right → exec ins s = .next (s.loneTrap c i m d 0x05 (some ea)))
        ∧ (own → right → g.limit < off + n → exec ins s = .next (s.loneTrap c i m d 0x04 (some ea)))
        ∧ (g.space = 1 → right → off + n ≤ g.limit → 0x180000 < g.base + off + n →
            exec ins s = .next (s.loneTrap c i m d 0x04 (some ea)))
        ∧ (g.space = 1 → right → off + n ≤ g.limit → g.base + off + n ≤ 0x180000 → (g.base + off) % n ≠ 0 →
            exec ins s = .next (s.loneTrap c i m d 0x06 (some ea)))
    faults (.lsuLd8 m) 0x2C0 1 (g.rd = true) ∧ faults (.lsuLd16 m) 0x2C2 2 (g.rd = true) ∧ faults (.lsuLd32 m) 0x2C4 4 (g.rd = true)
      ∧ faults (.lsuLd64 m) 0x2C6 8 (g.rd = true) ∧ faults (.lsuLd128 m) 0x2C7 16 (g.rd = true)
      ∧ faults (.lsuSt8 m) 0x2C8 1 (g.wr = true ∧ g.cn = false) ∧ faults (.lsuSt64 m) 0x2CB 8 (g.wr = true ∧ g.cn = false)
      ∧ faults (.lsuSt128 m) 0x2CC 16 (g.wr = true ∧ g.cn = false)

/-- A plain device-space load (07 R160, R161, R169, R171, R175, R178, 15 R382): bytes that the line cache holds are taken from it; otherwise the page is
translated, an address without a readable page raises PAGE_INVALID, a discarded page reads 0, a page that is not resident parks the word, and a region under
repair holds it. -/
def Parts.LineLoads : Prop :=
  ∀ (s : State) (c i : Nat) (m : Lone), LoneReady s c i m → (s.slot c i).operand 0x4C = 0 → s.watches = [] →
    let sl := s.slot c i
    let ea := sl.operand 0x4B + s.loneValue c i m
    let g := sl.seg (ea.toNat / 2 ^ 61)
    let a := g.base + ea.toNat % 2 ^ 61
    let part := (s.cell c).part
    g.space = 4 → g.rd = true → ea.toNat % 2 ^ 61 + 8 ≤ g.limit → a + 8 ≤ 2 ^ 42 → a % 8 = 0 →
      (∀ k, (s.core c).findLine part a = some k → k.valid &&& wordMask a 8 = wordMask a 8 →
          ∃ t, exec (.lsuLd64 m) s = .next t ∧ ((t.slot c i).port rLsu).val = BitVec.ofNat 64 (blkField k.data (a % 64) 8)
            ∧ (t.slot c i).st = .ready ∧ (t.slot c i).pc = sl.pc + 8 ∧ t.current = none)
        ∧ ((s.core c).findLine part a = none →
            (∀ u phys wok, s.translate (clusterOf c) part a true false = (u, .ok phys false wok) → u.heldAt phys = none
                → u.memory.lost 32 phys 8 = false →
              ∃ t, exec (.lsuLd64 m) s = .next t
                ∧ ((t.slot c i).port rLsu).val = BitVec.ofNat 64 (blkField (u.memory.block (phys / 64 * 64)) (a % 64) 8)
                ∧ (t.slot c i).st = .ready ∧ (t.slot c i).pc = sl.pc + 8 ∧ t.current = none)
            ∧ (∀ u phys wok, s.translate (clusterOf c) part a true false = (u, .ok phys true wok) →
              ∃ t, exec (.lsuLd64 m) s = .next t ∧ ((t.slot c i).port rLsu).val = 0 ∧ (t.slot c i).st = .ready ∧ (t.slot c i).pc = sl.pc + 8)
            ∧ (∀ u phys wok n, s.translate (clusterOf c) part a true false = (u, .ok phys false wok) → u.heldAt phys = some n →
              ∃ t, exec (.lsuLd64 m) s = .next t ∧ t.isHeld c i (.repair n) .issued ∧ .word c i ∈ (t.stack n).delayed)
            ∧ (∀ u, s.translate (clusterOf c) part a true false = (u, .fault 0x07) →
              exec (.lsuLd64 m) s = .next (s.loneTrap c i m 0x2C6 0x07 (some ea)))
            ∧ (∀ u, s.translate (clusterOf c) part a true false = (u, .park) →
              ∃ t, exec (.lsuLd64 m) s = .next t ∧ t.isHeld c i (.page a) .waitPage ∧ .pageWake (u.cell c).part a ∈ t.agenda))

/-- Plain device-space stores (07 R160, R161, R169, R171 to R173, R178): with its 8 words present in a line that may be written, a store of 8 bytes goes into the line;
where no line has the address, the page is translated with the write right, and the line is made, filled from memory under a store of fewer bytes; the words written
are dirty, memory stays as it is where no line is evicted, and so do the other words of the line. An address without a writable page raises PAGE_INVALID, a page that is
not resident parks the word, and a full log holds it. -/
def Parts.LineStores : Prop :=
  ∀ (s : State) (c i : Nat) (m : Lone), LoneReady s c i m → (s.slot c i).operand 0x4C = 0 → s.watches = [] →
    let sl := s.slot c i
    let ea := sl.operand 0x4B + s.loneValue c i m
    let g := sl.seg (ea.toNat / 2 ^ 61)
    let a := g.base + ea.toNat % 2 ^ 61
    let part := (s.cell c).part
    let data := (sl.operand 0x4D).toNat + 2 ^ 64 * (sl.operand 0x4E).toNat
    let fits (n : Nat) : Prop := g.space = 4 ∧ g.wr = true ∧ g.cn = false ∧ ea.toNat % 2 ^ 61 + n ≤ g.limit ∧ a + n ≤ 2 ^ 42 ∧ a % n = 0
    let kept (u : State) : Prop := ∀ e size at_, u.walk part a = .leaf e size at_ → pteDisc e = false
    let sameSet := ((s.core c).lines.filter (fun l => l.va / 64 % 256 == a / 64 % 256)).length
    let ends (ins : Instr) (n : Nat) (p : CacheLine → Prop) : Prop := ∃ t k, exec ins s = .next t ∧ t.current = none ∧ (t.slot c i).st = .ready ∧ (t.slot c i).pc = sl.pc + 8
      ∧ ((t.slot c i).port rLsu).val = 0 ∧ ((t.slot c i).port rLsuh).val = 0 ∧ (t.core c).findLine part a = some k ∧ p k
      ∧ wordMask a n &&& k.valid &&& k.dirty = wordMask a n ∧ blkField k.data (a % 64) n = data % 2 ^ (8 * n) ∧ k.wok = true
      ∧ (sameSet < 8 ∨ (sameSet = 8 ∧ (s.core c).findLine part a ≠ none) → t.memory = s.memory)
      ∧ ((s.core c).logging = false → (t.core c).store = (s.core c).store)
    let stores (ins : Instr) (d : BitVec 14) (n : Nat) : Prop := fits n →
      ((s.core c).logRoom a = false → ∃ t, exec ins s = .next t ∧ t.isHeld c i .logSpace .issued ∧ t.memory = s.memory)
        ∧ ((s.core c).logRoom a = true →
            (∀ k, (s.core c).findLine part a = some k → k.wok = true → n = 8 →
                ends ins n (fun k' => k'.valid = k.valid ||| wordMask a 8 ∧ k'.dirty = k.dirty ||| wordMask a 8
                  ∧ ∀ j, j < 8 → j ≠ a % 64 / 8 → blkField k'.data (8 * j) 8 = blkField k.data (8 * j) 8))
              ∧ ((s.core c).findLine part a = none →
                  (∀ u phys wok, s.translate (clusterOf c) part a false true = (u, .ok phys false wok) → u.heldFor part a n = none → kept u
                      → u.memory.lost 32 (phys / 64 * 64) 64 = false →
                    (n = 8 → ends ins n (fun k => k.valid = wordMask a 8 ∧ k.dirty = wordMask a 8))
                      ∧ (n < 8 → ends ins n (fun k => k.valid = 255 ∧ k.dirty = wordMask a n
                          ∧ ∀ j, j < 64 → (j < a % 64 ∨ a % 64 + n ≤ j) → blkField k.data j 1 = blkField (u.memory.block (phys / 64 * 64)) j 1)))
                    ∧ (∀ u, s.translate (clusterOf c) part a false true = (u, .fault 0x07) → exec ins s = .next (s.loneTrap c i m d 0x07 (some ea)))
                    ∧ (∀ u, s.translate (clusterOf c) part a false true = (u, .park) →
                        ∃ t, exec ins s = .next t ∧ t.isHeld c i (.page a) .waitPage ∧ .pageWake (u.cell c).part a ∈ t.agenda)))
    stores (.lsuSt8 m) 0x2C8 1 ∧ stores (.lsuSt16 m) 0x2C9 2 ∧ stores (.lsuSt32 m) 0x2CA 4 ∧ stores (.lsuSt64 m) 0x2CB 8

/-- Plain loads and stores of device space (07 R160, R161, R169, R171 to R173, R175, R178, 15 R382). -/
def Obligations.DeviceLoads : Prop := Parts.LineLoads ∧ Parts.LineStores

/-- Atomic operations on the own core store (07 R180, R181): the location takes the new value in one step, and amo.res has the old one,
sign-extended from its width; the flags of amo.fadd are added to FFLAGS, and nothing else changes. -/
def Parts.OwnAtomics : Prop :=
  ∀ (s : State) (c i : Nat) (m : Lone), LoneReady s c i m → s.watches = [] →
    let sl := s.slot c i
    let mode := sl.operand 0x50
    let w := if mode.getLsbD 8 then 8 else 4
    let ea := sl.operand 0x4F
    let g := sl.seg (ea.toNat / 2 ^ 61)
    let a := g.base + ea.toNat % 2 ^ 61
    let mem := (s.core c).store
    let old := mem.read a w
    let t := (s.loneValue c i m).toNat % 2 ^ (8 * w)
    let cmp := (sl.operand 0x51).toNat % 2 ^ (8 * w)
    let f := if w = 4 then Fmt.f32 else Fmt.f64
    let sum := fAdd f 0 false 0 (f.value old) (f.value t)
    let res (new : Nat) (fl : FFlags) : Host.Outcome State Fault Refusal :=
      .next ((s.setCore c { s.core c with store := mem.write 8 a w new }).retires c i
        ({ s.stepped c i with fflags := sl.fflags ||| fl }.setRes rAmo (BitVec.ofInt 64 (signExt (8 * w) old))))
    mode.toNat % 2 ^ 8 = 0 → g.space = 1 → g.rd = true → g.wr = true → g.at_ = true → g.cn = false → ea.toNat % 2 ^ 61 + w ≤ g.limit
      → a + w ≤ 0x180000 → a % w = 0 → ((s.core c).logging = true → a + w ≤ 0x17F000) → mem.lost 8 a w = false →
      exec (.amoAdd m) s = res ((old + t) % 2 ^ (8 * w)) 0 ∧ exec (.amoAnd m) s = res (old &&& t) 0 ∧ exec (.amoOr m) s = res (old ||| t) 0
        ∧ exec (.amoXor m) s = res (old ^^^ t) 0
        ∧ exec (.amoMin m) s = res (if signExt (8 * w) old ≤ signExt (8 * w) t then old else t) 0
        ∧ exec (.amoMax m) s = res (if signExt (8 * w) t ≤ signExt (8 * w) old then old else t) 0
        ∧ exec (.amoMinz m) s = res (min old t) 0 ∧ exec (.amoMaxz m) s = res (max old t) 0 ∧ exec (.amoSwap m) s = res t 0
        ∧ exec (.amoCas m) s = res (if old = cmp then t else old) 0 ∧ exec (.amoFadd m) s = res sum.code sum.flags

/-- Atomic operations on device memory and on another core's store (07 R151, R164, R172, R180, R181): the location takes the new value at its controller and amo.res has the
old one, sign-extended from its width. On device memory the core's line of the address is gone from its cache first, the page needs both rights, and no other byte
changes; through cluster space the target's store alone changes, and a core without a cell of the launch raises SEG_RIGHTS. -/
def Parts.FarAtomics : Prop :=
  ∀ (s : State) (c i : Nat) (m : Lone), LoneReady s c i m → s.watches = [] →
    let sl := s.slot c i
    let mode := sl.operand 0x50
    let w := if mode.getLsbD 8 then 8 else 4
    let ea := sl.operand 0x4F
    let g := sl.seg (ea.toNat / 2 ^ 61)
    let a := g.base + ea.toNat % 2 ^ 61
    let part := (s.cell c).part
    let t := (s.loneValue c i m).toNat % 2 ^ (8 * w)
    let cmp := (sl.operand 0x51).toNat % 2 ^ (8 * w)
    let kept (u : State) : Prop := ∀ e size at_, u.walk part a = .leaf e size at_ → pteDisc e = false
    let news (old : Nat) : List (Instr × Nat) :=
      [(.amoAdd m, (old + t) % 2 ^ (8 * w)), (.amoAnd m, old &&& t), (.amoOr m, old ||| t), (.amoXor m, old ^^^ t),
        (.amoMin m, if signExt (8 * w) old ≤ signExt (8 * w) t then old else t), (.amoMax m, if signExt (8 * w) t ≤ signExt (8 * w) old then old else t),
        (.amoMinz m, min old t), (.amoMaxz m, max old t), (.amoSwap m, t), (.amoCas m, if old = cmp then t else old)]
    let ends (ins : Instr) (old : Nat) (p : State → Prop) : Prop := ∃ u, exec ins s = .next u ∧ u.current = none ∧ (u.slot c i).st = .ready ∧ (u.slot c i).pc = sl.pc + 8
      ∧ ((u.slot c i).port rAmo).val = BitVec.ofInt 64 (signExt (8 * w) old) ∧ p u
    mode.toNat % 2 ^ 8 = 0 → g.rd = true → g.wr = true → g.at_ = true → g.cn = false → ea.toNat % 2 ^ 61 + w ≤ g.limit → a % w = 0 →
      (g.space = 4 → a + w ≤ 2 ^ 42 → (s.core c).findLine part a = none → (s.core c).logRoom a = true →
        (∀ u phys wok, s.translate (clusterOf c) part a true true = (u, .ok phys false wok) → u.heldAt phys = none → kept u
            → u.memory.lost 32 phys w = false →
          ∀ e ∈ news (u.memory.read phys w), ends e.1 (u.memory.read phys w) (fun v => v.memory = u.memory.write 32 phys w e.2))
          ∧ (∀ u, s.translate (clusterOf c) part a true true = (u, .fault 0x07) → exec (.amoAdd m) s = .next (s.loneTrap c i m 0x300 0x07 (some ea)))
          ∧ (∀ u, s.translate (clusterOf c) part a true true = (u, .park) → ∃ v, exec (.amoAdd m) s = .next v ∧ v.isHeld c i (.page a) .waitPage))
        ∧ (g.space = 2 → a < 2 ^ 28 → a / 2 ^ 21 < 96 → a % 2 ^ 21 + w ≤ 0x180000 →
          let tgt := clusterOf c * 96 + a / 2 ^ 21
          let mem := (s.core tgt).store
          let b := a % 2 ^ 21
          ((s.core tgt).cell.map (·.launch) = some (s.cell c).launch → ((s.core tgt).logging = true → b + w ≤ 0x17F000) → mem.lost 8 b w = false →
              ∀ e ∈ news (mem.read b w), ends e.1 (mem.read b w) (fun v => (v.core tgt).store = mem.write 8 b w e.2 ∧ v.memory = s.memory
                ∧ ∀ d, d ≠ tgt → (v.core d).store = (s.core d).store))
            ∧ ((s.core tgt).cell.map (·.launch) ≠ some (s.cell c).launch → exec (.amoAdd m) s = .next (s.loneTrap c i m 0x300 0x05 (some ea))))

/-- Atomic operations on the own core store, on another core store and on device memory (07 R151, R164, R172, R180, R181). -/
def Obligations.CoreAtomics : Prop := Parts.OwnAtomics ∧ Parts.FarAtomics

/-- Full/empty modes of an 8-byte access to the own core store with no other access waiting there (07 R155, R156): wait-full takes its value
from a full word and consume empties it; produce fills an empty word; an access whose condition does not hold parks in WAIT_FE. -/
def Obligations.FullEmptyAccesses : Prop :=
  ∀ (s : State) (c i : Nat) (m : Lone), LoneReady s c i m → s.watches = [] → (s.core c).retry = Retry.empty →
    let sl := s.slot c i
    let mode := sl.operand 0x4C
    let ea := sl.operand 0x4B + s.loneValue c i m
    let g := sl.seg (ea.toNat / 2 ^ 61)
    let a := g.base + ea.toNat % 2 ^ 61
    let mem := (s.core c).store
    let end_ (mem' : Mem) (v : Word) : Host.Outcome State Fault Refusal :=
      .next ((s.setCore c { s.core c with store := mem' }).retires c i
        (((s.stepped c i).setRes rLsu v).setRes rLsuh 0))
    let parks (ins : Instr) (op : AccessOp) (fe : Nat) : Prop := ∃ t, exec ins s = .next t ∧ t.isHeld c i (.feLocal (a / 8)) .waitFe
      ∧ (t.core c).store = mem
      ∧ (t.core c).retry.entries
          = [⟨⟨op, a, 8, fe, (sl.operand 0x4E) ++ (sl.operand 0x4D), 0⟩, .strand c i⟩]
    g.space = 1 → g.rd = true → g.wr = true → g.cn = false → ea.toNat % 2 ^ 61 + 8 ≤ g.limit → a + 8 ≤ 0x180000 → a % 8 = 0
      → ((s.core c).logging = true → a + 8 ≤ 0x17F000) → mem.lost 8 a 8 = false →
      (mode = 1 → (mem.isFull (a / 8) = true → exec (.lsuLd64 m) s = end_ mem (BitVec.ofNat 64 (mem.read a 8)))
          ∧ (mem.isFull (a / 8) = false → parks (.lsuLd64 m) .load 1))
        ∧ (mode = 2 → (mem.isFull (a / 8) = true → exec (.lsuLd64 m) s = end_ (mem.setFull (a / 8) false) (BitVec.ofNat 64 (mem.read a 8)))
          ∧ (mem.isFull (a / 8) = false → parks (.lsuLd64 m) .load 2))
        ∧ (mode = 3 →
            (mem.isFull (a / 8) = false →
              exec (.lsuSt64 m) s = end_ ((mem.write 8 a 8 (sl.operand 0x4D).toNat).setFull (a / 8) true) 0)
          ∧ (mem.isFull (a / 8) = true → parks (.lsuSt64 m) .store 3))

/-! ## Strands, messages, semaphores and barriers -/

/-- strand.spawn (06 R127, R128): without a free slot it gives all ones and nothing else; with one it creates a READY strand at t with x1
the argument, x2 the spawner's handle, the spawner's segments and rounding mode, and the class asked for; the result is the new
strand's handle. An address that is no code offset, or a class 0, is a fault. -/
def Obligations.SpawnResults : Prop :=
  ∀ (s : State) (c i : Nat) (m : Lone), LoneReady s c i m →
    let sl := s.slot c i
    let t := s.loneValue c i m
    let arg := sl.operand 0x48
    let p := sl.operand 0x49
    let u := s.setSlot c i (s.stepped c i)
    let handle (k : Nat) (n : BitVec 24) : Word := BitVec.ofNat 64 (k + n.toNat * 256)
    let b : Birth := { pc := t, x := [(1, arg), (2, handle i sl.serial)], segL := sl.segL, segH := sl.segH, fmode := sl.fmode,
                       base := p.setWidth 2 }
    (p.toNat % 4 ≠ 0 → t.toNat < 2 ^ 40 → t.toNat % 8 = 0 →
        ((u.core c).freeSlot = none → exec (.strandSpawn m) s = .next (s.loneResult c i rStrand (-1)))
        ∧ ∀ k, (u.core c).freeSlot = some k →
            exec (.strandSpawn m) s
              = .next (s.loneEffect c i rStrand (handle k (nextSerial (s.slot c k).serial)) (fun u => u.create c k b))
            ∧ let n := (u.create c k b).slot c k
              n.st = .ready ∧ n.pc = t ∧ n.readX 1 = arg ∧ n.readX 2 = handle i sl.serial ∧ n.segL = sl.segL ∧ n.segH = sl.segH
                ∧ n.fmode = sl.fmode ∧ n.fflags = 0 ∧ n.g = [] ∧ n.opnd = [] ∧ n.serial = nextSerial (s.slot c k).serial)
      ∧ (p.toNat % 4 = 0 → exec (.strandSpawn m) s = .next (s.loneTrap c i m 0x380 0x03 none))
      ∧ (p.toNat % 4 ≠ 0 → 2 ^ 40 ≤ t.toNat → exec (.strandSpawn m) s = .next (s.loneTrap c i m 0x380 0x04 (some t)))
      ∧ (p.toNat % 4 ≠ 0 → t.toNat < 2 ^ 40 → t.toNat % 8 ≠ 0 → exec (.strandSpawn m) s = .next (s.loneTrap c i m 0x380 0x06 (some t)))

/-- strand.join, strand.yield, strand.sleep, strand.wake and strand.prio (06 R130 to R134): their results, the waits that they enter, and what
they change. -/
def Obligations.StrandResults : Prop :=
  ∀ (s : State) (c i : Nat) (m : Lone), LoneReady s c i m →
    let sl := s.slot c i
    let t := s.loneValue c i m
    let o := sl.operand 0x48
    let n := t.toNat % 2 ^ 32
    let named := (s.core c).named t
    let res (v : Word) : Host.Outcome State Fault Refusal := .next (s.loneResult c i rStrand v)
    (∀ v, named = .ended v → exec (.strandJoin m) s = res v)
      ∧ (named = .overwritten ∨ named = .stale ∨ named = .current i → exec (.strandJoin m) s = res (-1))
      ∧ (∀ j, named = .current j → j ≠ i → exec (.strandJoin m) s = .next (s.loneWait c i (.join j (s.slot c j).serial.toNat) id))
      ∧ exec (.strandYield m) s
          = .next (s.retires c i ({ s.stepped c i with yield := true }.setRes rStrand 0))
      ∧ (sl.wake = true → exec (.strandSleep m) s
          = .next (s.retires c i ({ s.stepped c i with wake := false }.setRes rStrand 1)))
      ∧ (sl.wake = false → n = 0 → exec (.strandSleep m) s = res 0)
      ∧ (sl.wake = false → n = 2 ^ 32 - 1 → exec (.strandSleep m) s = .next (s.loneWait c i (.sleep none) id))
      ∧ (sl.wake = false → n ≠ 0 → n ≠ 2 ^ 32 - 1 →
          exec (.strandSleep m) s = .next (s.loneWait c i (.sleep (some ((s.core c).cycles + n))) id))
      ∧ (∀ j d, named = .current j → j ≠ i → (s.slot c j).park = some (.sleep d) →
          exec (.strandWake m) s = .next (s.loneEffect c i rStrand 1 (fun u => u.wake c j rStrand 1)))
      ∧ (∀ j, named = .current j → (∀ d, (s.slot c j).park ≠ some (.sleep d)) →
          exec (.strandWake m) s = .next (s.loneEffect c i rStrand 0 (fun u => u.setSlot c j { u.slot c j with wake := true })))
      ∧ ((∀ j, named ≠ .current j) → exec (.strandWake m) s = res (-1))
      ∧ (o.getLsbD 63 = true → i ≠ 255 → t.toNat % 4 ≠ 0 → exec (.strandPrio m) s
          = .next (s.loneEffect c i rStrand (sl.base.setWidth 64) (fun u => u.setSlot c i { u.slot c i with base := t.setWidth 2 })))
      ∧ (t.toNat % 4 = 0 → exec (.strandPrio m) s = .next (s.loneTrap c i m 0x386 0x03 none))

/-- strand.exit (06 R118, R129, R130) of a strand that is not its cell's last and not a handler: its slot is FREE with its serial and value as the exit
record, and every strand of the core that waits to join it is READY with the value. -/
def Parts.ExitFreesSlot : Prop :=
  ∀ (s : State) (c i : Nat) (m : Lone), LoneReady s c i m → slotsOnce s c → i ≠ 255 → (s.slot c i).held = none
    → (∃ j, j ≠ i ∧ (j ∈ (s.core c).slots.map (·.1)) ∧ (s.slot c j).st ≠ .free) →
    let v := s.loneValue c i m
    ∃ t, exec (.strandExit m) s = .next t ∧ t.current = none ∧ (t.slot c i).st = .free ∧ (t.slot c i).exitValue = v
      ∧ (t.slot c i).exitSerial = (s.slot c i).serial ∧ (t.slot c i).serial = (s.slot c i).serial ∧ (t.core c).store = (s.core c).store
      ∧ ∀ j, j ≠ i → (s.slot c j).park = some (.join i (s.slot c i).serial.toNat) →
          (t.slot c j).st = .ready ∧ ((t.slot c j).port rStrand).val = v

/-- strand.kill (06 R135): of another strand that waits for nothing, is not the handler and has no word in progress, it ends that strand with the exit
value and gives 1; of an instance that has ended it gives 0 and nothing else. -/
def Parts.KillEndsStrand : Prop :=
  ∀ (s : State) (c i : Nat) (m : Lone), LoneReady s c i m → slotsOnce s c →
    let t := s.loneValue c i m
    let o := (s.slot c i).operand 0x48
    let named := (s.core c).named t
    ((∀ j, named ≠ .current j) → (t.toNat % 256 ≠ 255 ∨ i = 255) → exec (.strandKill m) s = .next (s.loneResult c i rStrand 0))
      ∧ (∀ j, named = .current j → j ≠ i → j ≠ 255 → (s.slot c j).st ≠ .issued → (s.slot c j).held = none
          → (s.slot c j).park = none →
          ∃ u, exec (.strandKill m) s = .next u ∧ endsWith s u c i rStrand 1 ∧ (u.slot c j).st = .free ∧ (u.slot c j).exitValue = o
            ∧ (u.slot c j).exitSerial = (s.slot c j).serial ∧ (u.core c).store = (s.core c).store)
      ∧ (t.toNat % 256 = 255 → i ≠ 255 → exec (.strandKill m) s = .next (s.loneTrap c i m 0x387 0x03 none))

/-- strand.exit and strand.kill (06 R129, R135). -/
def Obligations.StrandEnds : Prop := Parts.ExitFreesSlot ∧ Parts.KillEndsStrand

/-- msg.wait and msg.take (06 R138, R139) on a configured ring: the wait gives TAIL once it differs, or parks; a claim gives the address of the next
entry, a free advances HEAD, and each gives all ones where there is none. On a ring that is not configured both raise SEG_RIGHTS. -/
def Parts.RingResults : Prop :=
  ∀ (s : State) (c i : Nat) (m : Lone), LoneReady s c i m →
    let sl := s.slot c i
    let t := s.loneValue c i m
    let r := t.toNat % 8
    let g := (s.core c).ring r
    let pos := (sl.operand 0x4A).toNat % 2 ^ 32
    let res (v : Word) : Host.Outcome State Fault Refusal := .next (s.loneResult c i rMsg v)
    (g.size ≠ 0 →
        (g.tail.toNat ≠ pos → exec (.msgWait m) s = res (g.tail.setWidth 64))
        ∧ (g.tail.toNat = pos → exec (.msgWait m) s = .next (s.loneWait c i (.msg r pos) id))
        ∧ (t.getLsbD 3 = false → g.claim = g.tail → exec (.msgTake m) s = res (-1))
        ∧ (t.getLsbD 3 = false → g.claim ≠ g.tail → exec (.msgTake m) s
            = .next (s.loneEffect c i rMsg (BitVec.ofNat 64 (g.base + 64 * (g.claim.toNat % g.size)))
                (fun u => u.setCore c ((u.core c).setRing r { g with claim := g.claim + 1 }))))
        ∧ (t.getLsbD 3 = true → g.head = g.claim → exec (.msgTake m) s = res (-1))
        ∧ (t.getLsbD 3 = true → g.head ≠ g.claim → ∃ u, exec (.msgTake m) s = .next u ∧ endsWith s u c i rMsg 0
            ∧ ((u.core c).ring r).head = g.head + 1 ∧ ((u.core c).ring r).senders = g.senders.drop 1))
      ∧ (g.size = 0 → exec (.msgWait m) s = .next (s.loneTrap c i m 0x3C0 0x05 none)
          ∧ exec (.msgTake m) s = .next (s.loneTrap c i m 0x3C1 0x05 none))

/-- The pool operations and q.arm ask an agent outside the core, and their word is held for its reply (06 R137, R143, R146); a pool that
the gang does not own raises SEG_RIGHTS (06 R142). The instance of a panorama whose member 0 is on another device is asked there (the choice is the model's,
notes/assumptions/21.md). q.wait gives the declared generation, or parks (06 R147). -/
def Parts.AgentRequests : Prop :=
  ∀ (s : State) (c i : Nat) (m : Lone), LoneReady s c i m →
    let t := s.loneValue c i m
    let cell := s.cell c
    let asks (ins : Instr) (why : Hold) (e : Event) : Prop := ∃ u, exec ins s = .next u ∧ u.isHeld c i why .issued ∧ e ∈ u.agenda
    let pool (ins : Instr) (d : BitVec 14) (p : Nat) : Prop :=
      (cell.cellinfo.getLsbD (48 + p) = true → asks ins .pool (.poolReply c i))
        ∧ (cell.cellinfo.getLsbD (48 + p) = false → exec ins s = .next (s.loneTrap c i m d 0x05 none))
    pool (.poolPut m) 0x3C2 (((s.slot c i).operand 0x4A).toNat % 16) ∧ pool (.poolTake m) 0x3C3 (t.toNat % 16)
      ∧ pool (.poolClose m) 0x3C4 (t.toNat % 16) ∧ (s.armedAt cell t = none → asks (.qArm m) .detector (.detectorReply c i))
      ∧ (s.armedAt cell t ≠ none → ∃ u r, exec (.qArm m) s = .next u ∧ u.isHeld c i .detector .issued ∧ u.outbox = s.outbox ++ [.remoteRequest r]
          ∧ r.space = 6 ∧ r.srcCore = c ∧ r.srcSlot = i ∧ r.panid = panId cell.paninfo)
      ∧ (∀ g, s.quietDone cell (t.toNat % 2 ^ 32) = some g → ∃ u, exec (.qWait m) s = .next u ∧ endsWith s u c i rMsg (g.setWidth 64))
      ∧ (s.quietDone cell (t.toNat % 2 ^ 32) = none → exec (.qWait m) s = .next (s.loneWait c i (.quiet (t.toNat % 2 ^ 32)) id))

/-- The msg unit: rings, pools and the detector (06 R138 to R147). -/
def Obligations.MessageUnit : Prop := Parts.RingResults ∧ Parts.AgentRequests

/-- The sem operations on a semaphore with no waiter and no gated collective (08 R198 to R201); an index beyond CELLINFO.SEMS raises SEM_RANGE. -/
def Obligations.SemaphoreResults : Prop :=
  ∀ (s : State) (c i : Nat) (m : Lone), LoneReady s c i m →
    let k := s.core c
    let j := ((s.slot c i).operand 0x55).toNat % 1024
    let x := k.sem j
    let t := s.loneValue c i m
    let n := t.toNat % 2 ^ 32
    let up := BitVec.ofNat 64 (min (x.count.toNat + n) (2 ^ 64 - 1))
    let res (v : Word) : Host.Outcome State Fault Refusal := .next (s.loneResult c i rSem v)
    let put (x' : Sem) (v : Word) : Host.Outcome State Fault Refusal :=
      .next (s.loneEffect c i rSem v (fun u => u.setCore c ((u.core c).setSem j x')))
    (j < (s.cell c).sems → x.waiters = [] → (s.die (dieOf c)).col.cmds = [] →
        exec (.semRead m) s = res (if t.toNat % 4 = 0 then x.count else if t.toNat % 4 = 1 then x.target.setWidth 64
          else if t.toNat % 4 = 2 then x.gen.setWidth 64 else if x.arrival then 1 else 0)
        ∧ exec (.semReset m) s = put ⟨t, false, 0, x.gen + 1, []⟩ x.count
        ∧ (n = 0 → exec (.semArm m) s = put { x with arrival := false, target := 0 } (x.gen.setWidth 64))
        ∧ (n ≠ 0 → exec (.semArm m) s = put { x with
            arrival := true, target := BitVec.ofNat 32 n, count := BitVec.ofNat 64 (x.count.toNat % n)
            gen := x.gen + BitVec.ofNat 32 (x.count.toNat / n) } (x.gen.setWidth 64))
        ∧ (x.arrival = false → exec (.semPost m) s = put { x with count := up } up ∧ exec (.semAdd m) s = put { x with count := up } up)
        ∧ (x.arrival = true → x.target ≠ 0 → exec (.semPost m) s = put { x with
            count := BitVec.ofNat 64 (up.toNat % x.target.toNat), gen := x.gen + BitVec.ofNat 32 (up.toNat / x.target.toNat) } up)
        ∧ (x.arrival = false → n = 0 → exec (.semWait m) s = put x x.count ∧ exec (.semTry m) s = put x 1)
        ∧ (x.arrival = false → n ≠ 0 → n ≤ x.count.toNat →
            exec (.semWait m) s = put { x with count := x.count - BitVec.ofNat 64 n } (x.count - BitVec.ofNat 64 n)
            ∧ exec (.semTry m) s = put { x with count := x.count - BitVec.ofNat 64 n } 1)
        ∧ (x.arrival = false → x.count.toNat < n → exec (.semTry m) s = res 0
            ∧ exec (.semWait m) s = .next (s.loneWait c i (.sem j false n)
                (fun u => u.setCore c ((u.core c).setSem j { x with waiters := [(i, n)] }))))
        ∧ (x.arrival = true → x.gen.toNat ≠ n → exec (.semWait m) s = put x (x.gen.setWidth 64) ∧ exec (.semTry m) s = put x 1)
        ∧ (x.arrival = true → x.gen.toNat = n → exec (.semTry m) s = res 0
            ∧ exec (.semWait m) s = .next (s.loneWait c i (.sem j true n)
                (fun u => u.setCore c ((u.core c).setSem j { x with waiters := [(i, n)] })))))
      ∧ ((s.cell c).sems ≤ j → exec (.semPost m) s = .next (s.loneTrap c i m 0x400 0x0B none)
          ∧ exec (.semAdd m) s = .next (s.loneTrap c i m 0x401 0x0B none) ∧ exec (.semWait m) s = .next (s.loneTrap c i m 0x402 0x0B none)
          ∧ exec (.semTry m) s = .next (s.loneTrap c i m 0x403 0x0B none) ∧ exec (.semArm m) s = .next (s.loneTrap c i m 0x404 0x0B none)
          ∧ exec (.semRead m) s = .next (s.loneTrap c i m 0x405 0x0B none)
          ∧ exec (.semReset m) s = .next (s.loneTrap c i m 0x406 0x0B none))

/-- ServeCounting (08 R199): the waiters released are the oldest, in order; what they and the count that is left take adds up to
the count; the first waiter that is left asks for more than is left. -/
def Parts.CountingServiceIsFifo : Prop :=
  ∀ (count : Nat) (ws : List (Nat × Nat)), ∃ k, (serveCounting count ws).2.1 = ws.drop k
    ∧ (serveCounting count ws).2.2.map (·.1) = (ws.take k).map (·.1)
    ∧ (serveCounting count ws).1 + ((ws.take k).map (·.2)).sum = count
    ∧ ∀ w, (ws.drop k).head? = some w → (serveCounting count ws).1 < w.2

/-- A post in counting mode with waiters (08 R198, R199): the oldest waiter whose number the count covers is READY with the count that is left. -/
def Parts.PostReleasesWaiter : Prop :=
  ∀ (s : State) (c i : Nat) (m : Lone) (w need : Nat), LoneReady s c i m →
    let j := ((s.slot c i).operand 0x55).toNat % 1024
    let x := (s.core c).sem j
    let n := (s.loneValue c i m).toNat % 2 ^ 32
    j < (s.cell c).sems → x.arrival = false → x.waiters = [(w, need)] → w ≠ i → (s.die (dieOf c)).col.cmds = []
      → need ≤ x.count.toNat + n → x.count.toNat + n < 2 ^ 64 →
      ∃ t, exec (.semPost m) s = .next t ∧ endsWith s t c i rSem (BitVec.ofNat 64 (x.count.toNat + n))
        ∧ ((t.core c).sem j).count = BitVec.ofNat 64 (x.count.toNat + n - need) ∧ ((t.core c).sem j).waiters = []
        ∧ (t.slot c w).st = .ready ∧ ((t.slot c w).port rSem).val = BitVec.ofNat 64 (x.count.toNat + n - need)

/-- How a post serves the waiters of a counting semaphore (08 R199). -/
def Obligations.CountingService : Prop := Parts.CountingServiceIsFifo ∧ Parts.PostReleasesWaiter

/-- An arrival on a cluster channel of the own gang by a member that is not the phase's last (08 R205, R206, R212): it is counted, its value
enters the phase's accumulator, bar.arrive gives the phase, and the others wait for it; every other arrival count is unchanged. A channel
of another owner, or a cell that is no member, raises BARRIER_MEMBER. -/
def Parts.BarrierArrivals : Prop :=
  ∀ (s : State) (c i : Nat) (m : Lone), LoneReady s c i m → heldApart s →
    let o := (s.slot c i).operand 0x56
    let ch := o.toNat % 32
    let cell := s.cell c
    let h := s.chan (clusterOf c) false ch
    let n := h.cnt.get 0 (c % 96) + 1
    let v := s.loneValue c i m
    let next (kind : Nat) : Channel := { h with cnt := h.cnt.set (c % 96) n, acc0 := h.acc0.combine kind v }
    let effect (kind : Nat) (u : State) : State := (u.release c 2).setChan (clusterOf c) false ch (next kind)
    let parks (ins : Instr) (kind : Nat) : Prop :=
      exec ins s = .next (s.loneWait c i (.bar ch false kind h.phase.toNat) (effect kind))
    o.getLsbD 5 = false →
      (h.owner = some (cell.launch, cell.gang) → h.mask.contains (c % 96) = true →
        (n ≤ h.expect → (∃ k ∈ h.mask, k ≠ c % 96 ∧ h.cnt.get 0 k < h.expect) →
            exec (.barArrive m) s = .next (s.loneEffect c i rBar (h.phase.setWidth 64) (effect 0))
            ∧ parks (.barSync m) 0 ∧ parks (.barMax m) 1 ∧ parks (.barSum m) 3 ∧ parks (.barAnd m) 4 ∧ parks (.barOr m) 5
            ∧ (isSnan32 (v.toNat % 2 ^ 32) = false → parks (.barMaxf m) 2))
          ∧ (h.past (v.setWidth 32) = true → ∃ t, exec (.barWait m) s = .next t ∧ endsWith s t c i rBar ((v.setWidth 32).setWidth 64))
          ∧ (h.past (v.setWidth 32) = false →
              exec (.barWait m) s = .next (s.loneWait c i (.bar ch false 0 (v.setWidth 32 : BitVec 32).toNat) id)))
      ∧ (h.owner ≠ some (cell.launch, cell.gang) ∨ h.mask.contains (c % 96) = false →
          exec (.barArrive m) s = .next (s.loneTrap c i m 0x440 0x0C none) ∧ exec (.barWait m) s = .next (s.loneTrap c i m 0x441 0x0C none)
          ∧ exec (.barSync m) s = .next (s.loneTrap c i m 0x442 0x0C none) ∧ exec (.barMax m) s = .next (s.loneTrap c i m 0x443 0x0C none))

/-- The last arrival of a phase completes it (08 R205): PHASE advances by one, LAST takes the phase's accumulator with the arrival's value, and
EXPECT is subtracted from every count. -/
def Parts.LastArrivalCompletesPhase : Prop :=
  ∀ (s : State) (c i : Nat) (m : Lone), LoneReady s c i m → slotsOnce s c → heldApart s →
    let o := (s.slot c i).operand 0x56
    let ch := o.toNat % 32
    let cell := s.cell c
    let h := s.chan (clusterOf c) false ch
    o.getLsbD 5 = false → h.owner = some (cell.launch, cell.gang) → h.mask = [c % 96] → h.cnt = [(c % 96, h.expect - 1)] → 1 ≤ h.expect → h.early = [] →
      ∃ t, exec (.barArrive m) s = .next t ∧ endsWith s t c i rBar (h.phase.setWidth 64)
        ∧ (t.chan (clusterOf c) false ch).phase = h.phase + 1 ∧ (t.chan (clusterOf c) false ch).last = h.acc0
        ∧ (t.chan (clusterOf c) false ch).acc0 = h.acc1 ∧ (t.chan (clusterOf c) false ch).cnt = [(c % 96, 0)]

/-- Arrivals on cluster channels, and the completion of a phase (08 R205, R206). -/
def Obligations.Barriers : Prop := Parts.BarrierArrivals ∧ Parts.LastArrivalCompletesPhase

/-- ord (05 R110, 08 R192 to R195): a fence whose masks are empty, and acquire and release at a scope, complete at once with their effect on the
line cache alone; a fence over an engine whose accesses are not all performed is held; cinv and cwb of every line write back what
is dirty, and icsync empties the code buffer; a scope above 4 raises ILLEGAL_WORD. -/
def Obligations.OrderingResults : Prop :=
  ∀ (s : State) (c i : Nat) (m : Lone), LoneReady s c i m → heldApart s →
    let sl := s.slot c i
    let o := sl.operand 0x57
    let scope := o.toNat % 8
    let t := s.loneValue c i m
    let pred := t.toNat % 256
    let succ := t.toNat / 256 % 256
    (scope < 5 →
        (pred = 0 ∨ succ = 0 → exec (.ordFence m) s = .next (s.loneDone c i id))
        ∧ (pred ≠ 0 → succ ≠ 0 → s.predDone c i pred = false → ∃ u, exec (.ordFence m) s = .next u ∧ u.isHeld c i .fence .issued)
        ∧ (pred ≠ 0 → succ ≠ 0 → s.predDone c i pred = true → exec (.ordFence m) s = .next (s.loneDone c i (fun u =>
            let u := if pred / 2 % 2 = 1 then u.release c scope else u
            if succ % 2 = 1 then u.acquire c scope else u)))
        ∧ exec (.ordAcq m) s = .next (s.loneDone c i (fun u => u.acquire c scope))
        ∧ exec (.ordRel m) s = .next (s.loneDone c i (fun u => u.release c scope))
        ∧ (o.toNat / 256 % 2 ^ 24 = 0 → ∃ u, exec (.ordIcsync m) s = .next u ∧ u.current = none ∧ (u.slot c i).pc = sl.pc + 8
            ∧ (scope < 2 → (u.core c).code = [])))
      ∧ (o.toNat / 256 % 2 ^ 24 = 0 → exec (.ordCwb m) s = .next (s.loneDone c i (fun u => u.cleanLines c (fun _ => true)))
          ∧ ∃ u, exec (.ordCinv m) s = .next u ∧ u.current = none ∧ (u.slot c i).pc = sl.pc + 8 ∧ (u.core c).lines = [])
      ∧ (5 ≤ scope → exec (.ordFence m) s = .next (s.loneTrap c i m 0x480 0x01 none)
          ∧ exec (.ordAcq m) s = .next (s.loneTrap c i m 0x481 0x01 none) ∧ exec (.ordRel m) s = .next (s.loneTrap c i m 0x482 0x01 none)
          ∧ exec (.ordIcsync m) s = .next (s.loneTrap c i m 0x483 0x01 none))

/-! ## Traps, handlers and debug -/

/-- sys.trap of a strand that is no handler raises SOFTWARE with its value in INFO, and dbg.brk raises BREAKPOINT (14 R348, R350, R353, 17
R429): the strand is TRAPPED at the word's own offset with none of it executed, and its record has the code, the slot, the pc, the word,
INFO, the strand's identifier and its serial. The mailbox write is due. -/
def Obligations.TrapEntry : Prop :=
  ∀ (s : State) (c i : Nat) (m : Lone), LoneReady s c i m → i < 256 → (s.cell c).preempt ≠ .stopped →
    let sl := s.slot c i
    let traps (ins : Instr) (d : BitVec 14) (code : Nat) (info : Word) : Prop := ∃ t r, exec ins s = .next t ∧ t.current = none
      ∧ (t.slot c i).st = .trapped ∧ (t.slot c i).pc = sl.pc ∧ (t.slot c i).trap = some r ∧ sameRegs sl (t.slot c i)
      ∧ (t.slot c i).res = sl.res ∧ .mailboxRecordWrite c i ∈ t.agenda ∧ (i, (s.core c).cycles) ∈ (t.core c).faults
      ∧ blkField r 0 1 = 0 ∧ blkField r 1 1 = code ∧ blkField r 2 1 = 0 ∧ blkField r 3 1 = i ∧ blkField r 8 8 = sl.pc.toNat
      ∧ blkField r 16 8 = (pairWord (m.to d) Move.nop).toNat ∧ blkField r 32 8 = info.toNat ∧ blkField r 40 8 = sl.gsi.toNat
      ∧ blkField r 56 3 = sl.serial.toNat
    (i ≠ 255 → traps (.sysTrap m) 0x4C0 0x0F (s.loneValue c i m)) ∧ traps (.dbgBrk m) 0x500 0x0D 0x500

/-- A trap changes no register, guard, port, segment or mode of its strand but for the pending results, which complete with their flags (02 R58, 14 R350), no other slot
and no memory of the core (14 R351), nor device memory where the cluster does not trace (17 R435). -/
def Obligations.TrapFrame : Prop :=
  ∀ (s : State) (c i : Nat) (f : FaultInfo) (b : Bool) (pc word : Word), (s.cluster (clusterOf c)).trace.en = false →
    let t := s.trap c i f b pc word
    t.memory = s.memory ∧ (∀ d, d ≠ c → t.core d = s.core d) ∧ (∀ j, j ≠ i → t.slot c j = s.slot c j)
      ∧ (t.core c).store = (s.core c).store ∧ (t.core c).plane = (s.core c).plane ∧ (t.core c).sems = (s.core c).sems
      ∧ t.queues = s.queues ∧ ((s.slot c i).idleWait = false → t.launches = s.launches) ∧ t.hbm = s.hbm ∧ t.mgmt = s.mgmt ∧ (t.slot c i).x = (s.slot c i).x
      ∧ (t.slot c i).g = (s.slot c i).g ∧ (t.slot c i).opnd = (s.slot c i).opnd ∧ (t.slot c i).segL = (s.slot c i).segL ∧ (t.slot c i).segH = (s.slot c i).segH
      ∧ (t.slot c i).stage = (s.slot c i).stage ∧ (t.slot c i).fmode = (s.slot c i).fmode ∧ (t.slot c i).srseed = (s.slot c i).srseed
      ∧ sameRegs (s.slot c i).drain (t.slot c i) ∧ (t.slot c i).res = (s.slot c i).drain.res

/-- The end of a handler with disposition 0 (14 R356, R365): the trapped strand, STOPPED with no wait recorded, is READY at its pc, and the
handler's slot is FREE. -/
def Obligations.HandlerResumesStrand : Prop :=
  ∀ (s : State) (c : Nat) (m : Lone) (rec : Block) (cell : Cell), LoneReady s c 255 m → slotsOnce s c → (s.slot c 255).held = none →
    let a := (s.loneValue c 255 m).toNat
    let r := (s.core c).store.block a
    let j := blkField rec 3 1
    let sl := s.slot c j
    (s.core c).handling = some rec → (s.core c).cell = some cell → cell.preempt = .running → (s.core c).intake = []
      → blkField rec 0 1 = 0 → j < 255 → j ∈ (s.core c).slots.map (·.1) → sl.st = .stopped → sl.held = none → sl.park = none
      → sl.waitdesc = 0 → sl.serial.toNat = blkField rec 56 3 → a < 0x180000 → a % 64 = 0 → (s.core c).store.lost 8 a 64 = false
      → blkField r 4 1 < 4 → blkField r 5 1 = 0 → blkField r 6 2 = 0 → blkField r 59 5 = 0 →
      ∃ t, exec (.sysTrap m) s = .next t ∧ (t.slot c 255).st = .free ∧ (t.slot c j).st = .ready ∧ (t.slot c j).pc = sl.pc
        ∧ sameRegs sl (t.slot c j) ∧ (t.slot c j).res = sl.res ∧ (t.slot c j).skipBreak = true ∧ (t.core c).handling = none

/-- sys.rd, sys.wr, sys.stop, sys.go and sys.drain in a handler (14 R358 to R366): items of a STOPPED slot read and written, a strand stopped at a
word boundary and resumed at its pc, and the engines drained. -/
def Obligations.HandlerOperations : Prop :=
  ∀ (s : State) (c i : Nat) (m : Lone), LoneReady s c i m → (s.slot c i).level = 1 → slotsOnce s c →
    let o := (s.slot c i).operand 0x58
    let t := s.loneValue c i m
    let j := o.toNat % 256
    let item := o.toNat / 256 % 1024
    let res (v : Word) : Host.Outcome State Fault Refusal := .next (s.loneResult c i rSys v)
    (o.getLsbD 18 = false → j ≠ i → j ≠ 255 → (s.slot c j).st = .stopped → slotItem item = true →
        exec (.sysRd m) s = res ((s.slot c j).item item)
        ∧ (item ≠ 0x101 → exec (.sysWr m) s
            = .next (s.loneEffect c i rSys 0 (fun u => u.setSlot c j ((u.slot c j).writeItem item t)))))
      ∧ (o.getLsbD 18 = false → slotItem item = false → exec (.sysRd m) s = .next (s.loneTrap c i m 0x4C2 0x01 none)
          ∧ exec (.sysWr m) s = .next (s.loneTrap c i m 0x4C3 0x01 none))
      ∧ (∀ k, (s.core c).named t = .current k → t.toNat % 256 ≠ 255 → k ≠ i →
          ((s.slot c k).st = .stopped ∨ (s.slot c k).st = .trapped → exec (.sysStop m) s = res 0)
          ∧ ((s.slot c k).st = .ready → (s.slot c k).held = none → (s.slot c k).park = none →
              ∃ u, exec (.sysStop m) s = .next u ∧ endsWith s u c i rSys 1 ∧ (u.slot c k).st = .stopped
                ∧ (u.slot c k).pc = (s.slot c k).pc)
          ∧ ((s.slot c k).st ≠ .stopped → exec (.sysGo m) s = res 0)
          ∧ ((s.slot c k).st = .stopped → (s.slot c k).waitdesc = 0 → panValid (s.cell c).paninfo = false →
              exec (.sysGo m) s = .next (s.loneEffect c i rSys 1 (fun u => u.resumeReady c k)))
          ∧ ((s.slot c k).st = .stopped → 8 ≤ (s.slot c k).waitdesc.toNat % 16 → exec (.sysGo m) s = res 2))
      ∧ (t.toNat % 256 = 255 ∨ (∀ k, (s.core c).named t ≠ .current k) → exec (.sysStop m) s = res (-1) ∧ exec (.sysGo m) s = res (-1))
      ∧ (s.drained c t.toNat = true → s.drainsFar c = false →
          exec (.sysDrain m) s = .next (s.loneEffect c i rSys 0 (fun u => u.passRefused c t.toNat)))
      ∧ (s.drained c t.toNat = false ∨ s.drainsFar c = true → ∃ u, exec (.sysDrain m) s = .next u ∧ u.isHeld c i .drain .issued)

/-- dbg.mark and dbg.step, and the mnt operations (15 R390 to R392, 17 R431 to R436): a mark that is traced writes its record of five words, with the cycle, the strand's
identifier, the value and the low 16 bits of the length port, and gives 1; one that is not traced, or finds no room and is counted, gives 0. A strand may step itself, and
one that does is stepped from its next word; a handler may step any other strand of its core, and another strand's attempt raises PRIVILEGE. Each mnt word is held for its
controller's reply, and a discard is first checked. -/
def Obligations.DebugAndMaintenance : Prop :=
  ∀ (s : State) (c i : Nat) (m : Lone), LoneReady s c i m →
    let sl := s.slot c i
    let t := s.loneValue c i m
    let g := sl.seg (t.toNat / 2 ^ 61)
    let len := (sl.operand 0x59).toNat
    let off := t.toNat % 2 ^ 61
    let asks (ins : Instr) : Prop := ∃ u, exec ins s = .next u ∧ u.isHeld c i .mnt .issued ∧ .mntReply c i ∈ u.agenda
    ((s.cluster (clusterOf c)).trace.on 1 (s.cell c).part = false → exec (.dbgMark m) s = .next (s.loneResult c i rDbg 0))
      ∧ (let tr := (s.cluster (clusterOf c)).trace;
          tr.on 1 (s.cell c).part = true →
            (5 + (tr.wr - tr.rd).toNat ≤ 2 ^ tr.log2w → tr.dropped = 0 → ∃ u, exec (.dbgMark m) s = .next u ∧ endsWith s u c i rDbg 1
                ∧ (u.cluster (clusterOf c)).trace = { tr with wr := tr.wr + 5 } ∧ (u.core c).store = (s.core c).store
                ∧ ∀ e ∈ [(0, traceHeader 1 5 c i 0), (1, BitVec.ofNat 64 (s.core c).cycles), (2, sl.gsi), (3, t), (4, BitVec.ofNat 64 (len % 2 ^ 16))],
                    u.memory.read (tr.base.toNat + 8 * ((tr.wr.toNat + e.1) % 2 ^ tr.log2w)) 8 = e.2.toNat)
              ∧ (2 ^ tr.log2w < 5 + (tr.wr - tr.rd).toNat → ∃ u, exec (.dbgMark m) s = .next u ∧ endsWith s u c i rDbg 0 ∧ u.memory = s.memory
                ∧ (u.cluster (clusterOf c)).trace = { tr with dropped := min (tr.dropped + 1) (2 ^ 30 - 1) }))
      ∧ (i ≠ 255 → (s.core c).named t = .current i → t.toNat % 256 = i → ∃ u, exec (.dbgStep m) s = .next u ∧ endsWith s u c i rDbg 1
          ∧ (u.slot c i).step = true)
      ∧ (t.toNat % 256 = 255 → exec (.dbgStep m) s = .next (s.loneTrap c i m 0x502 0x03 none))
      ∧ (t.toNat % 256 ≠ 255 →
          (∀ j, (s.core c).named t = .current j → j ≠ i →
            (i = 255 → ∃ u, exec (.dbgStep m) s = .next u ∧ endsWith s u c i rDbg (if (s.slot c j).step then 0 else 1) ∧ (u.slot c j).step = true
                ∧ (u.slot c j).st = (s.slot c j).st ∧ sameRegs (s.slot c j) (u.slot c j))
              ∧ (i ≠ 255 → exec (.dbgStep m) s = .next (s.loneTrap c i m 0x502 0x03 none)))
            ∧ ((∀ j, (s.core c).named t ≠ .current j) → exec (.dbgStep m) s = .next (s.loneResult c i rDbg (-1))))
      ∧ asks (.mntSpare m) ∧ asks (.mntNotice m) ∧ asks (.mntState m)
      ∧ (g.space = 4 → g.wr = true → g.cn = false → off + len ≤ g.limit → (g.base + off) % 2 ^ 16 = 0 → len % 2 ^ 16 = 0 →
          asks (.mntDiscard m))
      ∧ (g.space ≠ 4 ∨ g.wr = false ∨ g.cn = true → exec (.mntDiscard m) s = .next (s.loneTrap c i m 0x506 0x05 (some t)))
      ∧ (g.space = 4 → g.wr = true → g.cn = false → off + len ≤ g.limit → ((g.base + off) % 2 ^ 16 ≠ 0 ∨ len % 2 ^ 16 ≠ 0) →
          exec (.mntDiscard m) s = .next (s.loneTrap c i m 0x506 0x06 (some t)))

/-! ## Engine triggers -/

/-- A trigger of the copy engine with a free slot and a block that passes every check is accepted (10 R243, R244, 02 R49): cpy.res has the command's sequence
number, and the command, with its captured block, is the newest of the engine. cpy.mapinval of everything empties the descriptor cache (10 R256). -/
def Obligations.CopyAcceptance : Prop :=
  ∀ (s : State) (c i : Nat) (m : Lone), LoneReady s c i m →
    let sl := s.stepped c i
    let o := sl.operand 0x5A
    let t := s.loneValue c i m
    let seq := (s.core c).cpy.seq
    (∀ e, e ∈ [(Instr.cpyCopy m, 0), (.cpyFill m, 1), (.cpyGather m, 2), (.cpyScatter m, 3), (.cpyPlane m, 4), (.cpyMcast m, 5)] →
      ∀ l b u smap dmap, s.mustWait c i 0 = false → s.blockAt c sl t o = .ok (l, b) → cpyBlockOk e.2 b = true
        → s.cpyFetch c e.2 sl b = (.ok u dmap, smap) → cpyMapsOk e.2 sl b smap dmap = true → u.cpyRanges c e.2 sl b smap dmap = none
        → (cpyArrive b = true → cpyAsem b < (u.cell c).sems) → u.core c = { s.core c with maps := (u.core c).maps } → u.current = s.current →
        ∃ v k, exec e.1 s = .next v ∧ endsWith s v c i rCpy (seq.setWidth 64) ∧ (v.core c).cpy.cmds = (s.core c).cpy.cmds ++ [k]
          ∧ k.seq = seq.toNat ∧ k.op.toNat = 0x600 + e.2 ∧ k.blk = b ∧ k.loc = l ∧ k.port = o ∧ k.smap = smap ∧ k.dmap = dmap
          ∧ k.slot = i ∧ k.gsi = sl.gsi ∧ k.finished = false ∧ .cpyActivate c ∈ v.agenda ∧ v.memory = u.memory
          ∧ (v.core c).store = (s.core c).store)
    ∧ (t = -1 → exec (.cpyMapinval m) s = .next ((s.setCore c { s.core c with maps := [] }).retires c i
        (sl.setRes rCpy 0)))

/-- A trigger of the matrix engine with a free slot and a block that passes every check is accepted (11 R271, R278): mx.res has the sequence number, the
command has the block and the core's decode tables, and work of the engine is due; mx.gmma whose grid has other cores is held until they
have taken their parts. -/
def Obligations.MatrixAcceptance : Prop :=
  ∀ (s : State) (c i : Nat) (m : Lone), LoneReady s c i m →
    let sl := s.stepped c i
    let o := sl.operand 0x5B
    let t := s.loneValue c i m
    let seq := (s.core c).mx.seq
    let geom := (s.cell c).geom
    let accepted (v : State) (b : Block) (k : Nat) : Prop := ∃ x ∈ (v.core c).mx.cmds, x.seq = seq.toNat ∧ x.op.toNat = 0x640 + k ∧ x.blk = b
      ∧ x.port = o ∧ x.tables = (s.core c).tables ∧ x.slot = i ∧ x.finished = false ∧ x.parent = none
    (∀ e, e ∈ [(Instr.mxMma m, 0), (.mxZero m, 2), (.mxLoad m, 3), (.mxStore m, 4)] →
      ∀ l b, s.mustWait c i 1 = false → s.blockAt c sl t o = .ok (l, b)
        → (if e.2 = 0 then passOk 0 geom b else transferOk e.2 b) = true
        → (if e.2 = 0 then s.passRanges c sl b else s.transferRanges c sl e.2 b) = none →
        ∃ v, exec e.1 s = .next v ∧ endsWith s v c i rMx (seq.setWidth 64) ∧ accepted v b e.2
          ∧ .mxPassStart c ∈ v.agenda ∧ .mxTransferStart c ∈ v.agenda ∧ v.memory = s.memory ∧ (v.core c).store = (s.core c).store)
    ∧ (∀ l b, s.mustWait c i 1 = false → s.blockAt c sl t o = .ok (l, b) → passOk 1 geom b = true → s.passRanges c sl b = none
        → (gridCores c geom (passOf b)).any (fun g => g.1 != c) = true →
        ∃ v, exec (.mxGmma m) s = .next v ∧ v.isHeld c i (.gmma seq.toNat) .issued ∧ accepted v b 1
          ∧ ∀ g ∈ gridCores c geom (passOf b), g.1 ≠ c → .mxPartAccept c seq.toNat g.1 ∈ v.agenda)

/-- A trigger of the vector engine with a free slot and a block that passes every check is accepted (12 R291, R292): vx.res has the sequence number, the
command is the newest of the engine with its block, and its start is due. vx.tblset has set its decode table at once (12 R303). -/
def Obligations.VectorAcceptance : Prop :=
  ∀ (s : State) (c i : Nat) (m : Lone), LoneReady s c i m →
    let sl := s.stepped c i
    let o := sl.operand 0x5C
    let t := s.loneValue c i m
    let seq := (s.core c).vx.seq
    ∀ e, e ∈ [(Instr.vxAdd m, 0), (.vxSub m, 1), (.vxMul m, 2), (.vxFma m, 3), (.vxMin m, 4), (.vxMax m, 5), (.vxAbs m, 6), (.vxScale m, 7),
        (.vxExp2 m, 8), (.vxLog2 m, 9), (.vxRcp m, 10), (.vxRsqrt m, 11), (.vxCmp m, 12), (.vxSel m, 13), (.vxRowsum m, 14), (.vxRowmax m, 15),
        (.vxColsum m, 16), (.vxBlkmax m, 17), (.vxQuant m, 18), (.vxDequant m, 19), (.vxCvt m, 20), (.vxTblset m, 21), (.vxTblenc m, 22),
        (.vxTbldec m, 23)] →
      ∀ l b, s.mustWait c i 2 = false → s.blockAt c sl t o = .ok (l, b) → vxBlockOk e.2 b = true → s.vxRanges c e.2 b = none
        → (e.2 = 21 → (s.core c).store.lost 8 (vecOf b).x.addr 1024 = false) →
        ∃ v k, exec e.1 s = .next v ∧ endsWith s v c i rVx (seq.setWidth 64) ∧ (v.core c).vx.cmds = (s.core c).vx.cmds ++ [k]
          ∧ k.seq = seq.toNat ∧ k.op.toNat = 0x680 + e.2 ∧ k.blk = b ∧ k.port = o ∧ k.slot = i ∧ k.finished = false
          ∧ .vxCommandStart c ∈ v.agenda ∧ v.memory = s.memory ∧ (v.core c).store = (s.core c).store
          ∧ (e.2 ≠ 21 → (v.core c).tables = (s.core c).tables)
          ∧ (e.2 = 21 → ∀ n, n < 256 → (v.core c).tables.get 0 (256 * (vecOf b).tbl + n)
              = BitVec.ofNat 64 ((s.core c).store.read ((vecOf b).x.addr + 4 * n) 4 / 2 ^ 13))

/-- A trigger of the collective engine with a free slot and a block that passes every check is accepted (13 R338 to R340, R345): col.res has the sequence number,
and the other positions of its ring are told. The line cache has been written back first (08 R191). Where no command of another position waits and every device
can be reached, the command is the newest of the die's engine, as its block says. -/
def Obligations.CollectiveAcceptance : Prop :=
  ∀ (s : State) (c i : Nat) (m : Lone), LoneReady s c i m →
    let sl := s.stepped c i
    let o := sl.operand 0x60
    let t := s.loneValue c i m
    let d := dieOf c
    let u := s.cleanLines c (fun _ => true)
    let seq := (u.die d).col.seq
    ∀ e, e ∈ [(Instr.colRscat m, 0), (.colAgath m, 1), (.colAredc m, 2), (.colBcast m, 3), (.colWeights m, 4)] →
      ∀ l b, s.mustWait c i 4 = false → u.blockAt c sl t o = .ok (l, b) → (if e.2 = 4 then weightsOk b else collBlockOk e.2 sl b) = true
        → (e.2 ≠ 4 → u.collRanges c sl b = none) →
        ∃ v, exec e.1 s = .next v ∧ endsWith s v c i rCol (seq.setWidth 64) ∧ v.memory = u.memory ∧ (v.core c).store = (u.core c).store
          ∧ (e.2 ≠ 4 → ∃ a, .colAsk d a ∈ v.outbox ∧ a.seq = seq.toNat ∧ a.tag = blkField b 4 4 ∧ a.dim = blkBits b 8 2)
          ∧ (e.2 = 4 ∨ ((u.die d).asks = [] ∧ s.device.toNat < 288 ∧ s.router.unreachable = []) →
              ∃ k, (v.die d).col.cmds = (u.die d).col.cmds ++ [k] ∧ k.seq = seq.toNat ∧ k.op.toNat = 0x700 + e.2 ∧ k.blk = b ∧ k.port = o)
          ∧ (e.2 = 4 → (s.part (s.cell c).part).weights = true →
              (v.die d).cpyw.toNat = blkBits b 8 4 ∧ (v.die d).colw.toNat = blkBits b 12 4 ∧ (v.die d).strw.toNat = blkBits b 16 4
                ∧ .colCompletion d seq.toNat ∈ v.agenda)

/-- fab.ld, fab.st and fab.amo to another device's memory through a bound domain segment (13 R318 to R323): the request leaves with the operand, and the word is held
for the reply. -/
def Obligations.RemoteAccessesLeave : Prop :=
  ∀ (s : State) (c i : Nat) (m : Lone), LoneReady s c i m → s.watches = [] → s.mustWait c i 3 = false →
    let sl := s.slot c i
    let mode := sl.operand 0x5E
    let t := s.loneValue c i m
    let part := (s.cell c).part
    let sends (ins : Instr) (ea : Word) (op : AccessOp) : Prop :=
      let g := sl.seg (ea.toNat / 2 ^ 61)
      let off := ea.toNat % 2 ^ 61
      let dev := g.base / 2 ^ 42 % 512
      let va := g.base % 2 ^ 42 + off
      g.space = 5 → g.rd = true → g.wr = true → g.at_ = true → g.cn = false → off + 8 ≤ g.limit → dev < 288 → va + 8 ≤ 2 ^ 42 → va % 8 = 0
        → dev ≠ s.device.toNat → s.router.unreachable.contains dev = false → (s.part part).bind.has dev = true →
        ∃ u r, exec ins s = .next u ∧ u.isHeld c i (.remote dev) .issued ∧ u.outbox = s.outbox ++ [.remoteRequest r]
          ∧ r.acc.addr = dev * 2 ^ 42 + va ∧ r.acc.n = 8 ∧ r.acc.op = op ∧ r.srcSlot = i ∧ r.srcCore = c ∧ r.srcPart = part
          ∧ r.member = (s.part part).bind.get 0 dev ∧ u.memory = s.memory
    (mode = 0x300 → sends (.fabLd m) (sl.operand 0x5D + t) .load ∧ sends (.fabSt m) (sl.operand 0x5D + t) .store
        ∧ sends (.fabAmo m) (sl.operand 0x5D) (.amo 0))

/-- fab.send and fab.spawn with a free slot, a block that passes every check and a readable payload are accepted (13 R326, R327): fab.res has the sequence number, and the
command holds the payload as it was read. -/
def Obligations.MessagesAccepted : Prop :=
  ∀ (s : State) (c i : Nat) (m : Lone), LoneReady s c i m → heldApart s → (∀ x ∈ (s.core c).fab.cmds, x.seq ≠ (s.core c).fab.seq.toNat) →
    let sl := s.stepped c i
    let o := sl.operand 0x5E
    let t := s.loneValue c i m
    let seq := (s.core c).fab.seq
    ∀ e, e ∈ [(Instr.fabSend m, 3), (.fabSpawn m, 4)] →
      ∀ l b, s.mustWait c i 3 = false → s.blockAt c sl t o = .ok (l, b) → msgBlockOk e.2 (s.cell c).paninfo b = true →
        let pa := blkWord b 8
        let g := sl.seg (segNo pa)
        let a := g.base + offOf pa
        g.space = 1 → g.rd = true → offOf pa + 64 ≤ g.limit → a + 64 ≤ 0x180000 → a % 64 = 0 → (s.core c).store.lost 8 a 64 = false
          → (e.2 = 4 → blkBits ((s.core c).store.block a) 64 2 ≠ 0) →
          ∃ v k, exec e.1 s = .next v ∧ endsWith s v c i rFab (seq.setWidth 64) ∧ k ∈ (v.core c).fab.cmds ∧ k.seq = seq.toNat ∧ k.blk = b
            ∧ k.smap = (s.core c).store.block a ∧ k.op.toNat = 0x6C0 + e.2
            ∧ ((s.core c).lines = [] → (v.core c).store = (s.core c).store)

/-- The pan operations of a panorama's cell whose members are all on this device (13 R335, R336): attaching to an ACTIVE member gives 0 and counts
the gang as its holder, detaching an unattached member gives 1, pan.exit makes an ACTIVE member EXITING and gives its number of holders, and
pan.state gives the member's record. Outside a panorama each raises SEG_RIGHTS. -/
def Obligations.PanoramaOperations : Prop :=
  ∀ (s : State) (c i : Nat) (m : Lone) (q : Panorama) (mb : Member), LoneReady s c i m →
    let info := (s.cell c).paninfo
    let p := panId info
    let own := panMember info
    let t := s.loneValue c i m
    let n := t.toNat % 512
    (panValid info = true → t.getLsbD 63 = false → n ≤ panMembers info → s.pans = [(p, q)] → q.members = [(n, mb)]
        → mb.device = s.device.toNat → s.router.unreachable.contains mb.device = false →
        (n ≠ own → mb.state = 1 → q.attached = [] → ∃ u, exec (.panAttach m) s = .next u ∧ endsWith s u c i rFab 0
            ∧ (∃ x, u.member p n = some x ∧ x.holders = mb.holders ++ [own]) ∧ ∃ x, u.panAt p = some x ∧ x.attached = [(own, n)])
          ∧ (n ≠ own → q.attached = [] → ∃ u, exec (.panDetach m) s = .next u ∧ endsWith s u c i rFab 1)
          ∧ (n = own → mb.state = 1 → ∃ u, exec (.panExit m) s = .next u ∧ endsWith s u c i rFab (BitVec.ofNat 64 mb.holderCount)
              ∧ (∃ x, u.member p own = some x ∧ x.state = 2) ∧ .memberDeparture p own ∈ u.agenda)
          ∧ ∃ u, exec (.panState m) s = .next u ∧ endsWith s u c i rFab (BitVec.ofNat 64 (mb.state
              + (if mb.holders.contains own || own == n then 4 else 0) + mb.holderCount * 2 ^ 8)))
      ∧ (panValid info = false → exec (.panAttach m) s = .next (s.loneTrap c i m 0x6C5 0x05 none)
          ∧ exec (.panDetach m) s = .next (s.loneTrap c i m 0x6C6 0x05 none) ∧ exec (.panExit m) s = .next (s.loneTrap c i m 0x6C7 0x05 none)
          ∧ exec (.panState m) s = .next (s.loneTrap c i m 0x6C8 0x05 none))
/-! ## Events -/

/-- One cycle of a core (02 R41, R49, R52, 06 R122 to R124). Where a word is due in the cycle it stands in the pipeline for the next step: a faulting word in its stage 7, and
an access to the core's own store in its stage 5. Otherwise the cycle counter advances. A strand that may issue and ranks before every other is ISSUED, and the others
that may issue age by 1; a strand that may issue but whose word reads a pending port is in WAIT_PORT instead. A word issued a cycle ago reads the free command slots; the age of
one issued two cycles ago, which meets no rival at a bank or has been squashed three times in a row, is 0; a word issued seven cycles ago stands in the pipeline for
the next step, ISSUED and not held. -/
def Parts.Selection : Prop :=
  ∀ (s : State) (c : Nat), s.event = some (.shutterSelect c) → s.current = none →
    let k := s.core c
    let now := k.cycles + 1
    let alone (i : Nat) : Prop := ∀ e ∈ k.slots, e.1 ≠ i → e.2.inPipe = false
    ((∀ e ∈ k.slots, e.2.inPipe = false ∧ e.2.eligible now = false) →
        ∃ t, exec .shutterSelect s = .next t ∧ t.current = none ∧ (t.core c).cycles = now ∧ (t.core c).slots = k.slots ∧ t.memory = s.memory)
      ∧ (∀ i, s.taken.wordDue c = some i → exec .shutterSelect s = .next { s.taken with current := some (c, i) })
      ∧ (∀ i sl, (i, sl) ∈ k.slots → slotsOnce s c → (∀ e ∈ k.slots, e.2.inPipe = false) → sl.eligible now = true
          → (∀ e ∈ k.slots, e.2.eligible now = true → s.waitsForPort c e.1 = false)
          → (∀ e ∈ k.slots, e.1 ≠ i → e.2.eligible now = true → ranksBefore (i, sl) e = true) →
          ∃ t, exec .shutterSelect s = .next t ∧ t.current = none ∧ (t.core c).cycles = now ∧ t.memory = s.memory
            ∧ t.slot c i = { sl with st := .issued, issuedAt := now, yield := false, seen := [] }
            ∧ ∀ j, j ≠ i → t.slot c j = if (s.slot c j).eligible now then { s.slot c j with age := min ((s.slot c j).age + 1) 65535 } else s.slot c j)
      ∧ ∀ i sl, (i, sl) ∈ k.slots → slotsOnce s c → alone i →
          (sl.inPipe = false → sl.eligible now = true → s.waitsForPort c i = true →
            ∃ t, exec .shutterSelect s = .next t ∧ t.slot c i = { sl with st := .waitPort })
          ∧ (sl.inPipe = true → sl.issuedAt + 1 = now →
            ∃ t, exec .shutterSelect s = .next t ∧ t.slot c i = { sl with seen := (List.range 5).map (fun u => (u, s.freeSlots c u)) } ∧ t.current = none)
          ∧ (sl.inPipe = true → sl.issuedAt + 2 = now → (s.usesBank c i = false ∨ 3 ≤ sl.squashes) →
            ∃ t, exec .shutterSelect s = .next t ∧ t.slot c i = { sl with age := 0, squashes := 0 } ∧ t.current = none)
          ∧ (sl.inPipe = true → sl.issuedAt + 6 = k.cycles → s.taken.wouldFault c i = true → s.taken.wordDue c = some i)
          ∧ (sl.inPipe = true → sl.issuedAt + 4 = k.cycles → s.taken.ownAccess c i = true → sl.step = false → s.taken.wouldFault c i = false →
              s.taken.wordDue c = some i)
          ∧ (sl.inPipe = true → sl.issuedAt + 7 = now → s.taken.wordDue c = none →
            ∃ t, exec .shutterSelect s = .next t ∧ t.slot c i = sl ∧ t.current = some (c, i) ∧ (t.core c).cycles = now ∧ t.memory = s.memory)
          ∧ ∀ t, exec .shutterSelect s = .next t → t.current = some (c, i) → (t.slot c i).st = .issued ∧ (t.slot c i).held = none

/-- The fetch of a READY strand's next word (05 R102 to R108). From its core's store it is the 8 bytes at the pc, and the 8 that follow them where a literal pair begins there,
and no register changes; what comes from beyond the core's instruction buffer issues no sooner than 12 cycles after the previous issue. A fetch whose banks a word in stage 3
accesses loses, and is tried again. A segment that lies in no code
space, is not executable, or ends before the word makes FETCH with its cause. A reply of the cluster instruction cache lets every strand that asked for the line fetch
again, or waits for the end of a repair that holds the line. -/
def Parts.Fetches : Prop :=
  ∀ (s : State) (c i : Nat),
    let sl := s.slot c i
    let g := sl.seg 7
    let pc := sl.pc.toNat
    let k := s.core c
    let u := s.taken
    (s.event = some (.fetchArrival c i) → sl.st = .ready → sl.fetch = none →
      (g.space = 1 → g.ex = true → pc + 16 ≤ g.limit → g.base + pc + 16 ≤ 0x180000 → k.store.bad = [] → sl.fetchLost = 0 → k.code = [] → sl.units = [] →
          u.fetchLoses c (unitsOf (g.base + pc) 8) = true →
          exec .fetchArrival s = .next (u.setSlot c i { sl with fetchLost := 1, fetchAt := k.cycles }))
        ∧ (g.space = 1 → g.ex = true → pc + 16 ≤ g.limit → g.base + pc + 16 ≤ 0x180000 → k.store.bad = [] → sl.fetchLost = 0 → (∀ e ∈ k.slots, e.2.inPipe = false) →
          ∃ t f, exec .fetchArrival s = .next t ∧ t.slot c i = { sl with fetch := some f, units := (t.slot c i).units, readyAt := (t.slot c i).readyAt }
            ∧ f.pc = sl.pc ∧ (t.core c).store = k.store ∧ t.memory = s.memory
            ∧ (k.code = [] → sl.units = [] → f.first = BitVec.ofNat 64 (k.store.read (g.base + pc) 8)
                ∧ (beginsPair pc f.first = true → f.second = BitVec.ofNat 64 (k.store.read (g.base + pc + 8) 8))
                ∧ (t.slot c i).readyAt = max sl.readyAt (sl.issuedAt + 12)))
        ∧ (s.breaks = [] → g.space ≠ 1 → g.space ≠ 4 → exec .fetchArrival s = .next (u.trap c i ⟨0x10, 3, some (codeEa sl.pc), 0⟩ false sl.pc 0))
        ∧ (s.breaks = [] → (g.space = 1 ∨ g.space = 4) → g.ex = false →
            exec .fetchArrival s = .next (u.trap c i ⟨0x10, 2, some (codeEa sl.pc), 0⟩ false sl.pc 0))
        ∧ (s.breaks = [] → (g.space = 1 ∨ g.space = 4) → g.ex = true → g.limit < pc + 8 →
            exec .fetchArrival s = .next (u.trap c i ⟨0x10, 1, some (codeEa sl.pc), 0⟩ false sl.pc 0)))
      ∧ ∀ cl part a, s.event = some (.clusterIcacheReply cl part a) →
          (∀ n, s.lineHeld part a = some n →
            ∃ t, exec .clusterIcacheReply s = .next t ∧ .line cl part a ∈ (t.stack n).delayed ∧ t.clusters = s.clusters ∧ t.cores = s.cores)
          ∧ (s.lineHeld part a = none →
            ∃ t, exec .clusterIcacheReply s = .next t ∧ t.memory = s.memory ∧ t.cores = s.cores
              ∧ (∀ m ∈ (s.cluster cl).misses, m.part = part → m.addr = a → ∀ x ∈ m.asks, .fetchArrival x.1 x.2 ∈ t.agenda)
              ∧ (∀ m ∈ (t.cluster cl).misses, ¬(m.part = part ∧ m.addr = a))
              ∧ ∀ e, tlbFind (s.cluster cl).tlb part a = some e → pteP e.entry = true → pteLost e.entry = false → pteDisc e.entry = false →
                  s.memory.lost 32 (pteFrame e.entry + a % e.size) 64 = false → a % 64 = 0 →
                  codeFind (t.cluster cl).code 4 part a = some ⟨4, part, a, s.memory.block ((pteFrame e.entry + a % e.size) / 64 * 64)⟩)

/-- Results that come later (02 R40, R41, 05 R90, 06 R132, 09 R239). When div.res or flt.res comes its port is valid with its value, its flags are merged, and a strand in
WAIT-PORT is READY in the next cycle. A counted sleep whose count has run out gives 0, and its strand is READY in the next cycle. -/
def Parts.LateResults : Prop :=
  ∀ (s : State) (c i : Nat),
    let sl := s.slot c i
    let comes (ev : Instr) (r : Nat) : Prop := (sl.port r).pending = true →
      ∃ t, exec ev s = .next t ∧ t = { s with event := none }.setSlot c i (t.slot c i)
        ∧ (t.slot c i).port r = ⟨(sl.port r).val, false, 0, 0⟩ ∧ (t.slot c i).fflags = sl.fflags ||| (sl.port r).flags
        ∧ (t.slot c i).x = sl.x ∧ (t.slot c i).pc = sl.pc ∧ (t.slot c i).held = sl.held
        ∧ (sl.st = .waitPort → (t.slot c i).st = .ready ∧ (t.slot c i).readyAt = (s.core c).cycles + 1 ∧ (t.slot c i).age = 0)
        ∧ (sl.st ≠ .waitPort → (t.slot c i).st = sl.st ∧ (t.slot c i).readyAt = sl.readyAt)
    (s.event = some (.divResult c i) → comes .divResult rDiv) ∧ (s.event = some (.fltLongResult c i) → comes .fltLongResult rFlt)
      ∧ (s.event = some (.sleepTimeout c i) → ∀ n, sl.park = some (.sleep (some n)) → n ≤ (s.core c).cycles →
          ∃ t, exec .sleepTimeout s = .next t ∧ (t.slot c i).st = .ready ∧ (t.slot c i).park = none ∧ ((t.slot c i).port rStrand).val = 0
            ∧ (t.slot c i).readyAt = (s.core c).cycles + 1 ∧ (t.slot c i).age = 0 ∧ sameRegs sl (t.slot c i) ∧ t.memory = s.memory)

/-- A turn of a core, its fetches, and results that come late (02 R40, R41, 04 R90, 05 R102 to R108, 06 R122 to R124, R132, 09 R239). -/
def Obligations.CoreTurns : Prop := Parts.Selection ∧ Parts.Fetches ∧ Parts.LateResults

/-- Waiting accesses (02 R57, 07 R155 to R157). A wait-full load of another core's word that was NACKed is sent again with its ticket: where the word is full now, it is
performed, the strand is READY at the next word with the value, and the ticket is used; where it is empty, the access has an entry of the controller's list and its strand
is in WAIT_FE; where its strand has been asked to stop meanwhile, it is STOPPED at the word's start instead. The lowest ticket of a controller loses its hold. A stop takes a waiting access back from its controller and its strand is STOPPED at the word's start. -/
def Parts.WaitingAccesses : Prop :=
  ∀ (s : State) (c i : Nat) (h : HeldWord),
    (s.event = some (.feRetryResend c i) → (s.slot c i).held = some h →
        (∀ n v outs next, h.reply = some (.nack n) → h.moves = [⟨0x2C6, v, false⟩] → (s.slot c i).stopReq = false → (s.slot c i).step = false → (s.slot c i).park = none →
          s.watches = [] → (s.slot c i).operand 0x4C = 1 →
          let sl := s.slot c i
          let ea := sl.operand 0x4B + v
          let g := sl.seg (ea.toNat / 2 ^ 61)
          let a := g.base + ea.toNat % 2 ^ 61
          let tgt := clusterOf c * 96 + a / 2 ^ 21
          let b := a % 2 ^ 21
          let mem := (s.core tgt).store
          g.space = 2 → g.rd = true → ea.toNat % 2 ^ 61 + 8 ≤ g.limit → a < 2 ^ 28 → a / 2 ^ 21 < 96 → b + 8 ≤ 0x180000 → a % 8 = 0 → tgt ≠ c →
          (s.core tgt).cell.map (·.launch) = some (s.cell c).launch → (s.core tgt).logging = false → mem.lost 8 b 8 = false →
          (s.core tgt).retry = ⟨[], next, outs⟩ → n ∈ outs → outs.length ≤ 64 →
          ∃ t, exec .feRetryResend s = .next t ∧ (t.core tgt).store = mem ∧ t.memory = s.memory ∧ (t.core tgt).retry.outstanding = outs.filter (fun x => x != n)
            ∧ sameRegs sl (t.slot c i)
            ∧ (mem.isFull (b / 8) = true → (t.slot c i).st = .ready ∧ (t.slot c i).pc = h.next ∧ (t.slot c i).held = none
                ∧ ((t.slot c i).port rLsu).val = BitVec.ofNat 64 (mem.read b 8) ∧ (t.core tgt).retry.entries = [])
            ∧ (mem.isFull (b / 8) = false → (t.slot c i).st = .waitFe ∧ (t.slot c i).pc = sl.pc ∧ (∃ x, (t.slot c i).held = some x ∧ x.why = .feAt (.core tgt))
                ∧ ∃ x, (t.core tgt).retry.entries = [x] ∧ x.who = .strand c i ∧ x.acc.addr = b ∧ x.acc.n = 8 ∧ x.acc.fe = 1 ∧ x.acc.op = .load))
        ∧ ((∃ n, h.reply = some (.nack n)) → (s.slot c i).stopReq = true → (s.slot c i).park = none →
          ∃ t, exec .feRetryResend s = .next t ∧ (t.slot c i).st = .stopped ∧ (t.slot c i).pc = (s.slot c i).pc ∧ (t.slot c i).held = none ∧ t.memory = s.memory))
      ∧ (∀ d n l, s.event = some (.ticketHoldExpiry (.core d)) → (s.core d).retry.outstanding = n :: l →
          ∃ t, exec .ticketHoldExpiry s = .next t ∧ (t.core d).retry.outstanding = l ∧ (t.core d).retry.entries = (s.core d).retry.entries
            ∧ (t.core d).store = (s.core d).store ∧ (l ≠ [] → (s.core d).retry.entries.length < 64 → .ticketHoldExpiry (.core d) ∈ t.agenda))
      ∧ (∀ d n l, s.event = some (.ticketHoldExpiry (.stack d)) → (s.stack d).retry.outstanding = n :: l →
          ∃ t, exec .ticketHoldExpiry s = .next t ∧ (t.stack d).retry.outstanding = l ∧ (t.stack d).retry.entries = (s.stack d).retry.entries
            ∧ t.memory = s.memory)
      ∧ ∀ key e, s.event = some (.feWithdraw c i) → (s.slot c i).held = some h → h.why = .feLocal key → (s.slot c i).stopReq = true →
          (s.slot c i).park = none → (s.core c).retry.entries = [e] → e.who = .strand c i →
          ∃ t, exec .feWithdraw s = .next t ∧ (t.slot c i).st = .stopped ∧ (t.slot c i).pc = (s.slot c i).pc ∧ (t.slot c i).held = none
            ∧ (t.slot c i).stopReq = false ∧ (t.core c).retry.entries = [] ∧ (t.core c).store = (s.core c).store ∧ t.memory = s.memory

/-- Pages and logs (07 R171 to R173). The resolution of a page makes a leaf that is absent and neither discarded nor lost present, and every strand that waited for a page there
is READY in the next cycle at the same word. A merge empties a core's log, sets the D bit of the pages it names and clears its filter; that it takes the whole log at once and empties the
filter is the model's choice (notes/assumptions/14.md). -/
def Parts.PagesAndLogs : Prop :=
  ∀ (s : State),
    (∀ part va e size a, s.event = some (.pageWake part va) → s.walk part va = .leaf e size a → pteP e = false → pteDisc e = false →
        pteLost e = false → s.asleep = [] → s.backs = [] → (∀ d j, (s.slot d j).held = none) →
        ∃ t, exec .pageWake s = .next t ∧ t.memory = s.memory.write 32 a 8 (e ||| 0x40).toNat)
      ∧ (∀ part va c i h e size a, s.event = some (.pageWake part va) → s.walk part va = .leaf e size a → pteP e = true → s.asleep = [] → s.backs = [] →
          (s.slot c i).held = some h → h.why = .page va → (s.cell c).part = part → s.cores = [(c, s.core c)] →
          (s.core c).slots = [(i, s.slot c i)] →
          ∃ t, exec .pageWake s = .next t ∧ (t.slot c i).st = .ready ∧ (t.slot c i).held = none ∧ (t.slot c i).fetch = none ∧ (t.slot c i).pc = (s.slot c i).pc
            ∧ (t.slot c i).readyAt = (s.core c).cycles + 1 ∧ sameRegs (s.slot c i) (t.slot c i) ∧ t.memory = s.memory)
      ∧ ∀ c, s.event = some (.logMerge c) → (∀ d j, (s.slot d j).held = none) →
          ∃ t, exec .logMerge s = .next t ∧ (t.core c).logMerged = (s.core c).logCount ∧ (t.core c).logFilter = [] ∧ (t.core c).store = (s.core c).store
            ∧ ((s.core c).logCount = (s.core c).logMerged → t.memory = s.memory)
            ∧ ∀ e size a, (s.core c).logCount = (s.core c).logMerged + 1 →
                let w := (s.core c).store.read (0x17F000 + 8 * ((s.core c).logMerged % 512)) 8
                s.walk (bitsOf w 28 4) (bitsOf w 0 26 * 2 ^ 16) = .leaf e size a → t.memory = s.memory.write 32 a 8 (e ||| 0x80).toNat

/-- Accesses that wait at a controller, and pages that are not resident (07 R156, R157, R171 to R173; the merge of a whole log is notes/assumptions/14.md). -/
def Obligations.WaitsAndPages : Prop := Parts.WaitingAccesses ∧ Parts.PagesAndLogs

/-- The grant of a slot (02 R55): the word that waits longest for a slot of the unit issues its trigger again. A vx.add word whose block passes every check is accepted,
and its strand leaves the line. -/
def Parts.SlotGrant : Prop :=
  ∀ (s : State) (c i : Nat) (h : HeldWord) (t : Word) (l : Nat) (b : Block),
    s.event = some (.engineSlotGrant c 2) → (s.core c).slotWait = [(i, 2)] → (s.slot c i).held = some h → h.why = .engine 2 →
      h.moves = [⟨0x680, t, false⟩] → (s.slot c i).step = false → (s.slot c i).stopReq = false → (s.slot c i).park = none →
      s.freeSlots c 2 ≠ 0 →
      let sl := { s.slot c i with pc := h.next }
      s.blockAt c sl t (sl.operand 0x5C) = .ok (l, b) → vxBlockOk 0 b = true → s.vxRanges c 0 b = none →
      ∃ v k, exec .engineSlotGrant s = .next v ∧ (v.core c).vx.cmds = (s.core c).vx.cmds ++ [k] ∧ k.seq = (s.core c).vx.seq.toNat ∧ k.blk = b
        ∧ (v.slot c i).st = .ready ∧ (v.slot c i).pc = h.next ∧ (v.slot c i).held = none
        ∧ ((v.slot c i).port rVx).val = (s.core c).vx.seq.setWidth 64 ∧ (v.core c).slotWait = []

/-- The copy engine (10 R241, R252, R253, R259, R262). The next command becomes active while fewer than eight are. A piece of a fill writes the pattern to its element, and
a piece of a copy the element read, and no other byte; with its last piece the command is finished and its completion is due. A piece may be put off to a later
turn, at which it is performed. The completion writes STATUS1 and STATUS0 and frees the slot; a completion post reaches the semaphore that the operand port named. -/
def Parts.CopyEngine : Prop :=
  ∀ (s : State) (c : Nat) (m : Cmd),
    (s.event = some (.cpyActivate c) → ((s.core c).cpy.cmds.filter (fun m => m.active && !m.finished)).length < 8 →
        nextStart (s.core c).cpy.cmds true = some m →
        ∃ t, exec .cpyActivate s = .next t ∧ (t.core c).cpy.cmds = (s.core c).cpy.cmds.map (fun x => if x.seq == m.seq then { x with active := true } else x)
          ∧ .cpyPiece c ∈ t.agenda ∧ (t.core c).store = (s.core c).store ∧ t.memory = s.memory)
      ∧ (s.event = some (.cpyPiece c) → (s.core c).cpy.cmds = [m] → m.core = c → m.active = true → m.finished = false → m.last = 1 →
          m.transit = none → m.sleeping = [] → m.wrote = [] → cpyFew m.blk = 0 → cpyArrive m.blk = false → mapSize m.dmap = 8 → (∀ j, (s.slot c j).held = none) →
          let g := m.seg (segNo (mapBase m.dmap))
          let a := g.base + (mapOffset m.dmap 0).toNat
          let done (v : Nat) : Prop := ∃ t k, exec .cpyPiece s = .next t ∧ (t.core c).store.read a 8 = v ∧ t.memory = s.memory
            ∧ (∀ x, (x < a ∨ a + 8 ≤ x) → (t.core c).store.byte x = (s.core c).store.byte x)
            ∧ (t.core c).cpy.cmds = [k] ∧ k.finished = true ∧ k.fault = m.fault ∧ k.dropped = m.dropped ∧ .cpyCompletion c m.seq ∈ t.agenda
          let putOff : Prop := ∃ t, exec .cpyPiece s = .next t ∧ (t.core c).cpy.cmds = [{ m with first := 1, pend := [(0, some 0)], woken := true, wrote := [] }]
            ∧ (t.core c).store = (s.core c).store ∧ t.memory = s.memory ∧ .cpyPiece c ∈ t.agenda
          let takes (v : Nat) : Prop := (m.first = 0 → m.pend = [] → done v ∨ putOff) ∧ (m.first = 1 → m.pend = [(0, some 0)] → m.woken = true → done v)
          g.space = 1 → a + 8 ≤ 0x180000 → a % 8 = 0 →
            (opOf m.op = 1 → takes (blkBits m.blk 192 64))
              ∧ (opOf m.op = 0 →
                  let h := m.seg (segNo (mapBase m.smap))
                  let r := h.base + (mapOffset m.smap 0).toNat
                  h.space = 1 → r + 8 ≤ 0x180000 → (s.core c).store.bad = [] → takes ((s.core c).store.read r 8)))
      ∧ (s.event = some (.cpyCompletion c m.seq) → (s.core c).cpy.cmds.find? (fun x => x.seq == m.seq && x.finished) = some m →
          (∀ cell, (s.core c).cell = some cell → cell.ended = false) → (∀ d j, (s.slot d j).held = none) →
          ∃ t, exec .cpyCompletion s = .next t ∧ (t.core c).cpy.cmds = (s.core c).cpy.cmds.filter (fun x => x.seq != m.seq)
            ∧ (t.core c).store.read (m.loc + 48) 8 = (min m.dropped (2 ^ 40 - 1) + m.oob * 2 ^ 40) % 2 ^ 64
            ∧ (t.core c).store.read (m.loc + 56) 8 = (m.flags.toNat + 2 ^ 8 + m.fault * 2 ^ 16 + m.seq * 2 ^ 32) % 2 ^ 64
            ∧ (∀ x, (x < m.loc + 48 ∨ m.loc + 64 ≤ x) → (t.core c).store.byte x = (s.core c).store.byte x) ∧ t.memory = s.memory
            ∧ (portNoPost m.port = true → (t.core c).sems = (s.core c).sems)
            ∧ ∀ cell, (s.core c).cell = some cell → portNoPost m.port = false → portSem m.port < cell.sems →
                (t.core c).sem (portSem m.port) = (((s.core c).sem (portSem m.port)).post (portN m.port)).1)

/-- Grants of engine slots, and the copy engine (10 R241 to R259). -/
def Obligations.CopyEngineEvents : Prop := Parts.SlotGrant ∧ Parts.CopyEngine

/-- The matrix engine (11 R265, R276, R278, R280, R284, R285). A grid core with a free slot takes its part of a group command. A pass of one element and one K position adds BlockValue
to its accumulator under round to nearest even, and changes no other. mx.zero clears the tiles that its block names and no others,
in one step (notes/assumptions/24.md). A completion writes the status word and
frees the slot. -/
def Parts.MatrixEngine : Prop :=
  ∀ (s : State) (c : Nat) (m : Cmd),
    (∀ target k, s.event = some (.mxPartAccept c m.seq target) → s.mxCmd c m.seq = some m → m.waiting.contains target = true → target ≠ c →
        (s.core target).cell = some k → k.launch = (s.cell c).launch → k.gang = (s.cell c).gang → k.ended = false → s.freeSlots target 1 ≠ 0 →
        ∃ t p, exec .mxPartAccept s = .next t ∧ (t.core target).mx.cmds = (s.core target).mx.cmds ++ [p] ∧ p.parent = some (m.core, m.seq) ∧ p.core = target
          ∧ p.blk = m.blk ∧ p.tables = (s.core target).tables ∧ .mxPassStart target ∈ t.agenda)
      ∧ (s.event = some (.mxPassStart c) → (s.core c).mx.cmds = [m] → m.core = c → m.parent = none → m.finished = false → opOf m.op = 0 →
          m.row0 = 0 → m.col0 = 0 → (∀ j, (s.slot c j).held = none) →
          let p := passOf m.blk
          let g := m.seg (segNo p.aaddr)
          let a := g.base + offOf p.aaddr
          let i := 4096 * p.acc
          p.op = 0 → p.m = 1 → p.n = 1 → p.k = 1 → p.nb = 1 → p.ascf = 0 → p.bscf = 0 → p.occen = false → p.afmt = 2 → p.bfmt = 2 →
            g.space = 1 → a + 4 ≤ 0x180000 → (s.core c).store.bad = [] → (s.core c).plane.bad = [] → (s.core c).accBad = [] →
            let va := codeValue 2 (elemCode 2 ((s.core c).store.read a 4))
            let vb := codeValue 2 (elemCode 2 ((s.core c).plane.read p.boff 4))
            let v := blockValue [(va.1, vb.1)] none none
            let r := fAdd Fmt.f32 0 false 0 (Fmt.f32.value ((s.core c).acc.get 0 i).toNat) (Fmt.f32.value v.1)
            ∃ t k, exec .mxPassStart s = .next t ∧ (t.core c).acc.get 0 i = BitVec.ofNat 32 r.code
              ∧ (∀ j, j ≠ i → (t.core c).acc.get 0 j = (s.core c).acc.get 0 j) ∧ (t.core c).store = (s.core c).store ∧ t.memory = s.memory
              ∧ (t.core c).mx.cmds = [k] ∧ k.finished = true ∧ k.flags = (m.flags ||| ((va.2 ||| vb.2) ||| (v.2 ||| r.flags)))
              ∧ .mxCompletion c m.seq ∈ t.agenda)
      ∧ (s.event = some (.mxTransferStart c) → (s.core c).mx.cmds = [m] → m.core = c → m.parent = none → m.finished = false → opOf m.op = 2 → m.wrote = [] →
          m.first < m.last → (∀ j, (s.slot c j).held = none) →
          ∃ t k, exec .mxTransferStart s = .next t ∧ (t.core c).mx.cmds = [k] ∧ k.finished = true ∧ .mxCompletion c m.seq ∈ t.agenda
            ∧ (∀ i, (t.core c).acc.get 0 i = if bitsOf (transferOf m.blk).tiles (i / 4096) 1 = 1 then 0 else (s.core c).acc.get 0 i)
            ∧ (t.core c).store = (s.core c).store ∧ t.memory = s.memory)
      ∧ (s.event = some (.mxCompletion c m.seq) → (s.core c).mx.cmds = [m] → m.parent = none → m.finished = true →
          (∀ cell, (s.core c).cell = some cell → cell.ended = false) → (∀ d j, (s.slot d j).held = none) → portNoPost m.port = true →
          ∃ t, exec .mxCompletion s = .next t ∧ (t.core c).mx.cmds = []
            ∧ (t.core c).store.read (m.loc + 60) 4 = (m.flags.toNat + 2 ^ 5 + m.fault * 2 ^ 8 + min m.dropped 65535 * 2 ^ 16) % 2 ^ 32
            ∧ (∀ x, (x < m.loc + 60 ∨ m.loc + 64 ≤ x) → (t.core c).store.byte x = (s.core c).store.byte x) ∧ t.memory = s.memory)

/-- The vector engine (12 R290, R303, R305, R306). The oldest command starts. A chunk of one element in a 32-bit format writes the element of D computed from
the sources as they stand, and no other byte. A completion writes the status word and frees the slot. -/
def Parts.VectorEngine : Prop :=
  ∀ (s : State) (c : Nat) (m : Cmd) (r : List Cmd), (s.core c).vx.cmds = m :: r → (∀ d j, (s.slot d j).held = none) →
    let v := vecOf m.blk
    (s.event = some (.vxCommandStart c) → m.active = false →
        ∃ t k, exec .vxCommandStart s = .next t ∧ (t.core c).vx.cmds = k :: r ∧ k.active = true ∧ k.blk = m.blk ∧ k.seq = m.seq ∧ k.first = m.first
          ∧ (v.op ≠ 21 → k.finished = false ∧ .vxChunk c ∈ t.agenda) ∧ (v.op = 21 → k.finished = true ∧ .vxCompletion c m.seq ∈ t.agenda)
          ∧ (t.core c).store = (s.core c).store)
      ∧ (s.event = some (.vxChunk c) → m.active = true → m.finished = false → m.core = c → m.first = 0 → m.last = 1 → v.shape = (1, 1) → v.few = 0 →
          v.d.fmt = 0 → v.d.addr % 4 = 0 →
          let o := m.vxElem (s.core c) v 0 0
          o.bad = [] →
          ∃ t k, exec .vxChunk s = .next t ∧ (t.core c).store.read v.d.addr 4 = o.code % 2 ^ 32 ∧ (t.core c).vx.cmds = k :: r ∧ k.finished = true
            ∧ k.flags = (m.flags ||| o.flags) ∧ .vxCompletion c m.seq ∈ t.agenda ∧ t.memory = s.memory
            ∧ ∀ x, (x < v.d.addr ∨ v.d.addr + 4 ≤ x) → (t.core c).store.byte x = (s.core c).store.byte x)
      ∧ (s.event = some (.vxCompletion c m.seq) → m.finished = true → (∀ cell, (s.core c).cell = some cell → cell.ended = false) →
          portNoPost m.port = true →
          ∃ t, exec .vxCompletion s = .next t ∧ (t.core c).vx.cmds = r ∧ (r ≠ [] → .vxCommandStart c ∈ t.agenda)
            ∧ (t.core c).store.read (m.loc + 60) 4 = (m.flags.toNat + 2 ^ 5 + m.fault * 2 ^ 8 + min m.dropped 65535 * 2 ^ 16) % 2 ^ 32
            ∧ (∀ x, (x < m.loc + 60 ∨ m.loc + 64 ≤ x) → (t.core c).store.byte x = (s.core c).store.byte x) ∧ t.memory = s.memory)

/-- The matrix engine and the vector engine (11, 12). -/
def Obligations.ArrayEngineEvents : Prop := Parts.MatrixEngine ∧ Parts.VectorEngine

/-- The reply to an access of another device (02 R54, 13 R322, R323): a fab.ld word commits with the value read, a fault traps it with nothing of it done, a page reply and a NACK
leave it waiting. -/
def Parts.RemoteReplies : Prop :=
  ∀ (s : State) (c i dev : Nat) (v : Word) (next : Word) (h : HeldWord) (rep : Reply), i < 256 → s.event = some (.remoteAccessReply c i rep) →
    HeldLone s c i 0x6C0 v (.remote dev) next → (s.slot c i).held = some h →
    let sl := s.slot c i
    (∀ x, rep = .value x 0 → sl.operand 0x5E = 0x300 → ∃ t, exec .remoteAccessReply s = .next t ∧ repliesWith s t c i rFab (x.setWidth 64) next ∧ t.memory = s.memory)
      ∧ (∀ code, rep = .fault code → code ≠ 0x0F →
          exec .remoteAccessReply s = .next (s.taken.trap c i ⟨code, 0, some (sl.operand 0x5D + v), 0x6C0⟩ false h.here h.word))
      ∧ (rep = .page → ∃ t, exec .remoteAccessReply s = .next t ∧ (t.slot c i).st = .waitPage ∧ (t.slot c i).pc = sl.pc
          ∧ ∃ g, (t.slot c i).held = some g ∧ g.why = .peerPage dev ∧ g.moves = h.moves)
      ∧ (∀ n, rep = .nack n → ∃ t, exec .remoteAccessReply s = .next t ∧ (t.slot c i).st = .waitFe ∧ .feRetryResend c i ∈ t.agenda
          ∧ ∃ g, (t.slot c i).held = some g ∧ g.reply = some (.nack n) ∧ g.moves = h.moves)

/-- The replies of the pool controller and of the detector (06 R143, R146): pool.put stores its item, or finds the pool full or closed, pool.take gives the oldest item, pool.close
closes or reopens the pool, and q.arm opens a generation of the launch's instance, or of the panorama's. A pool that is closed answers 2, be it full or not
(notes/assumptions/94.md). -/
def Parts.AgentReplies : Prop :=
  ∀ (s : State) (c i : Nat) (v next : Word), heldApart s →
    let p := v.toNat % 16
    let o := ((s.slot c i).operand 0x4A).toNat % 16
    (s.event = some (.poolReply c i) →
      (HeldLone s c i 0x3C2 v .pool next →
        ((s.pool c o).isOpen = true → (s.pool c o).takers = [] → (s.pool c o).items.length < 2048 →
            ∃ t, exec .poolReply s = .next t ∧ repliesWith s t c i rMsg 0 next ∧ (t.pool c o).items = (s.pool c o).items ++ [v &&& 0x7FFFFFFFFFFFFFFF])
          ∧ ((s.pool c o).isOpen = true → (s.pool c o).takers = [] → 2048 ≤ (s.pool c o).items.length →
            ∃ t, exec .poolReply s = .next t ∧ repliesWith s t c i rMsg 1 next ∧ t.pool c o = s.pool c o)
          ∧ ((s.pool c o).isOpen = false → ∃ t, exec .poolReply s = .next t ∧ repliesWith s t c i rMsg 2 next ∧ t.pool c o = s.pool c o))
        ∧ (HeldLone s c i 0x3C3 v .pool next → ∀ x r, (s.pool c p).items = x :: r →
            ∃ t, exec .poolReply s = .next t ∧ repliesWith s t c i rMsg x next ∧ (t.pool c p).items = r)
        ∧ (HeldLone s c i 0x3C4 v .pool next → (s.pool c p).takers = [] →
            ∃ t, exec .poolReply s = .next t ∧ repliesWith s t c i rMsg 0 next ∧ (t.pool c p).isOpen = v.getLsbD 4 ∧ (t.pool c p).items = (s.pool c p).items))
      ∧ (s.event = some (.detectorReply c i) → HeldLone s c i 0x3C5 v .detector next →
          (∀ l la, v.getLsbD 0 = false → (s.cell c).launch = l → s.launches = [(l, la)] →
            ∃ t x, exec .detectorReply s = .next t ∧ repliesWith s t c i rMsg ((la.detector.gen + 1).setWidth 64) next ∧ t.launchAt l = some x
              ∧ x.detector.gen = la.detector.gen + 1 ∧ x.detector.armed = true ∧ .quiescenceSample false l ∈ t.agenda)
          ∧ ∀ p q, v.getLsbD 0 = true → panValid (s.cell c).paninfo = true → panId (s.cell c).paninfo = p → s.panAt p = some q →
            ∃ t x, exec .detectorReply s = .next t ∧ repliesWith s t c i rMsg ((q.detector.gen + 1).setWidth 64) next ∧ t.panAt p = some x
              ∧ x.detector.gen = q.detector.gen + 1 ∧ x.detector.armed = true ∧ .quiescenceSample true p ∈ t.agenda)

/-- The replies to the mnt operations (15 R384, R390, R391): mnt.spare gives SPAREBUD of a stack, mnt.notice the notice at or after a sequence number, mnt.state the state record of a
stack or the core's own error counts; stacks from 12 on read as ones. mnt.discard gives the bytes that it discarded, 0 in a range that no page maps. -/
def Parts.MaintenanceReplies : Prop :=
  ∀ (s : State) (c i : Nat) (v next : Word), s.event = some (.mntReply c i) →
    let n := v.toNat % 16
    let k := s.stack n
    let gives (d : BitVec 14) (x : Word) : Prop := HeldLone s c i d v .mnt next →
      ∃ t, exec .mntReply s = .next t ∧ repliesWith s t c i rDbg x next ∧ t.memory = s.memory ∧ t.stack n = s.stack n
    (n < 12 → gives 0x503 (BitVec.ofNat 64 (k.rows % 2 ^ 16 + k.banks % 2 ^ 8 * 2 ^ 16 + k.lanes % 2 ^ 7 * 2 ^ 24 + min k.retired (2 ^ 24 - 1) * 2 ^ 32
        + (if k.xrows then 2 ^ 56 else 0) + (if k.xbanks then 2 ^ 57 else 0) + (if k.xlanes then 2 ^ 58 else 0))))
      ∧ (12 ≤ n → gives 0x503 0xFFFFFFFFFFFFFFFF)
      ∧ gives 0x504 (noticeAt (s.part (s.cell c).part).notices (v.toNat % 2 ^ 32))
      ∧ (v.getLsbD 63 = true → gives 0x505 (BitVec.ofNat 64 (min (s.core c).ce (2 ^ 24 - 1) * 2 ^ 8 + min (s.core c).ue 65535 * 2 ^ 32)))
      ∧ (v.getLsbD 63 = false → n < 12 → gives 0x505 (BitVec.ofNat 64 (k.active.elim 0 Repair.code + (if k.degraded.isEmpty then 0 else 4)
          + min k.ce (2 ^ 24 - 1) * 2 ^ 8 + min k.ue 65535 * 2 ^ 32 + (k.phase.foldl (fun a e => max a e.2.natAbs) 0) % 2 ^ 8 * 2 ^ 48)))
      ∧ (v.getLsbD 63 = false → 12 ≤ n → gives 0x505 0xFFFFFFFFFFFFFFFF)
      ∧ ∀ l m, discardRange (s.slot c i) v = .ok (l, m) → (s.part (s.cell c).part).root = none → HeldLone s c i 0x506 v .mnt next →
          ∃ t, exec .mntReply s = .next t ∧ repliesWith s t c i rDbg 0 next ∧ t.memory = s.memory
            ∧ ∀ x ∈ (t.core c).lines, x ∈ (s.core c).lines ∧ ¬(x.part = (s.cell c).part ∧ l ≤ x.va ∧ x.va < l + m)

/-- One sample of a launch's quiescence detector, or of a panorama's whose members all lie on this device (06 R145, R146). The armed generation is declared when two consecutive samples find every core idle, with no activity between them, and no
gang has still to be placed; otherwise nothing is declared (notes/assumptions/21.md). -/
def Parts.QuiescenceSamples : Prop :=
  ∀ (s : State),
  (∀ (l : Nat) (la : Launch), s.event = some (.quiescenceSample false l) → s.launches = [(l, la)] →
    let d := la.detector
    ∃ t x, exec .quiescenceSample s = .next t ∧ t.launchAt l = some x ∧ x.detector.lastIdle = s.launchIdle l ∧ x.detector.gen = d.gen
      ∧ (s.launchIdle l = true → d.activity = false → d.lastIdle = true → d.armed = true → la.allOut = true →
          x.detector.declared = d.gen ∧ x.detector.armed = false ∧ x.detector.everDeclared = true)
      ∧ ((s.launchIdle l = false ∨ d.activity = true ∨ d.lastIdle = false ∨ d.armed = false ∨ la.allOut = false) →
          x.detector.declared = d.declared ∧ x.detector.armed = d.armed ∧ x.detector.everDeclared = d.everDeclared))
  ∧ ∀ (p : Nat) (q : Panorama), s.event = some (.quiescenceSample true p) → s.panAt p = some q → q.abroad = false →
    let d := q.detector
    let idle := q.launches.all s.launchIdle
    let may := q.launches.all (fun l => (s.launchAt l).elim true (·.allOut))
    ∃ t x, exec .quiescenceSample s = .next t ∧ t.panAt p = some x ∧ x.detector.lastIdle = idle ∧ x.detector.gen = d.gen
      ∧ (idle = true → d.activity = false → d.lastIdle = true → d.armed = true → may = true →
          x.detector.declared = d.gen ∧ x.detector.armed = false ∧ x.detector.everDeclared = true)
      ∧ ((idle = false ∨ d.activity = true ∨ d.lastIdle = false ∨ d.armed = false ∨ may = false) →
          x.detector.declared = d.declared ∧ x.detector.armed = d.armed ∧ x.detector.everDeclared = d.everDeclared)

/-- Replies that a held word waits for (02 R54, 06 R142 to R148, 13 R319, R347, 15 R392). -/
def Obligations.Replies : Prop :=
  Parts.RemoteReplies
    ∧ Parts.AgentReplies
    ∧ Parts.MaintenanceReplies
    ∧ Parts.QuiescenceSamples

/-- What reaches a core from elsewhere (06 R138, R140, R141, 08 R199, R202, R205, R209, 13 R329, R330, R332). A message is stored at TAIL of its ring, which advances, and is acknowledged;
one without its object is acknowledged with SEG_RIGHTS, and one that finds the ring full, or its cell saved, is refused. A spawn message joins the intake. The oldest intake entry becomes a
strand in the lowest free slot, or that of the cell's last strand. A post reaches its semaphore, or is held for a cell that is being pre-empted. An arrival of another device counts in the channel, and completes its phase
where it is the last; one that comes before its panorama's commit stays. The strand is READY in the cycle after the delivery (notes/assumptions/82.md), code 256 refuses a
message (notes/assumptions/45.md), and a domain channel counts a cell under its member and core number (notes/assumptions/20.md). -/
def Parts.Arrivals : Prop :=
  ∀ (s : State) (c : Nat) (cell : Cell) (m : Msg), (s.core c).cell = some cell →
    let acks (t : State) (code : Nat) : Prop :=
      (m.srcDev = s.device.toNat → .messageAcknowledge m.srcCore m.srcSeq code ∈ t.agenda)
        ∧ (m.srcDev ≠ s.device.toNat → .ack m.srcDev m.srcCore m.srcSeq code ∈ t.outbox)
    let there (r : Option Nat) : Bool := s.objectFor c m.srcDev m.srcPart m.panid m.dest m.pan r
    let saved (r : Option Nat) : Bool := s.objectSaved c m.srcDev m.srcPart m.panid m.dest m.pan r
    s.targetCore m.pan m.panid m.dest m.core = c → (m.pan = true → s.frozenPan m.panid = false) →
    (∀ r, s.event = some (.messageArrival m) → m.ring = some r →
        let g := (s.core c).ring r
        (there m.ring = true → cell.preempt = .running → (g.tail - g.head).toNat < g.size →
            ∃ t, exec .messageArrival s = .next t ∧ acks t 0 ∧ ((t.core c).ring r).tail = g.tail + 1 ∧ ((t.core c).ring r).head = g.head
              ∧ (t.core c).store = (s.core c).store.write 8 (g.base + 64 * (g.tail.toNat % g.size)) 64 m.payload.toNat ∧ t.memory = s.memory)
          ∧ (there m.ring = false → saved m.ring = false → ∃ t, exec .messageArrival s = .next t ∧ acks t 0x05 ∧ t.cores = s.cores ∧ t.memory = s.memory)
          ∧ (there m.ring = false → saved m.ring = true → ∃ t, exec .messageArrival s = .next t ∧ acks t 256 ∧ t.cores = s.cores)
          ∧ (there m.ring = true → g.size ≤ (g.tail - g.head).toNat → ∃ t, exec .messageArrival s = .next t ∧ acks t 256 ∧ t.cores = s.cores))
      ∧ (s.event = some (.spawnIntakeArrival m) →
          (there none = true → cell.intakeOpen = true → (s.core c).intake.length < 64 →
              ∃ t, exec .spawnIntakeArrival s = .next t ∧ acks t 0 ∧ (t.core c).intake = (s.core c).intake ++ [{ m with core := c, ring := none, object := s.cellId c }] ∧ .intakeDelivery c ∈ t.agenda)
            ∧ (there none = false → saved none = false → ∃ t, exec .spawnIntakeArrival s = .next t ∧ acks t 0x05 ∧ t.cores = s.cores))
      ∧ (∀ i r, s.event = some (.intakeDelivery c) → (s.core c).intake = m :: r → (s.core c).intakeInto = some i → cell.ended = false → cell.preempt = .running
          → (s.core c).intakeAt ≠ (s.core c).cycles + 1 →
          ∃ t, exec .intakeDelivery s = .next t ∧ (t.core c).intake = r ∧ (t.slot c i).st = .ready ∧ (t.slot c i).readyAt = (s.core c).cycles + 2 ∧ (t.slot c i).pc = blkWord m.payload 0
            ∧ (t.slot c i).serial = nextSerial (s.slot c i).serial ∧ (t.slot c i).readX 7 = m.srcGsi ∧ (t.slot c i).base = BitVec.ofNat 2 (blkBits m.payload 64 2)
            ∧ (∀ n, 1 ≤ n → n ≤ 6 → (t.slot c i).readX n = blkWord m.payload (8 + 8 * n)) ∧ (t.core c).created = (s.core c).created + 1)
      ∧ (∀ i n, s.event = some (.remotePostArrival c i n) → cell.ended = false →
          (cell.preempt = .running → i < cell.sems → ∃ t, exec .remotePostArrival s = .next t ∧ (t.core c).sem i = (((s.core c).sem i).post n).1)
            ∧ (cell.preempt ≠ .running → ∃ t, exec .remotePostArrival s = .next t ∧ (t.core c).posts = (s.core c).posts ++ [⟨i, n, none⟩] ∧ (t.core c).sems = (s.core c).sems))
      ∧ ∀ p ch mb k kind v h ph, s.event = some (.domainBarrierArrival p ch mb k kind v) → kind ≠ 6 →
          ((s.domain.get Channel.free ch).owner ≠ some (p, 0) → (s.panAt p).elim true (fun q => !q.committed) = true →
            ∃ t, exec .domainBarrierArrival s = .next t ∧ .domainBarrierArrival p ch mb k kind v ∈ t.agenda ∧ t.domain = s.domain)
          ∧ ((s.domain.get Channel.free ch).owner = some (p, 0) → (s.domain.get Channel.free ch).arrive (mb * 128 + k) kind v = some (h, ph) →
          (h.ready = false → ∃ t, exec .domainBarrierArrival s = .next t ∧ t.domain.get Channel.free ch = h ∧ t.memory = s.memory)
            ∧ (h.ready = true → h.complete.ready = false → ∃ t, exec .domainBarrierArrival s = .next t ∧ t.domain.get Channel.free ch = h.complete
                ∧ h.complete.phase = h.phase + 1))

/-- Accesses of other devices at their target (13 R318, R321 to R323). A domain access without a binding from its source's partition, and a panorama access to no member here, are
answered with SEG_RIGHTS. A load of bound memory, its page resident, is answered with the bytes, and a store to a member's core is performed and answered. A page that is absent makes a page
reply, and the access waits. -/
def Parts.RequestsAtTarget : Prop :=
  ∀ (s : State) (r : RemoteReq), s.event = some (.remoteRequest r) →
    let q := s.part r.member
    let va := r.acc.addr % 2 ^ 42
    let bound : Bool := q.bind.has r.srcDev && q.bind.get 0 r.srcDev == r.srcPart
    let answers (t : State) (rep : Reply) : Prop := t.outbox = s.outbox ++ [.remoteReply r.srcDev r.srcCore r.srcSlot rep]
    (r.space = 5 → bound = false → ∃ t, exec .remoteRequest s = .next t ∧ answers t (.fault 0x05) ∧ t.memory = s.memory ∧ t.cores = s.cores)
      ∧ (∀ e, r.space = 5 → bound = true → r.acc.op = .load → r.acc.fe = 0 → tlbFind (s.cluster 0).tlb r.member va = some e → pteLost e.entry = false →
          pteRd e.entry = true → (∀ w n a, s.walk r.member va = .leaf w n a → pteDisc w = false) →
          let phys := pteFrame e.entry + va % e.size
          (pteP e.entry = true → pteDisc e.entry = false → s.heldAt phys = none → s.memory.bad = [] →
              ∃ t, exec .remoteRequest s = .next t ∧ answers t (.value (BitVec.ofNat 128 (s.memory.read phys r.acc.n)) 0) ∧ t.memory = s.memory)
            ∧ (pteP e.entry = false → ∃ t, exec .remoteRequest s = .next t ∧ answers t .page ∧ t.asleep = s.asleep ++ [r] ∧ .pageWake r.member va ∈ t.agenda))
      ∧ (r.space = 3 → s.member r.panid r.member = none → ∃ t, exec .remoteRequest s = .next t ∧ answers t (.fault 0x05) ∧ t.cores = s.cores)
      ∧ (∀ mb cell, r.space = 3 → s.member r.panid r.member = some mb → s.frozenPan r.panid = false →
          let c := mb.cluster * 96 + r.core
          let a := r.acc.addr % 2 ^ 21
          (s.core c).cell = some cell → panValid cell.paninfo = true → panId cell.paninfo = r.panid → panMember cell.paninfo = r.member →
          r.acc.op = .store → r.acc.fe = 0 → r.post = none →
          ∃ t, exec .remoteRequest s = .next t ∧ answers t (.value 0 0) ∧ t.memory = s.memory
            ∧ (t.core c).store = (s.core c).store.write 8 a r.acc.n (r.acc.data.toNat % 2 ^ (8 * r.acc.n)))
      ∧ (∀ mb, r.space = 0 → s.member r.panid r.member = some mb →
          (mb.state = 1 → r.acc.fe = 0 → ∃ t x, exec .remoteRequest s = .next t ∧ answers t (.value 0 0)
              ∧ t.member r.panid r.member = some x ∧ x.holders = mb.holders ++ [r.srcMember])
            ∧ (2 ≤ mb.state → ∃ t, exec .remoteRequest s = .next t ∧ answers t (.value 1 0) ∧ t.pans = s.pans))

/-- What arrives over the fabric, and requests at their target (13 R319 to R330). -/
def Obligations.FabricArrivals : Prop := Parts.Arrivals ∧ Parts.RequestsAtTarget

/-- Reservations (13 R328). A RESERVE for an object that does not exist is refused; otherwise it is granted up to eight credits of the cell that lies there, or given a ticket where none is free. Credits that come back join FREE of their cell,
wherever it lies now, or the unit's cache, up to eight of an object (notes/assumptions/46.md). A unit that was given a ticket sends its RESERVE again, and a credit that stays unused is released. -/
def Parts.Reservations : Prop :=
  ∀ (s : State) (r : ReserveReq),
    let k := s.core r.core
    let here : Bool := s.objectFor r.core r.srcDev r.srcPart r.panid r.dest r.pan r.ring
    let answers (t : State) (x : ReserveReq) : Prop :=
      if r.srcDev = s.device.toNat then .creditReturn x ∈ t.agenda else t.outbox = s.outbox ++ [.grant x]
    (s.event = some (.reserveRequest r) → s.targetCore r.pan r.panid r.dest r.core = r.core → (r.pan = true → s.frozenPan r.panid = false) →
      (here = false → s.objectSaved r.core r.srcDev r.srcPart r.panid r.dest r.pan r.ring = false → ∃ t, exec .reserveRequest s = .next t ∧ t.cores = s.cores
          ∧ (if r.srcDev = s.device.toNat then .messageAcknowledge r.srcCore r.srcSeq 0x05 ∈ t.agenda else t.outbox = s.outbox ++ [.ack r.srcDev r.srcCore r.srcSeq 0x05]))
        ∧ (here = true → k.freeFor r.ring ≠ 0 → (k.tickets r.ring).2 = [] →
            ∃ t, exec .reserveRequest s = .next t ∧ answers t { r with object := s.cellId r.core, credits := min 8 (k.freeFor r.ring), ticket := none }
              ∧ (r.ring = none → (t.core r.core).intakeGranted = k.intakeGranted + min 8 (k.freeFor r.ring))
              ∧ ∀ n, r.ring = some n → ((t.core r.core).ring n).granted = (k.ring n).granted + min 8 (k.freeFor r.ring))
        ∧ (here = true → k.freeFor r.ring = 0 → r.ticket = none →
            ∃ t, exec .reserveRequest s = .next t ∧ answers t { r with credits := 0, ticket := some (k.tickets r.ring).1 }
              ∧ (t.core r.core).tickets r.ring = ((k.tickets r.ring).1 + 1, (k.tickets r.ring).2 ++ [(k.tickets r.ring).1])))
      ∧ (s.event = some (.creditReturn r) →
          (∀ x e, r.ticket = some x → r.credits ≠ 0 → s.coreOf r.object = some e → ∃ t, exec .creditReturn s = .next t
              ∧ (r.ring = none → (t.core e).intakeGranted = (s.core e).intakeGranted - r.credits)
              ∧ ∀ n, r.ring = some n → ((t.core e).ring n).granted = ((s.core e).ring n).granted - r.credits)
            ∧ (∀ x, r.ticket = some x → r.credits = 0 → ∃ t, exec .creditReturn s = .next t ∧ .reserveResend r.srcCore r.srcSeq ∈ t.agenda)
            ∧ (∀ e l, r.ticket = none → r.credits ≠ 0 → (s.core r.srcCore).fab.cmds = [] → (s.core r.srcCore).credits = e :: l → e.device = r.dstDev → e.core = r.core → e.ring = r.ring → e.object = r.object →
                ∃ t, exec .creditReturn s = .next t ∧ (t.core r.srcCore).credits.head? = some { e with credits := min 8 (e.credits + r.credits) }))
      ∧ (∀ c m d n, s.event = some (.reserveResend c m.seq) → s.fabCmd c m.seq = some m → m.first = 0 → s.msgTarget m = .ok (d, n) → d ≠ s.device.toNat →
          ∃ t, exec .reserveResend s = .next t ∧ t.outbox = s.outbox ++ [.reserve (s.reserveOf m d n)] ∧ t.cores = s.cores)
      ∧ ∀ c n e, s.event = some (.creditIdleRelease c n) → (s.core c).credits.find? (fun y => y.entry == n) = some e → e.credits ≠ 0 →
          ∃ t x, exec .creditIdleRelease s = .next t ∧ (t.core c).credits = (s.core c).credits.filter (fun y => y != e) ∧ x.credits = e.credits ∧ x.core = e.core
            ∧ x.ring = e.ring ∧ x.object = e.object ∧ x.ticket.isSome = true ∧ (if e.device = s.device.toNat then .creditReturn x ∈ t.agenda else t.outbox = s.outbox ++ [.credit x])

/-- The end of a message at its source (13 R326, R329, R332). An acknowledgement writes STATUS with its fault and frees the slot; a refusal keeps the credit, and the message is sent again to
where its target is now (notes/assumptions/45.md: code 256). -/
def Parts.MessageEnds : Prop :=
  ∀ (s : State) (c : Nat) (m : Cmd), m.core = c → m.seq < 2 ^ 32 → (s.core c).fab.cmds = [m] → (∀ d j, (s.slot d j).held = none) →
    (s.event = some (.messageAcknowledge c m.seq 0) → m.fault = 0 → portNoPost m.port = true → (∀ cell, (s.core c).cell = some cell → cell.ended = false) →
        ∃ t, exec .messageAcknowledge s = .next t ∧ (t.core c).fab.cmds = []
          ∧ (t.core c).store.read (m.loc + 56) 8 = (m.flags.toNat + 2 ^ 8 + m.seq * 2 ^ 32) % 2 ^ 64
          ∧ (∀ x, (x < m.loc + 56 ∨ m.loc + 64 ≤ x) → (t.core c).store.byte x = (s.core c).store.byte x) ∧ t.memory = s.memory)
      ∧ (s.event = some (.messageAcknowledge c m.seq 256) → (∀ e ∈ s.pans, e.2.drainAsks = []) →
        ∃ t k, exec .messageAcknowledge s = .next t ∧ (t.core c).fab.cmds = [k] ∧ k.first = 2 ∧ k.blk = m.blk ∧ .refusedArrivalRetry c m.seq ∈ t.agenda)
      ∧ ∀ d n, s.event = some (.refusedArrivalRetry c m.seq) → m.first = 2 → msgPan m.blk = false → s.msgTarget m = .ok (d, n) →
        ∃ t k, exec .refusedArrivalRetry s = .next t ∧ (t.core c).fab.cmds = [k] ∧ k.first = 1
          ∧ (if d = s.device.toNat then (if m.ring.isSome then .messageArrival (s.msgOf m n) ∈ t.agenda else .spawnIntakeArrival (s.msgOf m n) ∈ t.agenda)
              else t.outbox = s.outbox ++ [.message (s.msgOf m n)])

/-- Holds and departures (13 R335, R337). The removal of a hold takes one entry of the holder away once none of the gang's requests to
the member is unanswered; that of a member elsewhere goes to its device. A member of this device that is EXITING, whose
cells have ended and that nobody holds, departs. -/
def Parts.Departures : Prop :=
  ∀ (s : State) (p m : Nat) (q : Panorama) (mb : Member), s.panAt p = some q → s.member p m = some mb →
    (∀ h, s.event = some (.detachRemoval p m h) → s.outstanding p h m = false → s.stillAsking p m h = false →
        (mb.device ≠ s.device.toNat → exec .detachRemoval s = .next (s.taken.emit (.detach p m h)))
        ∧ (mb.device = s.device.toNat → ∃ t x, exec .detachRemoval s = .next t ∧ t.member p m = some x ∧ x.holders = eraseOne h mb.holders ∧ x.state = mb.state
          ∧ .memberDeparture p m ∈ t.agenda))
      ∧ (s.event = some (.memberDeparture p m) → mb.device = s.device.toNat → mb.state = 2 → mb.holders = [] → (∀ c ∈ s.memberCores p m, (s.cell c).ended = true) →
          (mb.launch.bind s.launchAt).elim [] (fun la => la.gangs.flatMap (fun g => g.2.saved)) = [] → (∃ e ∈ s.launches, e.2.pan = some p) →
          ∃ t x, exec .memberDeparture s = .next t ∧ t.member p m = some x ∧ x.state = 3)
      ∧ (s.event = some (.memberDeparture p m) → mb.device = s.device.toNat → mb.state = 2 → mb.holders ≠ [] → exec .memberDeparture s = .next { s with event := none })

/-- Credits, the ends of messages, and departures from panoramas (13 R320 to R337). -/
def Obligations.FabricEnds : Prop := Parts.Reservations ∧ Parts.MessageEnds ∧ Parts.Departures

/-- The collective engine (13 R338, R340, R342 to R344). A command that every other position has a waiting one for is matched and becomes active while a place is free, or is
abandoned where they differ or are not bound; an abort ends it with its fault. The next bucket of a command without a gate is
read while fewer than four are in flight, and its elements leave on the ring, with a list of those that are uncorrectable (messages of the model, notes/assumptions/34.md). A completion writes the status word and frees the slot. -/
def Parts.CollectiveEngine : Prop :=
  ∀ (s : State) (d : Nat) (m : Cmd), (s.die d).col.cmds = [m] →
    (∀ a, s.event = some (.colMatch d a) → m.finished = false → m.active = false → m.matched = false →
        let u := s.setDie d { s.die d with asks := (s.die d).asks ++ [a] }
        let l := u.colFits d m
        let whole : Prop := (ringOthers s.device.toNat (collOf m.blk).dim).length ≤ l.length
        ∃ t k, exec .colMatch s = .next t ∧ (t.die d).col.cmds = [k] ∧ t.memory = s.memory ∧ t.cores = s.cores
          ∧ (¬ whole → k = m ∧ (t.die d).asks = (s.die d).asks ++ [a])
          ∧ (whole → s.colVerdict m l = 0 → k.matched = true ∧ k.active = true ∧ k.fault = m.fault ∧ .colBucket d m.seq [] ∈ t.agenda)
          ∧ (whole → s.colVerdict m l ≠ 0 → k.finished = true ∧ k.fault = minFault m.fault (s.colVerdict m l) ∧ .colCompletion d m.seq ∈ t.agenda))
      ∧ (∀ f, s.event = some (.colAbort d m.seq f) → m.finished = false →
          ∃ t k, exec .colAbort s = .next t ∧ (t.die d).col.cmds = [k] ∧ k.finished = true ∧ k.fault = minFault m.fault f ∧ .colCompletion d m.seq ∈ t.agenda)
      ∧ (∀ u vs ls, s.event = some (.colBucket d m.seq []) → m.active = true → m.finished = false → m.first < m.last → m.parts < 4 → (collOf m.blk).gate = false →
          s.taken.bucketRead m (elemBits (collOf m.blk).fmt / 8) (upFrom (m.first * (collOf m.blk).bucket) (collOf m.blk).bucket) = (u, .ok vs ls) →
          ∃ t k, exec .colBucket s = .next t ∧ t.outbox = u.outbox ++ [.colData d m.seq m.first vs (ls.map (fun i => i - m.first * (collOf m.blk).bucket))] ∧ t.memory = u.memory
            ∧ ((u.die d).col.cmds = [m] → (t.die d).col.cmds = [k] ∧ k.first = m.first + 1 ∧ k.parts = m.parts + 1 ∧ k.fault = m.fault)
            ∧ (m.first + 1 < m.last → .colBucket d m.seq [] ∈ t.agenda))
      ∧ (s.event = some (.colCompletion d m.seq) → m.finished = true → portNoPost m.port = true → (∀ c j, (s.slot c j).held = none) →
          (∀ cell, (s.core m.core).cell = some cell → cell.ended = false) →
          ∃ t, exec .colCompletion s = .next t ∧ (t.die d).col.cmds = [] ∧ t.memory = s.memory
            ∧ (t.core m.core).store.read (m.loc + 56) 8 = (m.flags.toNat + 2 ^ 5 + m.fault * 2 ^ 8 + min m.dropped 65535 * 2 ^ 16 + m.seq * 2 ^ 32) % 2 ^ 64
            ∧ ∀ x, (x < m.loc + 56 ∨ m.loc + 64 ≤ x) → (t.core m.core).store.byte x = (s.core m.core).store.byte x)

/-- One slot of the torus router (13 R312 to R315). A flit of CLASS 4 to 7 is discarded and counted by its port; a flit for this device is ejected, but a request may find no
room (notes/assumptions/70.md) and then travels on; any other leaves one link older, on a port that brings it nearer where one works, and by another port where none does. The injector's
flit joins where a port is free. A port whose neighbour asks for it is left empty, and an injector that has waited 256 slots has its neighbours asked (notes/assumptions/88.md). Flits leave as
messages of the model (34.md). -/
def Parts.RouterSlots : Prop :=
  ∀ (s : State),
    let n := s.device.toNat
    let older (f : Flit) : Flit := { f with age := if f.age = 255 then 255 else f.age + 1 }
    let leaves (t : State) (o : Nat) (f : Flit) : Prop := o ∈ s.router.working ∧ t.outbox = s.outbox ++ [.flit o (older f)]
      ∧ t.router.outgoing.get f o = older f ∧ t.router.sent.get 0 o = s.router.sent.get 0 o + 1
    s.router.asked = [] →
    (∀ p f, s.event = some (.routerLinkSlot [(p, f)] []) → s.router.inject = [] → p ∈ s.router.working →
      (4 ≤ f.cls.toNat → ∃ t, exec .routerLinkSlot s = .next t ∧ t.outbox = s.outbox ∧ t.router.discarded.get 0 p = s.router.discarded.get 0 p + 1)
        ∧ (1 ≤ f.cls.toNat → f.cls.toNat < 4 → f.dest.toNat = n →
            ∃ t, exec .routerLinkSlot s = .next t ∧ t.outbox = s.outbox ++ [.flit 6 f] ∧ t.router.inject = [])
        ∧ (f.cls = 0 → f.dest.toNat = n → ∃ t, exec .routerLinkSlot s = .next t ∧ (t.outbox = s.outbox ++ [.flit 6 f] ∨ ∃ o, leaves t o f))
        ∧ (f.cls.toNat < 4 → f.dest.toNat ≠ n → ∃ t o, exec .routerLinkSlot s = .next t ∧ leaves t o f
            ∧ (onShortest n o f.dest.toNat = true ∨ (∀ x ∈ s.router.working, onShortest n x f.dest.toNat = false)
                ∧ t.router.deflections.get 0 o = s.router.deflections.get 0 o + 1)))
      ∧ (∀ f r, s.event = some (.routerLinkSlot [] []) → s.router.inject = f :: r → s.router.working ≠ [] → f.dest.toNat ≠ n →
          ∃ t o, exec .routerLinkSlot s = .next t ∧ leaves t o { f with age := 0 } ∧ t.router.inject = r ∧ t.router.waited = 0)
      ∧ (∀ p, s.event = some (.routerLinkSlot [] [p]) → p ∈ s.router.working → s.router.inject = [] →
          ∃ t, exec .routerLinkSlot s = .next t ∧ t.outbox = s.outbox ∧ t.router.asked = [])
      ∧ ∀ l, s.event = some (.routerLinkSlot l []) → s.router.inject ≠ [] → (s.router.arrivals l).length = s.router.working.length → s.router.waited = 255 →
          ∃ t, exec .routerLinkSlot s = .next t ∧ t.router.waited = 256 ∧ ∀ p ∈ s.router.working, .emptySlot p ∈ t.outbox

/-- Links and lost destinations (13 R316, R323). A replay sends the port's last flit again, and the 16th in a row takes the link down; a link that is down takes no flit. A destination that
is lost is unreachable from then on, and a word that waits for its reply traps with UNREACHABLE. -/
def Parts.LinksAndLosses : Prop :=
  ∀ (s : State),
    (∀ p f, s.event = some (.linkReplay p) → s.router.outgoing.find? (fun e => e.1 == p) = some (p, f) → s.router.down.contains p = false →
        ∃ t, exec .linkReplay s = .next t ∧ t.router.replays.get 0 p = s.router.replays.get 0 p + 1
          ∧ (s.router.replays.get 0 p < 15 → t.outbox = s.outbox ++ [.flit p f]) ∧ (15 ≤ s.router.replays.get 0 p → t.outbox = s.outbox ∧ .linkDown p ∈ t.agenda))
      ∧ (∀ p, s.event = some (.linkDown p) → p < 6 → s.router.down.contains p = false →
          ∃ t, exec .linkDown s = .next t ∧ t.router.down = insertNat p s.router.down ∧ .filmstripRecord 5 0x41 p 0 ∈ t.agenda ∧ t.cores = s.cores
            ∧ (∀ x, x ∈ t.router.working ↔ x ∈ s.router.working ∧ x ≠ p))
      ∧ (∀ dev c i h d v, s.event = some (.fabricUnreachable dev) → dev ≠ s.device.toNat → s.router.unreachable.contains dev = false → s.cores = [(c, s.core c)] →
          (s.core c).slots = [(i, s.slot c i)] → (s.cell c).preempt ≠ .stopped → (s.slot c i).held = some h → h.why = .remote dev → h.moves = [⟨d, v, false⟩] → isTrigger d = true → blockOf d = 0x1B →
          (s.core c).cpy.cmds = [] → (s.core c).fab.cmds = [] →
          ∃ t b, exec .fabricUnreachable s = .next t ∧ t.router.unreachable.contains dev = true ∧ (t.slot c i).st = .trapped ∧ (t.slot c i).pc = h.here
            ∧ (t.slot c i).trap = some b ∧ blkField b 1 1 = 0x11)

/-- The collective engine and the torus (13 R338 to R346, 20). -/
def Obligations.CollectivesAndTorus : Prop := Parts.CollectiveEngine ∧ Parts.RouterSlots ∧ Parts.LinksAndLosses

/-- What becomes of a trap record (14 R352 to R357). The core writes it to a free mailbox slot, its DISP set. A debugger that claims the code stops the strand; a cell whose handler covers the code gets it
handed over; otherwise, and where the handler itself faulted, the launch ends with CODE, PC and the GSI. The first record of the mailbox that the handler covers is handed over, where none runs: its strand is STOPPED and
a handler starts in slot 255 at its address with level 1 and the address of the record in x1. -/
def Parts.TrapDisposals : Prop :=
  ∀ (s : State) (c i : Nat) (r : Block),
    let k := s.core c
    let cl := clusterOf c
    let cell := s.cell c
    let code := blkField r 1 1
    let rec_ : MailRec := ⟨c, i, r, false, false⟩
    (s.event = some (.mailboxRecordWrite c i) → (∃ at_, k.faults.head? = some (i, at_)) → (k.slot i).trap = some r →
      ((s.cluster cl).mailbox.filter (fun m => m.core == c)).length < 4 →
        ∃ t, exec .mailboxRecordWrite s = .next t ∧ (t.cluster cl).mailbox = (s.cluster cl).mailbox ++ [⟨c, i, blkSet r 40 8 3, false, false⟩]
          ∧ (t.core c).faults = k.faults.drop 1 ∧ t.slot c i = { s.slot c i with trap := none } ∧ .trapDisposal cl c i ∈ t.agenda)
      ∧ (s.event = some (.trapDisposal cl c i) → (s.slot c i).killBy = none → (s.cluster cl).mailbox = [rec_] →
          (i = 255 → ∃ t, exec .trapDisposal s = .next t ∧ (t.cluster cl).mailbox = [] ∧ .launchEnd cell.launch code (blkWord r 8) (blkWord r 40) ∈ t.agenda)
            ∧ (i ≠ 255 → (s.part cell.part).attached = true → (s.part cell.part).claims.getLsbD code = true → (s.slot c i).st = .trapped →
                ∃ t, exec .trapDisposal s = .next t ∧ (t.slot c i).st = .stopped ∧ (t.slot c i).pc = (s.slot c i).pc
                  ∧ (t.slot c i).waitdesc = (s.slot c i).waitdesc ∧ (t.cluster cl).mailbox = [{ rec_ with claimed := true }])
            ∧ (i ≠ 255 → (s.part cell.part).attached = false → cell.handler = true → cell.hmask.getLsbD code = true →
                ∃ t, exec .trapDisposal s = .next t ∧ .handlerStart c ∈ t.agenda ∧ (t.cluster cl).mailbox = [rec_] ∧ t.slot c i = s.slot c i)
            ∧ (i ≠ 255 → (s.part cell.part).attached = false → (cell.handler = false ∨ cell.hmask.getLsbD code = false) →
                ∃ t, exec .trapDisposal s = .next t ∧ (t.cluster cl).mailbox = [] ∧ .launchEnd cell.launch code (blkWord r 8) (blkWord r 40) ∈ t.agenda))
      ∧ ∀ rest, s.event = some (.handlerStart c) → (s.cluster cl).mailbox = rec_ :: rest → (∀ x ∈ rest, x.core = c → x.slot ≠ i) → i ≠ 255 →
          (s.part cell.part).attached = false → cell.handler = true → cell.hmask.getLsbD code = true → k.handling = none → (s.slot c 255).st = .free →
          cell.preempt = .running → cell.ended = false → (s.slot c i).st = .trapped →
          ∃ t, exec .handlerStart s = .next t ∧ (t.cluster cl).mailbox = { rec_ with handed := true } :: rest ∧ (t.core c).handling = some r ∧ (t.core c).store = k.store.write 8 cell.hrec 64 r.toNat
            ∧ (t.slot c 255).st = .ready ∧ (t.slot c 255).pc = cell.handlerAt ∧ (t.slot c 255).level = 1 ∧ (t.slot c 255).base = 0
            ∧ (t.slot c 255).readX 1 = BitVec.ofNat 64 cell.hrec ∧ (t.slot c i).st = .stopped

/-- The pre-emption of a gang (14 R368 to R372). A request stops every strand of its cells, or waits while a handler runs. When all have stopped each cell's save handler starts with a record of KIND 1 in
HREC. When every cell has signalled, its gang is kept and its core is free. A save that takes longer than its limit is abandoned. -/
def Parts.Preemption : Prop :=
  ∀ (s : State) (l g c i : Nat) (la : Launch) (ga : Gang) (cell : Cell), s.launches = [(l, la)] → la.gangs = [(g, ga)] → la.pan = none → la.ending = none →
    s.cores = [(c, s.core c)] → (s.core c).cell = some cell → cell.launch = l → cell.gang = g → cell.ended = false → i < 255 →
    let gang (t : State) (p : Gang → Prop) : Prop := ∃ x y, t.launchAt l = some x ∧ x.gangs = [(g, y)] ∧ p y
    (s.event = some (.preemptRequest l g) → cell.handler = true → cell.savesz ≠ 0 → cell.preempt = .running →
      ((s.core c).handlerBusy = true → ∃ t, exec .preemptRequest s = .next t ∧ gang t (fun y => y.requested = true ∧ y.preempt = ga.preempt) ∧ t.slot c i = s.slot c i)
        ∧ ((s.core c).handlerBusy = false → (s.core c).slots = [(i, s.slot c i)] → (s.slot c i).st = .ready → (s.slot c i).held = none → (s.slot c i).park = none →
            s.current = none →
            ∃ t, exec .preemptRequest s = .next t ∧ gang t (fun y => y.preempt = .stopped ∧ y.requested = false) ∧ (t.cell c).preempt = .stopped
              ∧ (t.slot c i).st = .stopped ∧ (t.slot c i).pc = (s.slot c i).pc ∧ .saveHandlerStart l g ∈ t.agenda))
      ∧ (s.event = some (.saveHandlerStart l g) → ga.preempt = .stopped → cell.preempt = .stopped → (∀ e ∈ (s.core c).slots, e.2.st = .free ∨ e.2.st = .stopped) →
          ∃ t, exec .saveHandlerStart s = .next t ∧ gang t (fun y => y.preempt = .saving) ∧ (t.cell c).preempt = .saving
            ∧ (t.slot c 255).st = .ready ∧ (t.slot c 255).pc = cell.handlerAt ∧ (t.slot c 255).level = 1 ∧ (t.slot c 255).readX 1 = BitVec.ofNat 64 cell.hrec
            ∧ (t.core c).store.read cell.hrec 1 = 1 ∧ ((s.part la.part).limitUs ≠ 0 → .preemptLimitExpiry l g ∈ t.agenda))
      ∧ (s.event = some (.saveComplete l g) → ga.preempt = .saving → cell.preempt = .saved → (s.core c).lines = [] →
          ∃ t k, exec .saveComplete s = .next t ∧ (t.core c).cell = none ∧ (∀ j, (t.slot c j).st = .free) ∧ .dispatchDecision ∈ t.agenda
            ∧ gang t (fun y => y.preempt = .saved ∧ y.cluster = none ∧ y.saved = [(cellRank cell.cellinfo, k)])
            ∧ k.slots = (s.core c).slots ∧ k.sems = (s.core c).sems ∧ k.intake = (s.core c).intake)
      ∧ (s.event = some (.preemptLimitExpiry l g) → ga.preempt = .saving → (s.core c).slots = [(i, s.slot c i)] → (s.slot c i).st = .stopped →
          (s.slot c i).waitdesc = 0 → (s.slot c i).held = none → (s.core c).posts = [] →
          ∃ t, exec .preemptLimitExpiry s = .next t ∧ gang t (fun y => y.preempt = .running) ∧ (t.cell c).preempt = .running ∧ (t.cell c).intakeOpen = true
            ∧ (t.slot c i).st = .ready ∧ (t.slot c i).pc = (s.slot c i).pc)

/-- The restore of a gang, and the phases of a panorama's pre-emption (14 R373, R374, R376). A saved gang whose places are free goes back to a cluster: each cell has its core there, and its restore handler starts
with a record of KIND 2 in the image's store; while the image meets a region under repair the restore is tried again (notes/assumptions/49.md, 50.md). A panorama's members that all may be
pre-empted stop, at once or after the end of a running handler, save, and after an abort run again; where one may not, member 0's device is told, and it makes every member resume; when all
have stopped it commits (notes/assumptions/59.md). -/
def Parts.Restores : Prop :=
  ∀ (s : State) (l g cl rank : Nat) (la : Launch) (ga : Gang) (old : Core) (cell : Cell), s.launches = [(l, la)] → la.gangs = [(g, ga)] →
    (s.event = some (.restorePlacement l g cl) → la.pan = none → cl < 8 → ga.preempt = .saved → ga.saved = [(rank, old)] → old.cell = some cell →
      (∀ n ∈ ga.channels, n ∈ (s.cluster cl).freeChannels) → (∀ n ∈ ga.pools, n ∈ (s.cluster cl).freePools) → (s.cluster cl).inService = true → (s.cluster cl).powered = true →
      let c := cl * 96 + bitsOf cell.cellinfo.toNat 0 7
      let image := (State.coreImage la la.sections Mem.blank s.taken).2
      s.coreFree c = true →
      (image = .error 0 → ∃ t, exec .restorePlacement s = .next t ∧ .restorePlacement l g cl ∈ t.agenda ∧ t.launches = s.launches) ∧
      ∀ store, image = .ok store → ∃ t x y, exec .restorePlacement s = .next t ∧ (t.cell c).preempt = .restoring ∧ (t.cell c).launch = cell.launch ∧ (t.slot c 255).st = .ready
        ∧ (t.slot c 255).pc = cell.handlerAt ∧ (t.slot c 255).readX 1 = BitVec.ofNat 64 cell.hrec ∧ (t.core c).store.read cell.hrec 1 = 2 ∧ (t.core c).posts = old.posts
        ∧ (∀ a, (a < cell.hrec ∨ cell.hrec + 64 ≤ a) → (t.core c).store.byte a = store.byte a) ∧ (t.core c).intake = old.intake
        ∧ t.launchAt l = some x ∧ x.gangs = [(g, y)] ∧ y.preempt = .running ∧ y.saved = [] ∧ y.cluster = some cl ∧ y.cores = [c])
      ∧ ∀ p q, g = 0 → la.pan = some p → s.panAt p = some q → q.panid = p → q.launches = [l] →
          let busy : Bool := (s.gangCores l 0).any (fun c => (s.core c).handlerBusy)
          let begun (n : Nat) : State := s.taken.mapPan p (fun q => { q with round := n })
          (s.leads q = false → ga.preempt = .running →
              (s.event = some (.panoramaPreempt (.prepare l none)) → exec .panoramaPreempt s = .next (s.taken.emit (.plain 14 10 [p])))
              ∧ ∀ n, s.event = some (.panoramaPreempt (.prepare l (some n))) →
                (s.mayStop l 0 = false → exec .panoramaPreempt s = .next ((begun n).emit (.plain 14 0 [p, n])))
                ∧ (s.mayStop l 0 = true → busy = false → exec .panoramaPreempt s = .next ((begun n).stopGang l 0))
                ∧ (s.mayStop l 0 = true → busy = true → exec .panoramaPreempt s = .next ((begun n).mapGang l 0 (fun y => { y with requested := true }))))
            ∧ (s.leads q = true → q.abroad = true →
              (ga.preempt = .running → s.mayStop l 0 = true → busy = false → s.event = some (.panoramaPreempt (.prepare l none)) →
                exec .panoramaPreempt s = .next (((begun (q.round + 1)).emit (.plain 14 5 [p, q.round + 1])).stopGang l 0))
              ∧ ∀ m n, (s.event = some (.panoramaPreempt (.reported l m n false)) → n = q.round →
                  exec .panoramaPreempt s = .next ((s.taken.emit (.plain 14 6 [p, n])).abandonAll l 0))
                ∧ (∀ b, s.event = some (.panoramaPreempt (.reported l m n b)) → n ≠ q.round → exec .panoramaPreempt s = .next s.taken)
                ∧ (s.event = some (.panoramaPreempt (.reported l m n true)) → n = q.round → ga.preempt = .stopped → s.gangStopped l 0 = true →
                  (∀ e ∈ q.members, e.2.launch.isSome = true ∨ e.1 = m ∨ e.1 ∈ q.reported) →
                  ∃ t, exec .panoramaPreempt s = .next t ∧ t.outbox = s.outbox ++ [.plain 14 7 [p, q.round]] ∧ .panoramaPreempt (.commit l) ∈ t.agenda))
            ∧ (s.event = some (.panoramaPreempt (.commit l)) → ga.preempt = .stopped → s.gangStopped l 0 = true → exec .panoramaPreempt s = .next (s.taken.saveGang l 0))
            ∧ (s.event = some (.panoramaPreempt (.abort l)) → ga.preempt = .stopped →
                exec .panoramaPreempt s = .next ((s.taken.abandonGang l 0).mapPan p (fun q => { q with farSaved := false, ownSaved := false, reported := [], drainAsks := [] })))
/-- Disposal of traps, pre-emption and restoration (14 R352 to R373). -/
def Obligations.TrapsAndPreemption : Prop := Parts.TrapDisposals ∧ Parts.Preemption ∧ Parts.Restores

/-- The packets that act on nothing but their queue and its channels (16 R398 to R400, R421). NOP and BARRIER issue and complete. EVENT adds a USER record with its TAG, INFO0 and INFO1 to the queue's channel.
MARK writes a record of four words into each cluster's trace that takes packets of the partition. -/
def Parts.PlainPackets : Prop :=
  ∀ (s : State) (q : Nat) (p : Block), s.mayIssue q p →
    let cb := (s.queueAt q).cb
    let part := cbPart cb
    (s.event = some (.nop q p) → ∃ t, exec .nop s = .next t ∧ completesPacket s t q p 0 ∧ t.memory = s.memory ∧ t.outbox = s.outbox)
      ∧ (s.event = some (.barrier q p) → ∃ t, exec .barrier s = .next t ∧ completesPacket s t q p 0 ∧ t.memory = s.memory ∧ t.outbox = s.outbox)
      ∧ (s.event = some (.event q p) →
          ((s.evchan part (cbEvch cb)).configured = false → ∃ t, exec .event s = .next t ∧ completesPacket s t q p 0 ∧ t.memory = s.memory ∧ t.outbox = s.outbox)
            ∧ ∃ u, completesPacket s u q p 0 ∧ exec .event s = .next (u.addEvent part (cbEvch cb) (eventRecord 0x37 0 q (pkTag p) (pk8 p 8) (pk8 p 16))))
      ∧ (s.event = some (.mark q p) → ∃ t, exec .mark s = .next t ∧ completesPacket s t q p 0
          ∧ ∀ cl, cl < 8 →
              let r := (s.cluster cl).trace
              (r.on 2 part = false → t.cluster cl = s.cluster cl)
                ∧ (r.on 2 part = true → r.dropped = 0 → (r.wr - r.rd).toNat + 4 ≤ 2 ^ r.log2w → (t.cluster cl).trace = { r with wr := r.wr + 4 }))

/-- SIGNAL, WAIT and COPY (16 R403, R404). SIGNAL adds its value to a resident signal, or swaps it in, and completes; where a
region under repair holds the signal it is tried again. WAIT completes when its signal meets the condition, now or at a later reading, and until
then holds the queue. COPY issues, reads its source lines and writes them to its destination, whose pages become dirty, and completes (notes/assumptions/29.md). -/
def Parts.SignalPackets : Prop :=
  ∀ (s : State) (q : Nat) (p : Block),
    let k := s.queueAt q
    let part := cbPart k.cb
    (∀ phys, s.event = some (.signal q p) → s.mayIssue q p → pageAt s part (pk8 p 8) phys true true → s.heldAt phys = none → s.memory.bad = [] → (s.cluster 0).tlb = [] →
        (s.die 0).tlb = [] →
        let old := s.memory.read phys 8
        let new := if blkField p 24 1 = 0 then (old + pk8 p 16) % 2 ^ 64 else pk8 p 16
        ∃ t, exec .signal s = .next t ∧ completesPacket s t q p 0
          ∧ t.memory = ({ s with memory := s.memory.write 32 phys 8 new }.setDirtyBit part (pk8 p 8)).memory)
      ∧ (∀ phys, s.event = some (.signal q p) → s.mayIssue q p → pageAt s part (pk8 p 8) phys true true → (s.heldAt phys).isSome = true → (s.cluster 0).tlb = [] →
          (s.die 0).tlb = [] → ∃ t, exec .signal s = .next t ∧ .signal q p ∈ t.agenda ∧ t.memory = s.memory ∧ t.queues = s.queues)
      ∧ (∀ phys, s.event = some (.wait q p) → s.mayIssue q p → pageAt s part (pk8 p 8) phys true false → s.heldAt phys = none → s.memory.bad = [] → (s.cluster 0).tlb = [] →
          (s.die 0).tlb = [] →
          (waitHolds p (s.memory.read phys 8) = true → ∃ t, exec .wait s = .next t ∧ completesPacket s t q p 0 ∧ (t.queueAt q).wait = none ∧ t.memory = s.memory)
            ∧ (waitHolds p (s.memory.read phys 8) = false → ∃ t, exec .wait s = .next t ∧ issuesPacket s t q p 0 ∧ (t.queueAt q).wait = some (cbRdidx k.cb, p)
                ∧ .signalPoll q ∈ t.agenda ∧ t.memory = s.memory))
      ∧ (∀ i phys, s.event = some (.signalPoll q) → k.wait = some (i, p) → pageAt s part (pk8 p 8) phys true false → s.heldAt phys = none → s.memory.bad = [] →
          (s.cluster 0).tlb = [] →
          (s.die 0).tlb = [] →
          (waitHolds p (s.memory.read phys 8) = true → ∃ t, exec .signalPoll s = .next t ∧ (t.queueAt q).wait = none ∧ .packetComplete q i ∈ t.agenda ∧ t.memory = s.memory)
            ∧ (waitHolds p (s.memory.read phys 8) = false → ∃ t, exec .signalPoll s = .next t ∧ (t.queueAt q).wait = some (i, p) ∧ .signalPoll q ∈ t.agenda ∧ t.memory = s.memory))
      ∧ (∀ from_ into, s.event = some (.copy q p) → s.mayIssue q p → pk8 p 24 = 64 → pageAt s part (pk8 p 8) from_ true false → pageAt s part (pk8 p 16) into false true →
          s.heldAt from_ = none → s.heldRange into 64 = none → s.memory.bad = [] → (∀ x ∈ k.issued, x.packet ≠ p ∧ x.index ≠ cbRdidx k.cb) → (s.stack (stackOf into)).retry.entries = [] →
          ∃ t, exec .copy s = .next t ∧ (t.queueAt q).issued = k.issued ++ [⟨cbRdidx k.cb, p, 0, 1, 0⟩] ∧ (t.queueAt q).fetched = none
            ∧ cbRdidx (t.queueAt q).cb = (cbRdidx k.cb + 1) % 2 ^ 32 ∧ .packetComplete q (cbRdidx k.cb) ∈ t.agenda
            ∧ t.memory = ((s.fwStore into 64 (s.memory.read from_ 64) 0).setDirtyBit part (pk8 p 16)).memory)

/-- CONFIG and DISCARD (07 R174, 13 R318, 16 R416, R418, R419, 17 R434). Each changes what it names and completes; one that names a queue of another partition, or a block that may not be set, is rejected and stops
its queue (notes/assumptions/27.md, 30.md). -/
def Parts.ConfigPackets : Prop :=
  ∀ (s : State) (q : Nat) (p : Block), s.mayIssue q p → s.bells = [] →
    let k := s.queueAt q
    let part := cbPart k.cb
    let a := pk8 p 16
    let i := cbRdidx k.cb
    let rejects (e : Instr) : Prop := ∃ t, exec e s = .next t ∧ cbState (t.queueAt q).cb = 2 ∧ (t.queueAt q).rejected = true ∧ (t.queueAt q).issued = k.issued
      ∧ cbRdidx (t.queueAt q).cb = i
    (∀ u v, s.event = some (.configQset q p) → s.taken.fwRead part (pk8 p 24) 64 = (u, .ok v) → u.queues = s.queues → u.bells = [] → cbOk (BitVec.ofNat 512 v) = true →
        s.sameOwner q a = true → (s.queueAt a).issued = [] → (s.queueAt a).part = some (cbPart (BitVec.ofNat 512 v)) →
        ∃ t, exec .configQset s = .next t ∧ (t.queueAt a).cb = blkSet (BitVec.ofNat 512 v) 448 64 0 ∧ (t.queueAt a).wait = none ∧ .packetComplete q i ∈ t.agenda)
      ∧ (∀ u, s.event = some (.configQread q p) →
          (s.sameOwner q a = false → (s.evchan part (cbEvch k.cb)).configured = false → rejects .configQread)
            ∧ (s.sameOwner q a = true → (s.taken.issue q p 0).fwPut part (pk8 p 24) 64 ((s.taken.issue q p 0).queueAt a).cb.toNat true = (u, .ok ()) →
                ∃ t, exec .configQread s = .next t ∧ t.memory = u.memory ∧ .packetComplete q i ∈ t.agenda))
      ∧ (s.event = some (.configQresume q p) → (s.sameOwner q a = false → (s.evchan part (cbEvch k.cb)).configured = false → rejects .configQresume)
          ∧ (s.sameOwner q a = true → a ≠ q → cbState (s.queueAt a).cb = 2 →
              ∃ t, exec .configQresume s = .next t ∧ cbState (t.queueAt a).cb = 1 ∧ (t.queueAt a).rejected = false ∧ completesPacket s t q p 0
                ∧ cbRdidx (t.queueAt a).cb = (if pk8 p 24 = 1 ∧ (s.queueAt a).rejected = true then (cbRdidx (s.queueAt a).cb + 1) % 2 ^ 32 else cbRdidx (s.queueAt a).cb)))
      ∧ (∀ c, s.event = some (.configLog q p) → s.partCores part = [c] → (∀ d j, (s.slot d j).held = none) → (s.core c).retry.entries = [] → (s.cell c).storeDecl ≤ 0x17F000 →
          (a = 1 → s.logQuiet c = true → (s.core c).logging = false → ∃ t, exec .configLog s = .next t ∧ (t.core c).logging = true ∧ (t.core c).logCount = 0
              ∧ (t.core c).store = (s.core c).store.clearRange 8 0x17F000 0x1000 ∧ (t.part part).logging = true ∧ completesPacket s t q p 0)
            ∧ (a = 0 → ∃ t, exec .configLog s = .next t ∧ (t.core c).logging = false ∧ (t.core c).logCount = 0 ∧ (t.part part).logging = false ∧ completesPacket s t q p 0))
      ∧ (∀ u v, s.event = some (.configBind q p) → s.taken.fwRead part a 288 = (u, .ok v) → u.queues = s.queues → (∀ d, d < 288 → bitsOf v (8 * d) 8 < 16 ∨ bitsOf v (8 * d) 8 = 255) →
          ∃ t, exec .configBind s = .next t ∧ .packetComplete q i ∈ t.agenda
            ∧ ∀ d, d < 288 → (t.part part).bind.has d = (bitsOf v (8 * d) 8 != 255) ∧ (bitsOf v (8 * d) 8 ≠ 255 → (t.part part).bind.get 0 d = bitsOf v (8 * d) 8))
      ∧ (∀ u v, s.event = some (.configEvch q p) → s.taken.fwRead part (pk8 p 24) 32 = (u, .ok v) → u.queues = s.queues → evOk (BitVec.ofNat 256 v) = true →
          ∃ t, exec .configEvch s = .next t ∧ .packetComplete q i ∈ t.agenda ∧ t.evchan part a = { EventChan.none with cfg := BitVec.ofNat 256 v, configured := true })
      ∧ (s.event = some (.configLimits q p) → ∃ t, exec .configLimits s = .next t ∧ completesPacket s t q p 0 ∧ (t.part part).limitUs = a % 2 ^ 32
          ∧ (t.part part).weights = (bitsOf a 32 1 == 1) ∧ (t.part part).bind = (s.part part).bind)
      ∧ (s.event = some (.configTrace q p) → ∃ t, exec .configTrace s = .next t ∧ completesPacket s t q p 0
          ∧ ∀ cl n, cl < 8 → n < 16 → (t.cluster cl).trace.parts.getLsbD n = (if n = part then a == 1 else (s.cluster cl).trace.parts.getLsbD n))
      ∧ (s.event = some (.discard q p) → s.migratingIn part (pk8 p 8) a = false →
          let r := s.taken.discardPages (pk8 p 8) (pk8 p 8 + a) part (a / 2 ^ 16) (pk8 p 8) 0
          r.1.queues = s.queues → r.1.blockCache = s.blockCache → ∃ t, exec .discard s = .next t ∧ t.memory = r.1.memory ∧ completesPacket s t q p (BitVec.ofNat 64 r.2))

/-- TABLE packets on one page of 64 KiB whose entry lies in a table (16 R417). MAP and PROTECT give a valid entry the packet's rights, MAP takes the lowest free frame for an invalid one, UNMAP clears the entry and
frees the page's frame, and RESERVE makes it discarded without a frame. Other bytes of memory keep their values but for a frame that MAP fills with zeros, and no TLB keeps a translation of the page. -/
def Parts.TablePackets : Prop :=
  ∀ (s : State) (q : Nat) (p : Block) (root a : Nat), s.mayIssue q p → s.cores = [] →
    let part := cbPart (s.queueAt q).cb
    let va := pk8 p 16
    let e := s.tableWord a
    let rights := blkField p 9 1 % 8 * 8
    let withRights := e.toNat - bitsOf e.toNat 3 3 * 8 + rights
    let runs (ins : Instr) (m : Mem) (frames : List (Nat × Nat)) : Prop := ∃ t, exec ins s = .next t ∧ completesPacket s t q p 0 ∧ t.memory = m ∧ t.frames = frames
      ∧ ∀ cl, ∀ x ∈ (t.cluster cl).tlb, ¬(x.part = part ∧ x.va < va + 2 ^ 16 ∧ va < x.va + x.size)
    blkField p 10 1 = 0 → pk8 p 24 = 2 ^ 16 → (s.part part).root = some root → (s.evchan part (cbEvch (s.queueAt q).cb)).configured = false →
      (∀ make, State.entryFor make va 3 3 1 root s.taken = (s.taken, .at_ a)) →
      (s.event = some (.tableMap q p) → blkField p 8 1 = 0 →
        (pteValid 3 e = true → runs .tableMap (s.memory.write 32 a 8 withRights) s.frames)
          ∧ ∀ b, pteValid 3 e = false → s.freeFrame (2 ^ 16) = some b →
              runs .tableMap ((s.memory.clearRange 32 b (2 ^ 16)).write 32 a 8 (3 + rights + 0x40 + b)) ((b, 2 ^ 16) :: s.frames))
        ∧ (s.event = some (.tableUnmap q p) → blkField p 8 1 = 1 → pteValid 3 e = true → pteOwns e = true →
            runs .tableUnmap (s.memory.write 32 a 8 0) (s.frames.filter (fun x => x != (pteFrame e, 2 ^ 16))))
        ∧ (s.event = some (.tableProtect q p) → blkField p 8 1 = 2 → pteValid 3 e = true → runs .tableProtect (s.memory.write 32 a 8 withRights) s.frames)
        ∧ (s.event = some (.tableReserve q p) → blkField p 8 1 = 3 → pteValid 3 e = false →
            runs .tableReserve (s.memory.write 32 a 8 (3 + rights + 0x100)) s.frames)

/-- CONFIG, DISCARD and TABLE packets (16 R416 to R419). -/
def Obligations.FirmwarePackets : Prop := Parts.ConfigPackets ∧ Parts.TablePackets

/-- The fetch, the completion and the doorbell of packets (16 R394, R396, R397, R399, R401, R402, R418, 18 R439, R440, R442, R443). A packet that the validator passes, with what it names, is the one fetched, and its
turn has come where nothing is issued; one that fails a check stops the queue with the number of the check, a malformed block of a CONFIG with 2 (notes/assumptions/28.md). A completion counts in DONE and frees the packet. A doorbell advances WRIDX while the ring has room; a SEND to a gated front end is held, on a queue
pair in the error state or of another transport dropped, and of no doorbell's length refused; what RoCEv2 does not support puts its pair in the error state. A control block that is not in the cache
is read from the table, and a doorbell or a fetch waits while every way for it is pinned (notes/assumptions/92.md). -/
def Parts.QueueEvents : Prop :=
  ∀ (s : State) (q : Nat),
    let k := s.queueAt q
    let part := cbPart k.cb
    let cached : State := { s.taken with blockCache := q :: removeNat q s.blockCache }
    let pinned : Prop := s.blockCache.contains q = false ∧ 8 ≤ (s.blockCache.filter (sameSet q)).length ∧ ∀ x ∈ s.blockCache, sameSet q x = true → s.blockPinned x = true
    (∀ u v, s.event = some (.packetFetch q) → cbState k.cb = 1 → k.fetched = none → k.wait = none → cbPending k.cb ≠ 0 →
        s.blockCache.contains q = true → cached.fwRead part (cbSlot k.cb (cbRdidx k.cb)) 64 = (u, .ok v) → u.queues = s.queues → u.blockCache.contains q = true →
        let p : Block := BitVec.ofNat 512 v
        (∀ w, validate k.cb p (u.ownPacket q p) = none → u.blockCheck q p = (w, .ok true) → w.queues = s.queues → ∃ t, exec .packetFetch s = .next t ∧ (t.queueAt q).fetched = some p ∧ (t.queueAt q).cb = k.cb
            ∧ (k.issued = [] → packetEvent q p ∈ t.agenda))
          ∧ (∀ w, validate k.cb p (u.ownPacket q p) = none → u.blockCheck q p = (w, .ok false) → w.queues = s.queues → w.bells = [] → (w.evchan part (cbEvch k.cb)).configured = false →
              ∃ t, exec .packetFetch s = .next t ∧ cbState (t.queueAt q).cb = 2 ∧ blkBits (t.queueAt q).cb 88 8 = 2 ∧ (t.queueAt q).rejected = true)
          ∧ ∀ n, validate k.cb p (u.ownPacket q p) = some n → n < 4 → u.bells = [] → (u.evchan part (cbEvch k.cb)).configured = false →
              ∃ t, exec .packetFetch s = .next t ∧ cbState (t.queueAt q).cb = 2 ∧ blkBits (t.queueAt q).cb 88 8 = n ∧ (t.queueAt q).rejected = true
                ∧ cbRdidx (t.queueAt q).cb = cbRdidx k.cb)
      ∧ (s.event = some (.packetFetch q) → cbState k.cb = 1 → k.fetched = none → k.wait = none → cbPending k.cb ≠ 0 → pinned →
          ∃ t, exec .packetFetch s = .next t ∧ .packetFetch q ∈ t.agenda ∧ t.queues = s.queues ∧ t.memory = s.memory)
      ∧ (∀ i x, s.event = some (.packetComplete q i) → k.issued = [x] → x.index = i → pkEvent x.packet = false → s.bells = [] →
          ∃ t, exec .packetComplete s = .next t ∧ (t.queueAt q).issued = [] ∧ cbDone (t.queueAt q).cb = (cbDone k.cb + 1) % 2 ^ 64
            ∧ cbRdidx (t.queueAt q).cb = cbRdidx k.cb)
      ∧ ∀ d, s.event = some (.doorbell d) →
          let fits : Prop := d.priority = s.host.priority ∨ s.host.intakeBytes + d.length ≤ 2 ^ 21
          let drops : Prop := ∃ t, exec .doorbell s = .next t ∧ t.host.dropped = s.host.dropped + 1 ∧ t.queues = s.queues
          (s.host.qpError.contains d.qp = true → drops)
            ∧ (d.kind = .foreign ∨ d.kind = .otherTransport → drops)
            ∧ (¬ fits → drops)
            ∧ (s.host.qpError.contains d.qp = false → d.kind = .send ∨ d.kind = .unsupported → fits → s.host.gated = true →
                ∃ t, exec .doorbell s = .next t ∧ t.host.held = s.host.held ++ [.send d] ∧ .frontEndWake ∈ t.agenda ∧ t.queues = s.queues)
            ∧ (s.host.qpError.contains d.qp = false → fits → s.host.gated = false → s.host.held = [] →
                (d.kind = .unsupported → ∃ t, exec .doorbell s = .next t ∧ t.outbox = s.outbox ++ [.nak d.qp 1] ∧ d.qp ∈ t.host.qpError ∧ t.queues = s.queues)
                ∧ (d.kind = .send → sendLengthOk d = false → exec .doorbell s = .next (s.taken.emit (.nak d.qp 1)))
                ∧ (d.kind = .send → sendLengthOk d = true → dbQueue d.header = q → s.bells = [] →
                  let b : Block := if s.blockCache.contains q then k.cb else BitVec.ofNat 512 (s.memory.read (Config.queueTable + 64 * q) 64)
                  ((cbState b = 1 ∨ cbState b = 2) → s.host.qpPart.has d.qp = true → k.part = some (s.host.qpPart.get 0 d.qp) → dbOk d = true → dbMode d.header = 1 →
                    cbPending b + dbCount d.header ≤ 2 ^ cbLog2 b → (s.blockCache.contains q = true ∨ (s.blockCache.filter (sameSet q)).length < 8) →
                    ∃ t, exec .doorbell s = .next t ∧ cbWridx (t.queueAt q).cb = (cbWridx b + dbCount d.header) % 2 ^ 32 ∧ cbRdidx (t.queueAt q).cb = cbRdidx b
                      ∧ t.memory = s.memory ∧ t.blockCache.head? = some q)
                  ∧ (pinned → ∃ t, exec .doorbell s = .next t ∧ t.bells = [d] ∧ t.queues = s.queues ∧ t.memory = s.memory)))
/-- Queues and the packets that act on nothing but signals and memory (16 R397 to R404). -/
def Obligations.QueuePackets : Prop := Parts.PlainPackets ∧ Parts.SignalPackets ∧ Parts.QueueEvents

/-- Lane tracking, error counts and the patrol (15 R377 to R381, R391). A step moves a group's phase by one within ±32, and ±28 asks for a retrain. A corrected codeword counts once and changes no value. A granule of
a stack that the patrol finds uncorrectable for the first time counts once and makes its row a candidate for repair
(its detection is notes/assumptions/51.md); a sound one changes nothing. -/
def Parts.MemoryPatrol : Prop :=
  ∀ (s : State) (n : Nat),
    let k := s.stack n
    (∀ g up, s.event = some (.phaseTrackStep n g up) →
        let v : Int := max (-32) (min 32 (k.phase.get 0 g + if up then 1 else -1))
        ∃ t, exec .phaseTrackStep s = .next t ∧ (t.stack n).phase.get 0 g = v ∧ (∀ h, h ≠ g → (t.stack n).phase.get 0 h = k.phase.get 0 h)
          ∧ (28 ≤ v.natAbs → k.active ≠ some (.retrain g) → .retrain g ∉ k.waiting → .groupRetrain n g ∈ t.agenda ∧ (t.stack n).waiting = k.waiting ++ [.retrain g])
          ∧ (v.natAbs < 28 → t.agenda = s.agenda) ∧ t.memory = s.memory)
      ∧ (∀ g, s.event = some (.eccWriteback (.stack n g)) → ∃ t, exec .eccWriteback s = .next t ∧ t.memory = s.memory ∧ (t.stack n).ce = min (k.ce + 1) (2 ^ 24 - 1)
          ∧ (t.stack n).ue = k.ue ∧ t.cores = s.cores)
      ∧ (∀ c, s.event = some (.eccWriteback (.core c)) → ∃ t, exec .eccWriteback s = .next t ∧ t.memory = s.memory ∧ t.hbm = s.hbm
          ∧ t.core c = { s.core c with ce := min ((s.core c).ce + 1) (2 ^ 24 - 1) })
      ∧ (∀ g found, s.event = some (.patrolRead n g found) →
          (s.memory.bad.contains g = true ∨ found = .uncorrectable → s.memory.found.contains g = false → stackOf (32 * g) = n →
              ∃ t, exec .patrolRead s = .next t ∧ (t.stack n).ue = min (k.ue + 1) 65535 ∧ g ∈ t.memory.bad ∧ g ∈ t.memory.found ∧ t.memory.bytes = s.memory.bytes
                ∧ t.memory.empties = s.memory.empties
                ∧ let row : Repair := .row (unitChan (rowUnit (32 * g))) (unitBank (rowUnit (32 * g))) (unitRow (rowUnit (32 * g)))
                  (k.active ≠ some row → row ∉ k.waiting → row.event n ∈ t.agenda ∧ (t.stack n).waiting = k.waiting ++ [row]))
            ∧ (s.memory.bad.contains g = false → found = .corrected → ∃ t, exec .patrolRead s = .next t ∧ (t.stack n).ce = min (k.ce + 1) (2 ^ 24 - 1)
                ∧ t.memory = s.memory)
            ∧ (s.memory.bad.contains g = false → found = .sound → exec .patrolRead s = .next { s with event := none }))

/-- The Fixer's repairs (15 R378, R381, R382, R384, R385). With no repair active one that is detected becomes active where a spare is left, and its attempt is limited. An attempt that is completed uses its spare; one
that runs out of time uses none and starts over (how long an attempt lasts is notes/assumptions/51.md). A retrained group has phase 0 (notes/assumptions/66.md). A row with no spare left sets XROWS, and its frames are to be retired. -/
def Parts.Repairs : Prop :=
  ∀ (s : State) (n : Nat),
    let k := s.stack n
    let starts (e : Instr) (r : Repair) : Prop := k.active = none → k.waiting = [] → s.piecesDue = false → ∃ t, exec e s = .next t ∧ (t.stack n).active = some r ∧ (t.stack n).waiting = []
      ∧ .repairAttemptComplete n ∈ t.agenda ∧ .repairAttemptTimeout n ∈ t.agenda ∧ (t.stack n).rows = k.rows ∧ t.memory = s.memory
    (∀ c b w, s.event = some (.rowRepair n c b w) → (k.rows ≠ 0 → starts .rowRepair (.row c b w))
        ∧ (k.rows = 0 → k.active = none → k.waiting = [] → s.piecesDue = false → ∃ t, exec .rowRepair s = .next t ∧ (t.stack n).xrows = true ∧ (t.stack n).active = none
            ∧ (∀ f ∈ rowFrames n (rowOf c b w), f ∈ (t.stack n).toRetire) ∧ t.memory = s.memory))
      ∧ (∀ c b, s.event = some (.bankMigration n c b) → k.banks ≠ 0 → starts .bankMigration (.bank c b 0))
      ∧ (∀ g, s.event = some (.laneSteer n g) → k.degraded.contains g = false → k.laneMap.contains g = false → starts .laneSteer (.lane g))
      ∧ (∀ g, s.event = some (.groupRetrain n g) → starts .groupRetrain (.retrain g))
      ∧ (s.event = some (.repairAttemptComplete n) → k.waiting = [] → s.memory.bad = [] → k.delayed = [] → (∀ e ∈ s.hbm, e.2.retry.entries = []) →
          (∀ c b w, k.active = some (.row c b w) → k.rowMap.contains (c, b, w) = false → (k.rowMap.filter (fun x => x.1 == c && x.2.1 == b)).length < 63 → ∃ t, exec .repairAttemptComplete s = .next t ∧ (t.stack n).active = none ∧ (t.stack n).rows = k.rows - 1
              ∧ (t.stack n).rowMap = k.rowMap ++ [(c, b, w)] ∧ t.memory = s.memory)
            ∧ (∀ g, k.active = some (.lane g) → ∃ t, exec .repairAttemptComplete s = .next t ∧ (t.stack n).active = none ∧ (t.stack n).lanes = k.lanes - 1
                ∧ (t.stack n).laneMap = k.laneMap ++ [g] ∧ t.memory = s.memory)
            ∧ (∀ g, k.active = some (.retrain g) → ∃ t, exec .repairAttemptComplete s = .next t ∧ (t.stack n).active = none ∧ (t.stack n).phase.get 0 g = 0 ∧ t.memory = s.memory))
      ∧ (∀ c b w, s.event = some (.repairAttemptTimeout n) → k.active = some (.row c b w) → k.waiting = [] → k.rows ≠ 0 → k.delayed = [] → (∀ e ∈ s.hbm, e.2.retry.entries = []) →
          (∀ e ∈ s.cores, (∀ m ∈ e.2.cpy.cmds, m.pend = []) ∧ ∀ m ∈ e.2.mx.cmds, m.pend = []) → ∃ t, exec .repairAttemptTimeout s = .next t ∧ (t.stack n).active = some (.row c b w) ∧ (t.stack n).rows = k.rows ∧ (t.stack n).rowMap = k.rowMap ∧ t.memory = s.memory)

/-- The retirement of a frame that no page maps, and a page that loses its residence (07 R161, R175, 15 R386 to R388). The frame is never free again and its stack counts it. A page that is not discarded keeps its contents and
its frame; a discarded one gives its frame back: both once the dirty words of every line cache have reached memory. Neither has P afterwards, and no TLB keeps a translation of it. -/
def Parts.PagesRetired : Prop :=
  ∀ (s : State),
    (∀ n f, s.event = some (.pageRetirement n f) → s.migrating n f = false → (s.stack n).toRetire = [f] → s.retired.contains f = false → s.mapsOf f = [] →
        ∃ t, exec .pageRetirement s = .next t ∧ t.retired = insertNat f s.retired ∧ (t.stack n).retired = min ((s.stack n).retired + 1) (2 ^ 24 - 1)
          ∧ (t.stack n).toRetire = [] ∧ t.memory = s.memory ∧ t.parts = s.parts)
      ∧ ∀ part va e₀ a₀ e size a, s.event = some (.pageMadeNonResident part va) → s.walk part va = .leaf e₀ size a₀ → pteP e₀ = true → pteLost e₀ = false →
          let u := s.taken.cleanRange part (va / size * size) size
          u.writesDue part va size = false → u.walk part va = .leaf e size a →
          ∃ t, exec .pageMadeNonResident s = .next t ∧ t.memory = u.memory.write 32 a 8 (e &&& ~~~(0x40 : Word)).toNat
            ∧ (pteDisc e = false → t.frames = u.frames) ∧ (pteDisc e = true → t.frames = u.frames.filter (fun x => x != (pteFrame e, size)))
            ∧ ∀ cl, ∀ x ∈ (t.cluster cl).tlb, ¬(x.part = part ∧ x.va < va / size * size + size ∧ va / size * size < x.va + x.size)

/-- The patrol, the Fixer and the retirement of pages (15 R377 to R391). -/
def Obligations.MemoryRepair : Prop := Parts.MemoryPatrol ∧ Parts.Repairs ∧ Parts.PagesRetired

/-- Launches (01 R18, R21, R22, 03 R73, 06 R145, 16 R401, R405 to R410, R413). LAUNCH checks its descriptor and issues a launch that waits for a decision; a descriptor that fails a check stops the queue with DETAIL 4. A decision places
a gang in the lowest cluster and at the lowest origin where it fits, and loads it. A load gives each core its cell by rank, the store that the sections make with the launch record, and its strands at the
entry point; a launch that is not CORESIDENT has its detector instance sampled from its first placement on. A launch whose gangs have ended is gone, and its packet completes, or stops the queue where firmware ended it. -/
def Parts.Launches : Prop :=
  ∀ (s : State),
    (∀ q p u d gs, s.event = some (.launch q p) → s.mayIssue q p →
        let cb := (s.queueAt q).cb
        s.taken.readDesc (cbPart cb) (pk8 p 8) = (u, .ok (d, gs)) → u.queues = s.queues → u.blockCache.contains q = true → u.bells = [] →
        let ok := descOk d gs && inRange cb (pk8 p 8) (256 + 8 * gs.length) false && inRange cb (ldImage d) 64 false
        (ok = true → ∃ t, exec .launch s = .next t ∧ issuesPacket s t q p 0 ∧ t.nextLaunch = u.nextLaunch + 1 ∧ .dispatchDecision ∈ t.agenda ∧ t.memory = u.memory
            ∧ t.launches = u.launches ++ [(u.nextLaunch, Launch.new q (cbRdidx cb) (cbPart cb) d gs (pkCores p) none 0)])
          ∧ (ok = false → (u.evchan (cbPart cb) (cbEvch cb)).configured = false →
              ∃ t, exec .launch s = .next t ∧ cbState (t.queueAt q).cb = 2 ∧ blkBits (t.queueAt q).cb 88 8 = 4 ∧ cbRdidx (t.queueAt q).cb = cbRdidx cb
                ∧ t.launches = u.launches ∧ t.memory = u.memory))
      ∧ (∀ l la g ga, s.event = some .dispatchDecision → s.pans = [] → s.launches = [(l, la)] → la.pan = none → la.ending = none → la.gangs = [(g, ga)] →
          ga.cluster = none → ga.loaded = false → ga.ended = false →
          (s.findPlace la.desc ga.shape = none → ∃ t, exec .dispatchDecision s = .next t ∧ t.launches = s.launches ∧ t.cores = s.cores)
            ∧ (∀ cl o, s.findPlace la.desc ga.shape = some (cl, o) →
                ((s.cluster cl).powered = false → ∃ t, exec .dispatchDecision s = .next t ∧ t.launches = s.launches ∧ .clusterWake cl ∈ t.agenda)
                  ∧ ((s.cluster cl).powered = true → ∃ t la' ga', exec .dispatchDecision s = .next t ∧ t.launches = [(l, la')] ∧ la'.gangs = [(g, ga')]
                      ∧ ga'.cluster = some cl ∧ ga'.origin = o ∧ ga'.cores = rectCores cl o (gangW ga.shape) (gangH ga.shape) ∧ .gangLoad l g ∈ t.agenda
                      ∧ ga'.channels = (s.cluster cl).freeChannels.take (ldBars la.desc) ∧ ga'.pools = (s.cluster cl).freePools.take (ldPools la.desc)
                      ∧ la'.desc = la.desc ∧ la'.detector.placedSince = true ∧ (la.coresident = false → .quiescenceSample false l ∈ t.agenda) ∧ t.cores = s.cores ∧ t.memory = s.memory)))
      ∧ (∀ l la g ga cl w h store, s.event = some (.gangLoad l g) → s.launches = [(l, la)] → la.gangs = [(g, ga)] → ga.cluster = some cl → ga.loaded = false → ga.ended = false →
          la.ending = none → la.pan = none →
          s.taken.loadImage l la = (w, .ok (h, store)) → ga.cores.Nodup → (∀ x, (w.cluster x).trace.en = false) → w.device = s.device →
          ∃ t, exec .gangLoad s = .next t
            ∧ ∀ c rank, (c, rank) ∈ ga.cores.zip (List.range ga.cores.length) →
                (t.core c).cell = some (s.cellOf l g la h ga c rank) ∧ (t.core c).store = store.write 8 (ldLrec la.desc) 64 (launchRecord la.desc ga.channels [])
                  ∧ ∀ i, (i < ldStrands la.desc → (t.slot c i).st = .ready ∧ (t.slot c i).pc = BitVec.ofNat 64 (imEntry h) ∧ (t.slot c i).base = BitVec.ofNat 2 (ldClass la.desc)
                        ∧ (t.slot c i).level = 0 ∧ (t.slot c i).gsi.toNat % 1024 = c % 1024 ∧ ∀ r, (t.slot c i).readX r = 0)
                      ∧ (ldStrands la.desc ≤ i → (t.slot c i).occupied = false))
      ∧ (∀ l la x, s.event = some (.launchCompletion l) → s.launches = [(l, la)] → la.over = true → la.pan = none → (s.queueAt la.queue).issued = [x] → x.index = la.index →
          pkEvent x.packet = false → (s.evchan (cbPart (s.queueAt la.queue).cb) (cbEvch (s.queueAt la.queue).cb)).configured = false → s.bells = [] → s.blockCache.contains la.queue = true →
          (la.ending = none → pk8 x.packet 16 = 0 → ∃ t, exec .launchCompletion s = .next t ∧ t.launches = [] ∧ (t.queueAt la.queue).issued = []
              ∧ cbDone (t.queueAt la.queue).cb = (cbDone (s.queueAt la.queue).cb + 1) % 2 ^ 64 ∧ t.memory = s.memory)
            ∧ ∀ detail a b, la.ending = some (detail, a, b) → detail < 256 → ∃ t, exec .launchCompletion s = .next t ∧ t.launches = [] ∧ (t.queueAt la.queue).issued = []
                ∧ cbState (t.queueAt la.queue).cb = 2 ∧ blkBits (t.queueAt la.queue).cb 88 8 = detail ∧ cbDone (t.queueAt la.queue).cb = cbDone (s.queueAt la.queue).cb)
      ∧ ∀ l la detail a b, s.event = some (.launchEnd l detail a b) → s.launches = [(l, la)] → la.ending = none → la.pan = none → (∀ e ∈ la.gangs, e.2.loaded = false ∧ e.2.saved = []) →
          s.coresOf l = [] → ∃ t la', exec .launchEnd s = .next t ∧ t.launches = [(l, la')] ∧ la'.ending = some (detail, a, b) ∧ la'.over = true
            ∧ .launchCompletion l ∈ t.agenda ∧ .dispatchDecision ∈ t.agenda ∧ t.cores = s.cores ∧ t.memory = s.memory

/-- The admission of a panorama (16 R414, R415). PANLAUNCH issues a panorama that waits for a decision. A device that is asked and cannot reserve its members answers that it is not ready, reserves nothing, and
keeps the coordinator as one to tell of what returns here; a device whose answer is the last lets the coordinator commit, an answer of not ready aborts at every device, and an answer to an attempt
that is over says nothing. The decision that an abort asks for is notes/assumptions/98.md. A commit gives the panorama its PANID and channels, and loads its members. -/
def Parts.Panoramas : Prop :=
  ∀ (s : State),
    (∀ q p u w h v, s.event = some (.panlaunch q p) → s.mayIssue q p →
        let cb := (s.queueAt q).cb
        let n := bitsOf h 0 16
        s.taken.fwRead (cbPart cb) (pk8 p 8) 64 = (u, .ok h) → u.fwRead (cbPart cb) (pk8 p 8 + 64) (16 * n) = (w, .ok v) → w.queues = s.queues → w.blockCache.contains q = true →
        panDescOk (h + v * 2 ^ 512) s.device.toNat = true → inRange cb (pk8 p 8) (64 + 16 * n) false = true →
        ∃ t k z, exec .panlaunch s = .next t ∧ issuesPacket s t q p 0 ∧ t.pans = w.pans ++ [(k, z)] ∧ z.committed = false ∧ z.preparing = false ∧ z.queue = q ∧ z.members.length = n
          ∧ t.launches = w.launches ∧ t.memory = w.memory)
      ∧ (∀ a, s.event = some (.panAdmissionPrepare (.ask a)) →
          (∃ m ∈ a.members, m.1 = s.device.toNat) → (∀ x, (s.part x).bind = []) →
          ∃ t, exec .panAdmissionPrepare s = .next t ∧ t.outbox = s.outbox ++ [.prepared a.srcDev a.key a.attempt false [] s.busyDomain] ∧ t.launches = s.launches ∧ t.pans = s.pans
            ∧ (a.key, a.srcDev) ∈ t.panWaits)
      ∧ (∀ key q d n ready places busy, s.event = some (.panAdmissionPrepare (.answer key d n ready places busy)) → s.panAt key = some q → q.preparing = true →
          (ready = true → q.attempt = n → s.farDevices q = [d] →
              ∃ t, exec .panAdmissionPrepare s = .next t ∧ .panAdmissionCommit key n true 0 [] [] ∈ t.agenda ∧ t.launches = s.launches)
            ∧ (q.attempt ≠ n → exec .panAdmissionPrepare s = .next s.taken))
      ∧ (∀ key q d n, s.event = some (.panAdmissionPrepare (.answer key d n false [] [])) → s.panAt key = some q → q.preparing = true → q.attempt = n → s.pans = [(key, q)] →
          ∃ t, exec .panAdmissionPrepare s = .next t ∧ t.pans = [(key, { q with preparing := false })] ∧ (∀ x ∈ s.farDevices q, .commit x key n false 0 [] [] ∈ t.outbox)
            ∧ ((∃ e ∈ t.launches, e.2.pan = none ∧ e.2.ending = none ∧ e.2.toPlace ≠ []) → .dispatchDecision ∈ t.agenda) ∧ ∀ e ∈ t.launches, e.2.pan ≠ some key)
      ∧ ∀ key q n panid chs places, s.event = some (.panAdmissionCommit key n true panid chs places) → s.pans = [(key, q)] → q.committed = false → q.preparing = true → q.attempt = n →
          (q.queue = noQueue → ∃ t z, exec .panAdmissionCommit s = .next t ∧ t.pans = [(panid, z)] ∧ z.committed = true ∧ z.panid = panid ∧ z.channels = chs
              ∧ (∀ n ∈ chs, (t.domain.get Channel.free n).owner = some (panid, 0))
              ∧ ∀ e ∈ s.launches, e.2.pan = some key → (e.1, { e.2 with pan := some panid }) ∈ t.launches ∧ .gangLoad e.1 0 ∈ t.agenda)
            ∧ (q.queue ≠ noQueue → ∀ id own, s.nextPanid = some id → s.pickDomain q.busy q.domch = some own →
                ∃ t z, exec .panAdmissionCommit s = .next t ∧ t.pans = [(id, z)] ∧ z.committed = true ∧ z.panid = id ∧ z.channels = own ∧ t.panCount = id % 128 + 1)

/-- Launches and panoramas (16 R405 to R415). -/
def Obligations.Dispatch : Prop := Parts.Launches ∧ Parts.Panoramas

/-- Event channels and the takeover of the command complex (16 R421, R422). A channel writes its pending records, numbered from SEQ on, into the free entries of its ring, and keeps what has no room. Records that are
not acknowledged are sent again, at most seven times, or have been acknowledged. A takeover at a packet boundary swaps the complexes and records it; before a boundary it waits. -/
def Parts.EventChannels : Prop :=
  ∀ (s : State),
    (∀ part ch u v, let h := s.evchan part ch
      s.taken.fwRead part (evCidx h.cfg) 4 = (u, .ok v) → u.parts = s.parts → u.host = s.host → s.host.qpError.contains (evQpn h.cfg) = false → h.lost = 0 →
      let free := 2 ^ evLog2n h.cfg - (h.written + 2 ^ 32 - v) % 2 ^ 32
      let flushes (e : Instr) : Prop := ∃ t, exec e s = .next t ∧ t.memory = u.memory ∧ (t.evchan part ch).pending = h.pending.drop free
        ∧ (t.evchan part ch).seq = h.seq + BitVec.ofNat 32 (h.pending.take free).length
        ∧ (t.evchan part ch).unacked = h.unacked ++ numbered h.seq (h.pending.take free)
      (s.event = some (.eventCoalesceTimeout part ch) → flushes .eventCoalesceTimeout) ∧ (s.event = some (.eventRingSpace part ch) → flushes .eventRingSpace))
      ∧ (∀ part ch, s.event = some (.eventRetransmit part ch) →
          let h := s.evchan part ch
          ∃ t, exec .eventRetransmit s = .next t ∧ t.memory = s.memory ∧ (t.evchan part ch).pending = h.pending
            ∧ (h.unacked = [] → t = { s with event := none })
            ∧ (h.unacked ≠ [] → ((t.evchan part ch).unacked = [] ∧ t.outbox = s.outbox) ∨ ((t.evchan part ch).unacked = h.unacked
                ∧ (if 7 ≤ h.retries then evQpn h.cfg ∈ t.host.qpError ∧ t.outbox = s.outbox else (t.evchan part ch).retries = h.retries + 1 ∧ .eventRetransmit part ch ∈ t.agenda))))
      ∧ (s.event = some .liveUpdateTakeover → s.mgmt.pendingActivation = [] →
          (s.atBoundary = true → ∃ t, exec .liveUpdateTakeover s = .next t ∧ t.mgmt = { s.mgmt with complex := 1 - s.mgmt.complex }
              ∧ .filmstripRecord 2 0x42 (1 - s.mgmt.complex) 0 ∈ t.agenda ∧ t.queues = s.queues ∧ t.launches = s.launches ∧ t.cores = s.cores ∧ t.memory = s.memory)
            ∧ (s.atBoundary = false → ∃ t, exec .liveUpdateTakeover s = .next t ∧ t.mgmt = s.mgmt ∧ .liveUpdateTakeover ∈ t.agenda ∧ t.queues = s.queues))

/-- The host link and the front end (17 R425, R427, R434, 18 R439 to R446). RDMA acts for the partition of its queue pair within a region of its key; one outside is not performed, and puts its queue pair into the error
state, where requests are dropped. The intake answers its own frames, a gated front end holds requests and serves them in order of arrival when it wakes, and a debug pair acts on the strands
of its partition, as a handler's sys.rd and sys.wr would (notes/assumptions/103.md). -/
def Parts.HostLink : Prop :=
  ∀ (s : State),
    (∀ qp rkey va data, s.event = some (.rdmaWrite qp rkey va data) →
        let part := s.host.qpPart.get 0 qp
        (s.host.qpError.contains qp = true → ∃ t, exec .rdmaWrite s = .next t ∧ t.host.dropped = s.host.dropped + 1 ∧ t.memory = s.memory ∧ t.outbox = s.outbox)
          ∧ (s.host.qpError.contains qp = false → s.host.qpPart.has qp = true → s.host.gated = true →
              ∃ t, exec .rdmaWrite s = .next t ∧ .rdmaWrite qp rkey va data ∈ t.agenda ∧ .frontEndWake ∈ t.agenda ∧ t.memory = s.memory)
          ∧ (s.host.qpError.contains qp = false → s.host.qpPart.has qp = true → s.host.gated = false → (∀ h ∈ s.host.held, h.qp ≠ qp) →
              (s.regionFor part rkey va data.length true = false → ∃ t, exec .rdmaWrite s = .next t ∧ t.memory = s.memory ∧ qp ∈ t.host.qpError ∧ t.outbox = s.outbox ++ [.nak qp 0])
                ∧ ∀ u, s.regionFor part rkey va data.length true = true → s.taken.fwWrite part va data.length (bytesNat data) true = (u, .ok ()) →
                    ∃ t, exec .rdmaWrite s = .next t ∧ t.memory = u.memory ∧ t.outbox = u.outbox ++ [.rdmaAck qp]))
      ∧ (∀ qp rkey va len, s.event = some (.rdmaRead qp rkey va len) → s.host.qpError.contains qp = false → s.host.qpPart.has qp = true → s.host.gated = false →
          (∀ h ∈ s.host.held, h.qp ≠ qp) →
          let part := s.host.qpPart.get 0 qp
          (s.regionFor part rkey va len false = false → ∃ t, exec .rdmaRead s = .next t ∧ t.memory = s.memory ∧ qp ∈ t.host.qpError ∧ t.outbox = s.outbox ++ [.nak qp 0])
            ∧ ∀ u v, s.regionFor part rkey va len false = true → s.taken.fwRead part va len = (u, .ok v) →
                ∃ t, exec .rdmaRead s = .next t ∧ t.memory = u.memory ∧ t.outbox = u.outbox ++ [.rdmaData qp (natBytes len v)])
      ∧ (let sends (e : Instr) (k : Nat) (f : List Byte) : Prop := ∃ t, exec e s = .next t ∧ t.outbox = (if s.host.link = 0 then s.outbox else s.outbox ++ [.ethernet k f]) ∧ t.host = s.host
         (∀ f, s.event = some (.arpRequest f) → sends .arpRequest 1 f) ∧ (∀ f, s.event = some (.neighborDiscovery f) → sends .neighborDiscovery 2 f)
           ∧ (s.event = some .lldpSend → sends .lldpSend 3 []))
      ∧ (s.event = some .frontEndGate → ∃ t, exec .frontEndGate s = .next t ∧ (s.host.held = [] → t.host = { s.host with gated := true }) ∧ (s.host.held ≠ [] → t.host = s.host))
      ∧ (s.event = some .frontEndWake → s.host.held = [] → ∃ t, exec .frontEndWake s = .next t ∧ t.host = { s.host with gated := false }
            ∧ t.outbox = s.outbox ∧ t.queues = s.queues)
      ∧ (∀ d rest, s.event = some .frontEndWake → s.host.held = .send d :: rest → s.host.qpError.contains d.qp = true →
            let bytes := s.host.intakeBytes - d.length
            let xon := s.host.paused && decide (bytes ≤ 0x100000)
            ∃ t, exec .frontEndWake s = .next t
              ∧ t.host = { s.host with gated := false, held := rest, intakeBytes := bytes, paused := s.host.paused && !xon, dropped := s.host.dropped + 1 }
              ∧ t.outbox = (if xon then s.outbox ++ [.pfc false] else s.outbox) ∧ (rest ≠ [] → .frontEndWake ∈ t.agenda) ∧ t.queues = s.queues)
      ∧ (∀ v, s.event = some (.hostLinkChange v) → v < 3 → v ≠ s.host.link → ∃ t, exec .hostLinkChange s = .next t ∧ t.host = { s.host with link := v }
            ∧ .platformEventMessage 57 ∈ t.agenda ∧ (v = 0 → .filmstripRecord 6 0x41 0 0 ∈ t.agenda))
      ∧ ∀ qp r, s.event = some (.debugRequest qp r) → s.host.qpError.contains qp = false → s.host.qpPart.has qp = true →
          let part := s.host.qpPart.get 0 qp
          let refused : Prop := ∃ t, exec .debugRequest s = .next t ∧ t.outbox = s.outbox ++ [.debugReply qp 0] ∧ t.cores = s.cores ∧ t.memory = s.memory
          (s.host.gated = true ∨ s.host.held ≠ [] → ∃ t, exec .debugRequest s = .next t ∧ t.host.held = s.host.held ++ [.debug qp r] ∧ .frontEndWake ∈ t.agenda
              ∧ t.cores = s.cores ∧ t.memory = s.memory)
            ∧ (s.host.gated = false → s.host.held = [] →
                (s.host.qpDebug.contains qp = false → ∃ t, exec .debugRequest s = .next t ∧ t.outbox = s.outbox ++ [.nak qp 1] ∧ t.cores = s.cores ∧ t.memory = s.memory)
                  ∧ (s.host.qpDebug.contains qp = true →
                      (r = .attach → ∃ t, exec .debugRequest s = .next t ∧ (t.part part).attached = true ∧ t.outbox = s.outbox ++ [.debugReply qp 1] ∧ t.cores = s.cores)
                        ∧ (∀ c i, r = .stop c i ∨ r = .resume c i → s.mayDebug part c i = false → refused)
                        ∧ (∀ c o, r = .read c o → s.debugItem part c o false = false → refused)
                        ∧ (∀ c o v, r = .write c o v → s.debugItem part c o true = false → refused)
                        ∧ (∀ c o, r = .read c o → s.debugItem part c o false = true → ∃ t, exec .debugRequest s = .next t
                            ∧ t.outbox = s.outbox ++ [.debugReply qp (s.sysRead c o)] ∧ (∀ d i, t.slot d i = s.slot d i) ∧ t.memory = s.memory)))

/-- Event channels and the host link (16 R421, R422, 18 R439 to R446). -/
def Obligations.HostEvents : Prop := Parts.EventChannels ∧ Parts.HostLink

/-- Management (17 R434, R438, 18 R441, R445 to R451). A reading answers with the value, or says that the sensor is unavailable or unknown; an image is accepted only where both signatures verify and its version is not
below the minimum, and an activation runs it unit by unit (notes/assumptions/37.md); a minimum is never lowered; a trace that is on keeps its buffer off the pages
(notes/assumptions/104.md); an assignment gives a partition its queue,
whose block lies in the table (notes/assumptions/92.md); each SPDM request has its response. The
forms of the answers are notes/assumptions/76.md. -/
def Parts.Management : Prop :=
  ∀ (s : State),
    (∀ n, s.event = some (.getSensorReading n) →
        (n = 0 ∨ 65 < n → ∃ t, exec .getSensorReading s = .next t ∧ t.outbox = s.outbox ++ [.plain 2 n [2]])
          ∧ (1 ≤ n → n ≤ 65 → ∃ t, exec .getSensorReading s = .next t ∧ t.mgmt = s.mgmt ∧ t.memory = s.memory
              ∧ ((∃ v, t.outbox = s.outbox ++ [.plain 2 n [0, v]] ∧ (n = 2 → v = s.mgmt.cap) ∧ (n = 20 → v = s.mgmt.service) ∧ (n = 57 → v = (if s.host.link = 1 && s.host.paused then 2 else s.host.link))
                    ∧ (3 ≤ n → n ≤ 18 → s.mgmt.temps.has (n - 3) = true → v = min 150 (s.mgmt.temps.get 0 (n - 3)))
                    ∧ (33 ≤ n → n ≤ 44 → v = (s.stack (n - 33)).ce)) ∨ (stateSensor n = false ∧ t.outbox = s.outbox ++ [.plain 2 n [1]]))))
      ∧ (∀ n, s.event = some (.platformEventMessage n) → stateSensor n = true → ∃ t, exec .platformEventMessage s = .next t
          ∧ ((t.mgmt.sensorDrops = s.mgmt.sensorDrops + 1 ∧ t.outbox = s.outbox) ∨ (t.mgmt = s.mgmt ∧ t.outbox = s.outbox ++ [.sensorEvent n (s.sensorValue n).1])))
      ∧ (∀ r, s.event = some (.pldmDiscovery (.types r)) → ∃ t, exec .pldmDiscovery s = .next t ∧ t.outbox = s.outbox ++ [.plain 0 r [0, 2, 5]])
      ∧ (∀ n, s.event = some (.pldmDiscovery (.sensorRecord n)) → 1 ≤ n → n ≤ 65 → ∃ t x, exec .pldmDiscovery s = .next t ∧ t.outbox = s.outbox ++ [.plain 3 n x]
          ∧ x.headD 2 = (if stateSensor n then 1 else 0) ∧ (n = 2 → x.drop 2 = [600, 2000, 100]))
      ∧ (∀ r, s.film = [r] → s.event = some (.pldmDiscovery (.fileRecord ((r.seq + 4095) % 4096))) →
          ∃ t, exec .pldmDiscovery s = .next t ∧ t.outbox = s.outbox ++ [.plain 4 ((r.seq + 4095) % 4096) [r.bits]])
      ∧ (∀ k bank version hash rsa slh, s.event = some (.applyComplete k bank version hash rsa slh) → 1 ≤ k → k ≤ 5 → (∀ e ∈ s.mgmt.switched, e.1 ≠ k) →
          let good := bank = 1 - s.mgmt.bank k ∧ rsa = true ∧ slh = true ∧ s.mgmt.minimums.get 0 k ≤ version
          (good → ∃ t, exec .applyComplete s = .next t ∧ k ∈ t.mgmt.staged ∧ t.mgmt.image k bank = (version, hash) ∧ t.mgmt.active k = s.mgmt.active k ∧ t.mgmt.banks = s.mgmt.banks)
            ∧ (¬good → ∃ t, exec .applyComplete s = .next t ∧ t.mgmt = s.mgmt ∧ .filmstripRecord 4 0x43 0 (BitVec.ofNat 64 k) ∈ t.agenda))
      ∧ (∀ k, s.event = some (.firmwareActivation k) →
          (k ∉ s.mgmt.staged → exec .firmwareActivation s = .next { s with event := none })
            ∧ (k = 1 → 1 ∈ s.mgmt.staged → ∃ t, exec .firmwareActivation s = .next t ∧ 1 ∈ t.mgmt.pendingActivation ∧ t.mgmt.banks = s.mgmt.banks)
            ∧ (k = 3 → 3 ∈ s.mgmt.staged → s.mgmt.switched = [] → (∀ c i, .mailboxRecordWrite c i ∉ s.agenda) → ∃ t, exec .firmwareActivation s = .next t
                ∧ (t.mgmt = s.mgmt ∨ t.mgmt.switched = [(3, 0)] ∧ 3 ∈ t.mgmt.pendingActivation ∧ .firmwareActivation 3 ∈ t.agenda ∧ t.mgmt.banks = s.mgmt.banks))
            ∧ (k = 5 → 5 ∈ s.mgmt.staged → s.mgmt.switched = [] → ∃ t, exec .firmwareActivation s = .next t
                ∧ (t.mgmt = s.mgmt ∨ t.mgmt.bank 5 = 1 - s.mgmt.bank 5 ∧ 5 ∉ t.mgmt.staged ∧ t.host.gated = true ∧ .frontEndWake ∈ t.agenda)))
      ∧ (∀ k version, s.event = some (.securityMinimumRaise k version) → 1 ≤ k → k ≤ 5 →
          ∃ t, exec .securityMinimumRaise s = .next t ∧ s.mgmt.minimums.get 0 k ≤ t.mgmt.minimums.get 0 k ∧ t.mgmt.images = s.mgmt.images
            ∧ (version = (s.mgmt.active k).1 → s.mgmt.minimums.get 0 k ≤ version → t.mgmt.minimums.get 0 k = version))
      ∧ (∀ cl w, s.event = some (.traceControlWrite cl w) →
          (s.traceFits ((s.cluster cl).trace.put w) = true → ∃ t, exec .traceControlWrite s = .next t ∧ (t.cluster cl).trace = (s.cluster cl).trace.put w
              ∧ (∀ d, d ≠ cl → t.cluster d = s.cluster d) ∧ t.memory = s.memory)
            ∧ (s.traceFits ((s.cluster cl).trace.put w) = false → exec .traceControlWrite s = .next s.taken))
      ∧ (let answers (e : Instr) (code : Nat) (args : List Nat) : Prop := ∃ t v, exec e s = .next t ∧ t.outbox = s.outbox ++ [.plain 6 code (args ++ [v])] ∧ t.mgmt = s.mgmt
         (s.event = some .getVersion → answers .getVersion 1 [1, 3]) ∧ (s.event = some .getCapabilities → answers .getCapabilities 2 [0])
           ∧ (s.event = some .negotiateAlgorithms → answers .negotiateAlgorithms 3 [384, 384]) ∧ (s.event = some .getDigests → answers .getDigests 4 [1])
           ∧ (∀ o l, s.event = some (.getCertificate 0 o l) → answers .getCertificate 5 [0, o, l])
           ∧ (∀ n, s.event = some (.challenge 0 n) → answers .challenge 6 [0, n.toNat])
           ∧ (∀ i n, s.event = some (.getMeasurements i n) → 1 ≤ i → i ≤ 8 → answers .getMeasurements 7 ([i, n.toNat] ++ s.mgmt.measured i)))
      ∧ ∀ q part blk, s.event = some (.partitionAssignment (.queue q part blk)) → part < 16 → cbOk blk = true →
          ∃ t, exec .partitionAssignment s = .next t ∧ (t.queueAt q).part = some part ∧ (t.queueAt q).cb = blkSet (blkSet blk 72 4 part) 448 64 0
            ∧ (s.blockCache.contains q = true → t.memory = s.memory)
            ∧ (s.blockCache.contains q = false → (t.queueAt q).cb ≠ (s.queueAt q).cb → t.memory = s.memory.write 32 (Config.queueTable + 64 * q) 64 (t.queueAt q).cb.toNat)

/-- Power, clocks and gating (18 R452, R453, R456). A window above the cap, or a die above 100 °C, caps the clock within 1.2 to 3.2 GHz (notes/assumptions/60.md); a die above 110 °C and a stack above 105 °C ask for their resets. An idle core or
cluster is gated and woken. Service, once declared, changes what clusters serve (notes/assumptions/61.md). -/
def Parts.PowerAndGating : Prop :=
  ∀ (s : State),
    (∀ w, s.event = some (.powerCapWindow w) → 1 ≤ s.mgmt.service → s.mgmt.service ≤ 2 →
        ∃ t, exec .powerCapWindow s = .next t ∧ (s.mgmt.cap < w ∨ s.mgmt.hot = true → t.mgmt.capped = true ∧ 1200 ≤ t.mgmt.clock ∧ t.mgmt.clock ≤ 3200)
          ∧ (w ≤ s.mgmt.cap → s.mgmt.hot = false → t.mgmt.capped = false ∧ t.mgmt.clock = 3300))
      ∧ (∀ w, s.event = some (.powerCapSet w) → ∃ t, exec .powerCapSet s = .next t ∧ t.mgmt.cap = (if 600 ≤ w ∧ w ≤ 2000 then w else s.mgmt.cap))
      ∧ (∀ d x, s.event = some (.dieTemperatureCap d x) → 1 ≤ s.mgmt.service → s.mgmt.service ≤ 2 →
          ∃ t, exec .dieTemperatureCap s = .next t ∧ t.mgmt.temps.get 0 d = x ∧ (100 < x → t.mgmt.capped = true ∧ 1200 ≤ t.mgmt.clock ∧ t.mgmt.clock ≤ 3200)
            ∧ (x ≤ 100 → t.mgmt.capped = s.mgmt.capped ∧ t.mgmt.clock = s.mgmt.clock))
      ∧ (∀ d x, s.event = some (.dieThermalTrip d x) → ∃ t, exec .dieThermalTrip s = .next t ∧ (110 < x → .dieWarmReset d ∈ t.agenda) ∧ (x ≤ 110 → t = { s with event := none, mgmt := { s.mgmt with temps := s.mgmt.temps.set d x } }))
      ∧ (∀ n x, s.event = some (.stackThermalTrip n x) → ∃ t, exec .stackThermalTrip s = .next t ∧ (105 < x → .packageWarmReset ∈ t.agenda) ∧ (x ≤ 105 → t = { s with event := none, mgmt := { s.mgmt with temps := s.mgmt.temps.set (4 + n) x } }))
      ∧ (∀ c, s.event = some (.coreClockGate c) → ∃ t, exec .coreClockGate s = .next t ∧ t.memory = s.memory
          ∧ ((s.core c).gateable = true → 1024 ≤ (s.core c).idleFor → t.core c = { s.core c with gated := true })
          ∧ ((s.core c).idleFor < 1024 → t = { s with event := none }))
      ∧ (∀ c, s.event = some (.coreWake c) → ∃ t, exec .coreWake s = .next t ∧ t.core c = { s.core c with gated := false, idleFor := 0 } ∧ ∀ d, d ≠ c → t.core d = s.core d)
      ∧ (∀ cl, s.event = some (.clusterPowerGate cl) → ∃ t, exec .clusterPowerGate s = .next t ∧ (s.clusterIdle cl = true → t.cluster cl = { s.cluster cl with powered := false })
          ∧ (s.clusterIdle cl = false → t = { s with event := none }))
      ∧ (∀ cl, s.event = some (.clusterWake cl) → (s.cluster cl).inService = true → ∃ t, exec .clusterWake s = .next t ∧ t.cluster cl = { s.cluster cl with powered := true }
          ∧ .dispatchDecision ∈ t.agenda)
      ∧ (s.event = some .fullService → s.mgmt.service = 0 → ∃ t, exec .fullService s = .next t ∧ t.mgmt.service = 1 ∧ (∀ cl, cl < 8 → (t.cluster cl).inService = true)
          ∧ .dispatchDecision ∈ t.agenda ∧ t.cores = s.cores ∧ t.memory = s.memory)
      ∧ (s.event = some .degradedService → s.mgmt.service = 0 → ∃ t, exec .degradedService s = .next t ∧ t.mgmt.service = 2 ∧ (∃ cl, cl < 8 ∧ (t.cluster cl).inService = false)
          ∧ .dispatchDecision ∈ t.agenda ∧ t.cores = s.cores ∧ t.memory = s.memory)

/-- Management, power and gating (18 R445 to R453, R456). -/
def Obligations.ManagementEvents : Prop := Parts.Management ∧ Parts.PowerAndGating

/-- Resets of a cell, an engine, a gang, a cluster and a die, and the records of them (16 R410, 17 R437, R438, 18 R454). A reset that a pending one covers is absorbed (notes/assumptions/40.md); else it is recorded (65.md) and takes effect: the strands of the
cell end, commands of the engine complete with FAULT 0x0A, the gang's cells end, the cluster's launches end as by firmware and its manager starts
anew (68.md), and an active complex on the die hands over. A contact-sheet frame stores its header, and counts. -/
def Parts.SmallResets : Prop :=
  ∀ (s : State),
    let free := ∀ e ∈ s.agenda, resetLevel e = 0
    let film (t : State) (source unit level : Nat) : Prop := ∃ n time, ⟨n, time, source, 0x40, unit, BitVec.ofNat 64 level⟩ ∈ t.film
    let oneStrand (c i : Nat) : Prop := ∃ sl, (s.core c).slots = [(i, sl)] ∧ sl.st = .ready ∧ sl.held = none ∧ sl.park = none ∧ sl.trap = none
    let emptyCl (cl : Nat) : Prop := s.launchesOn cl = [] ∧ ∀ e ∈ s.cores, clusterOf e.1 ≠ cl
    let cold (cl : Nat) : Cluster := { Cluster.cold false with
      couriers := (s.cluster cl).couriers, powered := (s.cluster cl).powered, inService := (s.cluster cl).inService, selfTested := (s.cluster cl).selfTested }
    let resident (cl l : Nat) (la : Launch) (c i : Nat) (cell : Cell) : Prop := s.launches = [(l, la)] ∧ la.pan = none ∧ la.ending = none ∧ (∃ g ∈ la.gangs, g.2.cluster = some cl)
      ∧ (∀ g ∈ la.gangs, g.2.saved = []) ∧ (∀ e ∈ s.cores, e.1 = c) ∧ clusterOf c = cl ∧ (s.core c).cell = some cell ∧ cell.launch = l ∧ cell.ended = false
      ∧ panValid cell.paninfo = false ∧ oneStrand c i ∧ (s.core c).cpy.cmds = [] ∧ (s.core c).mx.cmds = [] ∧ (s.core c).vx.cmds = [] ∧ (s.core c).fab.cmds = []
      ∧ (s.die (dieOf c)).col.cmds = []
    let endsIt (e : Instr) (l c : Nat) : Prop := ∃ t la, exec e s = .next t ∧ t.launches = [(l, la)] ∧ la.ending = some (0, 0, 0) ∧ (la.over = true → .launchCompletion l ∈ t.agenda)
      ∧ (∀ j, (t.slot c j).occupied = false) ∧ ∀ k, (t.core c).cell = some k → k.ended = true
    (∀ c i cell, s.event = some (.cellReset c) → free → (s.core c).cell = some cell → cell.ended = false → oneStrand c i →
        ∃ t, exec .cellReset s = .next t ∧ film t 0 c 1 ∧ (∀ j, (t.slot c j).occupied = false) ∧ ∀ k, (t.core c).cell = some k → k.ended = true)
      ∧ (∀ c p, s.event = some (.cellReset c) → p ∈ s.agenda → s.covers p (.cellReset c) = true → exec .cellReset s = .next { s with event := none })
      ∧ (∀ c m, s.event = some (.engineReset c 2) → free → (s.core c).vx.cmds = [m] → (∀ d j, (s.slot d j).held = none) → (∀ k, (s.core c).cell = some k → k.ended = false) →
          portNoPost m.port = true → ∃ t, exec .engineReset s = .next t ∧ film t 0 c 2 ∧ (t.core c).vx.cmds = [] ∧ t.memory = s.memory
            ∧ (t.core c).store.read (m.loc + 60) 4 = (m.flags.toNat + 2 ^ 5 + 0x0A * 2 ^ 8 + min m.dropped 65535 * 2 ^ 16) % 2 ^ 32)
      ∧ (∀ l la g ga cl c i cell, s.event = some (.gangReset l g) → free → s.launches = [(l, la)] → la.pan = none → la.gangs = [(g, ga)] → ga.cluster = some cl → ga.saved = [] →
          s.gangCores l g = [c] → (s.core c).cell = some cell → cell.ended = false → panValid cell.paninfo = false → oneStrand c i →
          ∃ t, exec .gangReset s = .next t ∧ film t 1 cl 3 ∧ film t 0 c 1 ∧ (∀ j, (t.slot c j).occupied = false) ∧ ∀ k, (t.core c).cell = some k → k.ended = true)
      ∧ (∀ cl, s.event = some (.clusterReset cl) → free → emptyCl cl → ∃ t, exec .clusterReset s = .next t ∧ film t 1 cl 4 ∧ t.cluster cl = cold cl
          ∧ (∀ d, d ≠ cl → t.cluster d = s.cluster d) ∧ t.memory = s.memory ∧ t.launches = s.launches)
      ∧ (∀ cl l la c i cell, s.event = some (.clusterReset cl) → free → resident cl l la c i cell → endsIt .clusterReset l c)
      ∧ (∀ cl l la c i cell, s.event = some (.dieWarmReset (cl / 2)) → free → s.pans = [] → s.bells = [] → resident cl l la c i cell → endsIt .dieWarmReset l c)
      ∧ (∀ d, s.event = some (.dieWarmReset d) → free → emptyCl (2 * d) → emptyCl (2 * d + 1) → s.pans = [] → s.bells = [] → s.mgmt.pendingActivation = [] →
          ∃ t, exec .dieWarmReset s = .next t ∧ t.die d = Die.warm ∧ t.cluster (2 * d) = cold (2 * d) ∧ t.cluster (2 * d + 1) = cold (2 * d + 1) ∧ t.memory = s.memory
            ∧ t.mgmt.complex = (if s.complexDie = d then 1 - s.mgmt.complex else s.mgmt.complex) ∧ film t 2 t.mgmt.complex 5)
      ∧ (∀ source code unit data, s.event = some (.filmstripRecord source code unit data) → ∃ t, exec .filmstripRecord s = .next t ∧ s.filmTime ≤ t.filmTime
          ∧ t.film.getLast? = some ⟨s.filmSeq + 1, t.filmTime, source, code, unit, data⟩ ∧ t.film.length = min (s.film.length + 1) 4096 ∧ t.memory = s.memory)
      ∧ (∀ cl, s.event = some (.contactSheetFrame cl) → let k := s.cluster cl
          (k.sheetInterval = 0 → exec .contactSheetFrame s = .next { s with event := none })
            ∧ (k.sheetInterval ≠ 0 → ∃ t, exec .contactSheetFrame s = .next t ∧ t.memory.read k.sheetBase 4 = 0xC5
                ∧ t.memory.read (k.sheetBase + 4) 4 = min k.sheetFrame (2 ^ 32 - 1) ∧ (t.cluster cl).sheetFrame = k.sheetFrame + 1 ∧ .contactSheetFrame cl ∈ t.agenda
                ∧ t.cores = s.cores))

/-- The package warm reset and the cold reset (15 R384, 18 R454, R455). After the first no cell, launch or breakpoint is left, and device memory but the queue table, the roots of the page tables, the filmstrip and
the repair state are kept (notes/assumptions/41.md); its queues have stopped, in the table too (92.md). After the second memory reads as at reset (4.md), and only the images, the minimums, the spares and the retired frames are kept; the filmstrip holds the record of the reset. -/
def Parts.PackageResets : Prop :=
  ∀ (s : State), (∀ e ∈ s.agenda, resetLevel e = 0) →
    (s.event = some .packageWarmReset → ∃ t, exec .packageWarmReset s = .next t 
        ∧ (∀ a, (∀ q, s.queues.has q = true → a < Config.queueTable + 64 * q ∨ Config.queueTable + 64 * q + 64 ≤ a) → t.memory.read a 1 = s.memory.read a 1) ∧ (∀ c, (t.core c).cell = none) ∧ t.launches = [] ∧ t.pans = []
        ∧ t.breaks = [] ∧ t.watches = [] ∧ t.current = none ∧ (∀ p, (t.part p).root = (s.part p).root) ∧ (∀ q, s.queues.has q = true → cbState (t.queueAt q).cb = 2)
        ∧ (∀ n, (t.stack n).rows = (s.stack n).rows ∧ (t.stack n).banks = (s.stack n).banks ∧ (t.stack n).lanes = (s.stack n).lanes)
        ∧ t.film.getLast? = some ⟨s.filmSeq + 1, t.filmTime, 4, 0x40, 0, 6⟩ ∧ (∀ e ∈ t.agenda, fromOutside e = true ∨ ∃ n f,
          e = .platformEventMessage n ∨ e = .repairAttemptComplete n ∨ e = .repairAttemptTimeout n ∨ e = .pageRetirement n f))
      ∧ (s.event = some .coldReset → ∃ t, exec .coldReset s = .next t ∧ t.memory = State.reset.memory ∧ t.cores = [] ∧ t.launches = [] ∧ t.queues = [] ∧ t.retired = s.retired
          ∧ t.mgmt.images = s.mgmt.images ∧ t.mgmt.minimums = s.mgmt.minimums ∧ (∀ k, 3 ≤ k → (k ∈ t.mgmt.staged ↔ k ∈ s.mgmt.staged)) ∧ t.mgmt.clock = 1200
          ∧ (∀ n, (t.stack n).rows = (s.stack n).rows ∧ (t.stack n).banks = (s.stack n).banks ∧ (t.stack n).lanes = (s.stack n).lanes)
          ∧ (∃ time, t.film = [⟨1, time, 4, 0x40, 0, 7⟩])
          ∧ (t.mgmt.service = 0 ∧ (.fullService ∈ t.agenda ∨ .degradedService ∈ t.agenda) ∨ t.mgmt.service = 3))

/-- The reset hierarchy (17 R437, R438, 18 R454, R455). -/
def Obligations.Resets : Prop := Parts.SmallResets ∧ Parts.PackageResets

/-- Every step keeps the canonical form of device memory and of the store and B plane of every core: addresses strictly rising, no zero byte listed (the model's form of a memory, notes/assumptions/4.md). -/
def Obligations.MemoriesStayCanonical : Prop := ∀ (s t : State), memoriesWf s → step s = .next t → memoriesWf t

/-- The memories of the reset state have the canonical form (the model's form of a memory, notes/assumptions/4.md). -/
def Obligations.ResetMemoriesCanonical : Prop := memoriesWf State.reset
end

