-- ==== Sys2Proof/Laws/PerInstr.lean ====
section
/-! SUPPORT. One lemma for each instruction: the table of destinations reads back the instruction of a lone word. -/

namespace Sys2Proof.Laws.Encoding

/-- The destination of a well-formed lone word names that instruction again (02 R43, R45, 03 R64); nothing is said of the other instructions. -/
def Statement (i : Instr) : Prop := ∀ d m, i.loneParts = some (d, m) → i.wf = true → loneForm d m = some i

theorem movePair (a b : Move) : Statement (.movePair a b) := by
  rintro d m h -; cases h

theorem moveLong (guard : BitVec 4) (dst : BitVec 14) (imm : BitVec 44) : Statement (.moveLong guard dst imm) := by
  rintro d m h -; cases h

theorem moveLiteralPair (guard : BitVec 4) (dst : BitVec 14) (literal : Word) : Statement (.moveLiteralPair guard dst literal) := by
  rintro d m h -; cases h

theorem segklWrite (k : BitVec 3) (m : Lone) : Statement (.segklWrite k m) := by
  rintro d m' h -
  cases h
  have hk := k.isLt
  have h1 : (0x820 + 2 * k.toNat) / 64 = 32 := by omega
  have h2 : 0x820 + 2 * k.toNat - 0x800 = 0x20 + 2 * k.toNat := by omega
  have h3 : (0x20 + 2 * k.toNat - 0x20) / 2 = k.toNat := by omega
  have h4 : BitVec.ofNat 3 k.toNat = k := by simp
  have h5 : specialAssigned (0x20 + 2 * k.toNat) = true := by simp [specialAssigned]; omega
  simp only [loneForm, triggerOp, h1, triggerBlock, List.getElem?_nil, Option.map_none, specialOp, h2, h3, h4, h5]
  rw [if_neg (by omega), if_neg (by simp), if_neg (by omega), if_neg (by omega), if_pos (by omega)]

theorem segkhWrite (k : BitVec 3) (m : Lone) : Statement (.segkhWrite k m) := by
  rintro d m' h -
  cases h
  have hk := k.isLt
  have h1 : (0x821 + 2 * k.toNat) / 64 = 32 := by omega
  have h2 : 0x821 + 2 * k.toNat - 0x800 = 0x21 + 2 * k.toNat := by omega
  have h3 : (0x21 + 2 * k.toNat - 0x20) / 2 = k.toNat := by omega
  have h4 : BitVec.ofNat 3 k.toNat = k := by simp
  have h5 : specialAssigned (0x21 + 2 * k.toNat) = true := by simp [specialAssigned]; omega
  simp only [loneForm, triggerOp, h1, triggerBlock, List.getElem?_nil, Option.map_none, specialOp, h2, h3, h4, h5]
  rw [if_neg (by omega), if_neg (by simp), if_neg (by omega), if_neg (by omega), if_neg (by omega)]

theorem fmodeWrite (m : Lone) : Statement (.fmodeWrite m) := by
  rintro d m h -; cases h; rfl

theorem specialRegisterWrite (n : BitVec 6) (m : Lone) : Statement (.specialRegisterWrite n m) := by
  rintro d m' h hw
  cases h
  simp only [Instr.wf, Bool.and_eq_true, decide_eq_true_eq, Bool.not_eq_true', decide_eq_false_iff_not] at hw
  obtain ⟨⟨⟨-, h20⟩, h11⟩, hs⟩ := hw
  have h1 : (0x800 + n.toNat) / 64 = 32 := by omega
  have h2 : 0x800 + n.toNat - 0x800 = n.toNat := by omega
  have h4 : BitVec.ofNat 6 n.toNat = n := by simp
  simp only [loneForm, triggerOp, h1, triggerBlock, List.getElem?_nil, Option.map_none, specialOp, h2, hs, h4]
  rw [if_neg (by omega), if_neg (by simp), if_neg h11, if_pos h20]

theorem aluAdd (m : Lone) : Statement (.aluAdd m) := by
  rintro d m h -; cases h; rfl

theorem aluSub (m : Lone) : Statement (.aluSub m) := by
  rintro d m h -; cases h; rfl

theorem aluRsub (m : Lone) : Statement (.aluRsub m) := by
  rintro d m h -; cases h; rfl

theorem aluAnd (m : Lone) : Statement (.aluAnd m) := by
  rintro d m h -; cases h; rfl

theorem aluOr (m : Lone) : Statement (.aluOr m) := by
  rintro d m h -; cases h; rfl

theorem aluXor (m : Lone) : Statement (.aluXor m) := by
  rintro d m h -; cases h; rfl

theorem aluAndn (m : Lone) : Statement (.aluAndn m) := by
  rintro d m h -; cases h; rfl

theorem aluMin (m : Lone) : Statement (.aluMin m) := by
  rintro d m h -; cases h; rfl

theorem aluMax (m : Lone) : Statement (.aluMax m) := by
  rintro d m h -; cases h; rfl

theorem aluMinz (m : Lone) : Statement (.aluMinz m) := by
  rintro d m h -; cases h; rfl

theorem aluMaxz (m : Lone) : Statement (.aluMaxz m) := by
  rintro d m h -; cases h; rfl

theorem aluAddw (m : Lone) : Statement (.aluAddw m) := by
  rintro d m h -; cases h; rfl

theorem aluSubw (m : Lone) : Statement (.aluSubw m) := by
  rintro d m h -; cases h; rfl

theorem aluAdds (m : Lone) : Statement (.aluAdds m) := by
  rintro d m h -; cases h; rfl

theorem aluAddz (m : Lone) : Statement (.aluAddz m) := by
  rintro d m h -; cases h; rfl

theorem shSll (m : Lone) : Statement (.shSll m) := by
  rintro d m h -; cases h; rfl

theorem shSrl (m : Lone) : Statement (.shSrl m) := by
  rintro d m h -; cases h; rfl

theorem shSra (m : Lone) : Statement (.shSra m) := by
  rintro d m h -; cases h; rfl

theorem shRotl (m : Lone) : Statement (.shRotl m) := by
  rintro d m h -; cases h; rfl

theorem shRotr (m : Lone) : Statement (.shRotr m) := by
  rintro d m h -; cases h; rfl

theorem shExt (m : Lone) : Statement (.shExt m) := by
  rintro d m h -; cases h; rfl

theorem shExtz (m : Lone) : Statement (.shExtz m) := by
  rintro d m h -; cases h; rfl

theorem shIns (m : Lone) : Statement (.shIns m) := by
  rintro d m h -; cases h; rfl

theorem shClz (m : Lone) : Statement (.shClz m) := by
  rintro d m h -; cases h; rfl

theorem shCtz (m : Lone) : Statement (.shCtz m) := by
  rintro d m h -; cases h; rfl

theorem shPopc (m : Lone) : Statement (.shPopc m) := by
  rintro d m h -; cases h; rfl

theorem shBrev (m : Lone) : Statement (.shBrev m) := by
  rintro d m h -; cases h; rfl

theorem shBswap (m : Lone) : Statement (.shBswap m) := by
  rintro d m h -; cases h; rfl

theorem shSllw (m : Lone) : Statement (.shSllw m) := by
  rintro d m h -; cases h; rfl

theorem shSrlw (m : Lone) : Statement (.shSrlw m) := by
  rintro d m h -; cases h; rfl

theorem shSraw (m : Lone) : Statement (.shSraw m) := by
  rintro d m h -; cases h; rfl

theorem mulLo (m : Lone) : Statement (.mulLo m) := by
  rintro d m h -; cases h; rfl

theorem mulHi (m : Lone) : Statement (.mulHi m) := by
  rintro d m h -; cases h; rfl

theorem mulHiz (m : Lone) : Statement (.mulHiz m) := by
  rintro d m h -; cases h; rfl

theorem mulHisz (m : Lone) : Statement (.mulHisz m) := by
  rintro d m h -; cases h; rfl

theorem mulW (m : Lone) : Statement (.mulW m) := by
  rintro d m h -; cases h; rfl

theorem divDiv (m : Lone) : Statement (.divDiv m) := by
  rintro d m h -; cases h; rfl

theorem divDivz (m : Lone) : Statement (.divDivz m) := by
  rintro d m h -; cases h; rfl

theorem divRem (m : Lone) : Statement (.divRem m) := by
  rintro d m h -; cases h; rfl

theorem divRemz (m : Lone) : Statement (.divRemz m) := by
  rintro d m h -; cases h; rfl

theorem divDivw (m : Lone) : Statement (.divDivw m) := by
  rintro d m h -; cases h; rfl

theorem divRemw (m : Lone) : Statement (.divRemw m) := by
  rintro d m h -; cases h; rfl

theorem cmpEq (m : Lone) : Statement (.cmpEq m) := by
  rintro d m h -; cases h; rfl

theorem cmpNe (m : Lone) : Statement (.cmpNe m) := by
  rintro d m h -; cases h; rfl

theorem cmpLt (m : Lone) : Statement (.cmpLt m) := by
  rintro d m h -; cases h; rfl

theorem cmpLtz (m : Lone) : Statement (.cmpLtz m) := by
  rintro d m h -; cases h; rfl

theorem cmpLe (m : Lone) : Statement (.cmpLe m) := by
  rintro d m h -; cases h; rfl

theorem cmpLez (m : Lone) : Statement (.cmpLez m) := by
  rintro d m h -; cases h; rfl

theorem cmpBset (m : Lone) : Statement (.cmpBset m) := by
  rintro d m h -; cases h; rfl

theorem cmpBclr (m : Lone) : Statement (.cmpBclr m) := by
  rintro d m h -; cases h; rfl

theorem adrMk (m : Lone) : Statement (.adrMk m) := by
  rintro d m h -; cases h; rfl

theorem adrSeg (m : Lone) : Statement (.adrSeg m) := by
  rintro d m h -; cases h; rfl

theorem adrOff (m : Lone) : Statement (.adrOff m) := by
  rintro d m h -; cases h; rfl

theorem adrInseg (m : Lone) : Statement (.adrInseg m) := by
  rintro d m h -; cases h; rfl

theorem adrTocw (m : Lone) : Statement (.adrTocw m) := by
  rintro d m h -; cases h; rfl

theorem adrTopan (m : Lone) : Statement (.adrTopan m) := by
  rintro d m h -; cases h; rfl

theorem adrSpace (m : Lone) : Statement (.adrSpace m) := by
  rintro d m h -; cases h; rfl

theorem brJmp (m : Lone) : Statement (.brJmp m) := by
  rintro d m h -; cases h; rfl

theorem brJmprel (m : Lone) : Statement (.brJmprel m) := by
  rintro d m h -; cases h; rfl

theorem brCall (m : Lone) : Statement (.brCall m) := by
  rintro d m h -; cases h; rfl

theorem brCallrel (m : Lone) : Statement (.brCallrel m) := by
  rintro d m h -; cases h; rfl

theorem brLoop (m : Lone) : Statement (.brLoop m) := by
  rintro d m h -; cases h; rfl

theorem lsuLd8 (m : Lone) : Statement (.lsuLd8 m) := by
  rintro d m h -; cases h; rfl

theorem lsuLd8z (m : Lone) : Statement (.lsuLd8z m) := by
  rintro d m h -; cases h; rfl

theorem lsuLd16 (m : Lone) : Statement (.lsuLd16 m) := by
  rintro d m h -; cases h; rfl

theorem lsuLd16z (m : Lone) : Statement (.lsuLd16z m) := by
  rintro d m h -; cases h; rfl

theorem lsuLd32 (m : Lone) : Statement (.lsuLd32 m) := by
  rintro d m h -; cases h; rfl

theorem lsuLd32z (m : Lone) : Statement (.lsuLd32z m) := by
  rintro d m h -; cases h; rfl

theorem lsuLd64 (m : Lone) : Statement (.lsuLd64 m) := by
  rintro d m h -; cases h; rfl

theorem lsuLd128 (m : Lone) : Statement (.lsuLd128 m) := by
  rintro d m h -; cases h; rfl

theorem lsuSt8 (m : Lone) : Statement (.lsuSt8 m) := by
  rintro d m h -; cases h; rfl

theorem lsuSt16 (m : Lone) : Statement (.lsuSt16 m) := by
  rintro d m h -; cases h; rfl

theorem lsuSt32 (m : Lone) : Statement (.lsuSt32 m) := by
  rintro d m h -; cases h; rfl

theorem lsuSt64 (m : Lone) : Statement (.lsuSt64 m) := by
  rintro d m h -; cases h; rfl

theorem lsuSt128 (m : Lone) : Statement (.lsuSt128 m) := by
  rintro d m h -; cases h; rfl

theorem amoAdd (m : Lone) : Statement (.amoAdd m) := by
  rintro d m h -; cases h; rfl

theorem amoAnd (m : Lone) : Statement (.amoAnd m) := by
  rintro d m h -; cases h; rfl

theorem amoOr (m : Lone) : Statement (.amoOr m) := by
  rintro d m h -; cases h; rfl

theorem amoXor (m : Lone) : Statement (.amoXor m) := by
  rintro d m h -; cases h; rfl

theorem amoMin (m : Lone) : Statement (.amoMin m) := by
  rintro d m h -; cases h; rfl

theorem amoMax (m : Lone) : Statement (.amoMax m) := by
  rintro d m h -; cases h; rfl

theorem amoMinz (m : Lone) : Statement (.amoMinz m) := by
  rintro d m h -; cases h; rfl

theorem amoMaxz (m : Lone) : Statement (.amoMaxz m) := by
  rintro d m h -; cases h; rfl

theorem amoSwap (m : Lone) : Statement (.amoSwap m) := by
  rintro d m h -; cases h; rfl

theorem amoCas (m : Lone) : Statement (.amoCas m) := by
  rintro d m h -; cases h; rfl

theorem amoFadd (m : Lone) : Statement (.amoFadd m) := by
  rintro d m h -; cases h; rfl

theorem fltAdd (m : Lone) : Statement (.fltAdd m) := by
  rintro d m h -; cases h; rfl

theorem fltSub (m : Lone) : Statement (.fltSub m) := by
  rintro d m h -; cases h; rfl

theorem fltMul (m : Lone) : Statement (.fltMul m) := by
  rintro d m h -; cases h; rfl

theorem fltDiv (m : Lone) : Statement (.fltDiv m) := by
  rintro d m h -; cases h; rfl

theorem fltSqrt (m : Lone) : Statement (.fltSqrt m) := by
  rintro d m h -; cases h; rfl

theorem fltFma (m : Lone) : Statement (.fltFma m) := by
  rintro d m h -; cases h; rfl

theorem fltMin (m : Lone) : Statement (.fltMin m) := by
  rintro d m h -; cases h; rfl

theorem fltMax (m : Lone) : Statement (.fltMax m) := by
  rintro d m h -; cases h; rfl

theorem fltEq (m : Lone) : Statement (.fltEq m) := by
  rintro d m h -; cases h; rfl

theorem fltLt (m : Lone) : Statement (.fltLt m) := by
  rintro d m h -; cases h; rfl

theorem fltLe (m : Lone) : Statement (.fltLe m) := by
  rintro d m h -; cases h; rfl

theorem fltClass (m : Lone) : Statement (.fltClass m) := by
  rintro d m h -; cases h; rfl

theorem fltCvt (m : Lone) : Statement (.fltCvt m) := by
  rintro d m h -; cases h; rfl

theorem fltTdec (m : Lone) : Statement (.fltTdec m) := by
  rintro d m h -; cases h; rfl

theorem fltTenc (m : Lone) : Statement (.fltTenc m) := by
  rintro d m h -; cases h; rfl

theorem strandSpawn (m : Lone) : Statement (.strandSpawn m) := by
  rintro d m h -; cases h; rfl

theorem strandJoin (m : Lone) : Statement (.strandJoin m) := by
  rintro d m h -; cases h; rfl

theorem strandExit (m : Lone) : Statement (.strandExit m) := by
  rintro d m h -; cases h; rfl

theorem strandYield (m : Lone) : Statement (.strandYield m) := by
  rintro d m h -; cases h; rfl

theorem strandSleep (m : Lone) : Statement (.strandSleep m) := by
  rintro d m h -; cases h; rfl

theorem strandWake (m : Lone) : Statement (.strandWake m) := by
  rintro d m h -; cases h; rfl

theorem strandPrio (m : Lone) : Statement (.strandPrio m) := by
  rintro d m h -; cases h; rfl

theorem strandKill (m : Lone) : Statement (.strandKill m) := by
  rintro d m h -; cases h; rfl

theorem msgWait (m : Lone) : Statement (.msgWait m) := by
  rintro d m h -; cases h; rfl

theorem msgTake (m : Lone) : Statement (.msgTake m) := by
  rintro d m h -; cases h; rfl

theorem poolPut (m : Lone) : Statement (.poolPut m) := by
  rintro d m h -; cases h; rfl

theorem poolTake (m : Lone) : Statement (.poolTake m) := by
  rintro d m h -; cases h; rfl

theorem poolClose (m : Lone) : Statement (.poolClose m) := by
  rintro d m h -; cases h; rfl

theorem qArm (m : Lone) : Statement (.qArm m) := by
  rintro d m h -; cases h; rfl

theorem qWait (m : Lone) : Statement (.qWait m) := by
  rintro d m h -; cases h; rfl

theorem semPost (m : Lone) : Statement (.semPost m) := by
  rintro d m h -; cases h; rfl

theorem semAdd (m : Lone) : Statement (.semAdd m) := by
  rintro d m h -; cases h; rfl

theorem semWait (m : Lone) : Statement (.semWait m) := by
  rintro d m h -; cases h; rfl

theorem semTry (m : Lone) : Statement (.semTry m) := by
  rintro d m h -; cases h; rfl

theorem semArm (m : Lone) : Statement (.semArm m) := by
  rintro d m h -; cases h; rfl

theorem semRead (m : Lone) : Statement (.semRead m) := by
  rintro d m h -; cases h; rfl

theorem semReset (m : Lone) : Statement (.semReset m) := by
  rintro d m h -; cases h; rfl

theorem barArrive (m : Lone) : Statement (.barArrive m) := by
  rintro d m h -; cases h; rfl

theorem barWait (m : Lone) : Statement (.barWait m) := by
  rintro d m h -; cases h; rfl

theorem barSync (m : Lone) : Statement (.barSync m) := by
  rintro d m h -; cases h; rfl

theorem barMax (m : Lone) : Statement (.barMax m) := by
  rintro d m h -; cases h; rfl

theorem barMaxf (m : Lone) : Statement (.barMaxf m) := by
  rintro d m h -; cases h; rfl

theorem barSum (m : Lone) : Statement (.barSum m) := by
  rintro d m h -; cases h; rfl

theorem barAnd (m : Lone) : Statement (.barAnd m) := by
  rintro d m h -; cases h; rfl

theorem barOr (m : Lone) : Statement (.barOr m) := by
  rintro d m h -; cases h; rfl

theorem ordFence (m : Lone) : Statement (.ordFence m) := by
  rintro d m h -; cases h; rfl

theorem ordAcq (m : Lone) : Statement (.ordAcq m) := by
  rintro d m h -; cases h; rfl

theorem ordRel (m : Lone) : Statement (.ordRel m) := by
  rintro d m h -; cases h; rfl

theorem ordIcsync (m : Lone) : Statement (.ordIcsync m) := by
  rintro d m h -; cases h; rfl

theorem ordCinv (m : Lone) : Statement (.ordCinv m) := by
  rintro d m h -; cases h; rfl

theorem ordCwb (m : Lone) : Statement (.ordCwb m) := by
  rintro d m h -; cases h; rfl

theorem sysTrap (m : Lone) : Statement (.sysTrap m) := by
  rintro d m h -; cases h; rfl

theorem sysStop (m : Lone) : Statement (.sysStop m) := by
  rintro d m h -; cases h; rfl

theorem sysRd (m : Lone) : Statement (.sysRd m) := by
  rintro d m h -; cases h; rfl

theorem sysWr (m : Lone) : Statement (.sysWr m) := by
  rintro d m h -; cases h; rfl

theorem sysGo (m : Lone) : Statement (.sysGo m) := by
  rintro d m h -; cases h; rfl

theorem sysDrain (m : Lone) : Statement (.sysDrain m) := by
  rintro d m h -; cases h; rfl

theorem dbgBrk (m : Lone) : Statement (.dbgBrk m) := by
  rintro d m h -; cases h; rfl

theorem dbgMark (m : Lone) : Statement (.dbgMark m) := by
  rintro d m h -; cases h; rfl

theorem dbgStep (m : Lone) : Statement (.dbgStep m) := by
  rintro d m h -; cases h; rfl

theorem mntSpare (m : Lone) : Statement (.mntSpare m) := by
  rintro d m h -; cases h; rfl

theorem mntNotice (m : Lone) : Statement (.mntNotice m) := by
  rintro d m h -; cases h; rfl

theorem mntState (m : Lone) : Statement (.mntState m) := by
  rintro d m h -; cases h; rfl

theorem mntDiscard (m : Lone) : Statement (.mntDiscard m) := by
  rintro d m h -; cases h; rfl

theorem cpyCopy (m : Lone) : Statement (.cpyCopy m) := by
  rintro d m h -; cases h; rfl

theorem cpyFill (m : Lone) : Statement (.cpyFill m) := by
  rintro d m h -; cases h; rfl

theorem cpyGather (m : Lone) : Statement (.cpyGather m) := by
  rintro d m h -; cases h; rfl

theorem cpyScatter (m : Lone) : Statement (.cpyScatter m) := by
  rintro d m h -; cases h; rfl

theorem cpyPlane (m : Lone) : Statement (.cpyPlane m) := by
  rintro d m h -; cases h; rfl

theorem cpyMcast (m : Lone) : Statement (.cpyMcast m) := by
  rintro d m h -; cases h; rfl

theorem cpyMapinval (m : Lone) : Statement (.cpyMapinval m) := by
  rintro d m h -; cases h; rfl

theorem mxMma (m : Lone) : Statement (.mxMma m) := by
  rintro d m h -; cases h; rfl

theorem mxGmma (m : Lone) : Statement (.mxGmma m) := by
  rintro d m h -; cases h; rfl

theorem mxZero (m : Lone) : Statement (.mxZero m) := by
  rintro d m h -; cases h; rfl

theorem mxLoad (m : Lone) : Statement (.mxLoad m) := by
  rintro d m h -; cases h; rfl

theorem mxStore (m : Lone) : Statement (.mxStore m) := by
  rintro d m h -; cases h; rfl

theorem vxAdd (m : Lone) : Statement (.vxAdd m) := by
  rintro d m h -; cases h; rfl

theorem vxSub (m : Lone) : Statement (.vxSub m) := by
  rintro d m h -; cases h; rfl

theorem vxMul (m : Lone) : Statement (.vxMul m) := by
  rintro d m h -; cases h; rfl

theorem vxFma (m : Lone) : Statement (.vxFma m) := by
  rintro d m h -; cases h; rfl

theorem vxMin (m : Lone) : Statement (.vxMin m) := by
  rintro d m h -; cases h; rfl

theorem vxMax (m : Lone) : Statement (.vxMax m) := by
  rintro d m h -; cases h; rfl

theorem vxAbs (m : Lone) : Statement (.vxAbs m) := by
  rintro d m h -; cases h; rfl

theorem vxScale (m : Lone) : Statement (.vxScale m) := by
  rintro d m h -; cases h; rfl

theorem vxExp2 (m : Lone) : Statement (.vxExp2 m) := by
  rintro d m h -; cases h; rfl

theorem vxLog2 (m : Lone) : Statement (.vxLog2 m) := by
  rintro d m h -; cases h; rfl

theorem vxRcp (m : Lone) : Statement (.vxRcp m) := by
  rintro d m h -; cases h; rfl

theorem vxRsqrt (m : Lone) : Statement (.vxRsqrt m) := by
  rintro d m h -; cases h; rfl

theorem vxCmp (m : Lone) : Statement (.vxCmp m) := by
  rintro d m h -; cases h; rfl

theorem vxSel (m : Lone) : Statement (.vxSel m) := by
  rintro d m h -; cases h; rfl

theorem vxRowsum (m : Lone) : Statement (.vxRowsum m) := by
  rintro d m h -; cases h; rfl

theorem vxRowmax (m : Lone) : Statement (.vxRowmax m) := by
  rintro d m h -; cases h; rfl

theorem vxColsum (m : Lone) : Statement (.vxColsum m) := by
  rintro d m h -; cases h; rfl

theorem vxBlkmax (m : Lone) : Statement (.vxBlkmax m) := by
  rintro d m h -; cases h; rfl

theorem vxQuant (m : Lone) : Statement (.vxQuant m) := by
  rintro d m h -; cases h; rfl

theorem vxDequant (m : Lone) : Statement (.vxDequant m) := by
  rintro d m h -; cases h; rfl

theorem vxCvt (m : Lone) : Statement (.vxCvt m) := by
  rintro d m h -; cases h; rfl

theorem vxTblset (m : Lone) : Statement (.vxTblset m) := by
  rintro d m h -; cases h; rfl

theorem vxTblenc (m : Lone) : Statement (.vxTblenc m) := by
  rintro d m h -; cases h; rfl

theorem vxTbldec (m : Lone) : Statement (.vxTbldec m) := by
  rintro d m h -; cases h; rfl

theorem fabLd (m : Lone) : Statement (.fabLd m) := by
  rintro d m h -; cases h; rfl

theorem fabSt (m : Lone) : Statement (.fabSt m) := by
  rintro d m h -; cases h; rfl

theorem fabAmo (m : Lone) : Statement (.fabAmo m) := by
  rintro d m h -; cases h; rfl

theorem fabSend (m : Lone) : Statement (.fabSend m) := by
  rintro d m h -; cases h; rfl

theorem fabSpawn (m : Lone) : Statement (.fabSpawn m) := by
  rintro d m h -; cases h; rfl

theorem panAttach (m : Lone) : Statement (.panAttach m) := by
  rintro d m h -; cases h; rfl

theorem panDetach (m : Lone) : Statement (.panDetach m) := by
  rintro d m h -; cases h; rfl

theorem panExit (m : Lone) : Statement (.panExit m) := by
  rintro d m h -; cases h; rfl

theorem panState (m : Lone) : Statement (.panState m) := by
  rintro d m h -; cases h; rfl

theorem colRscat (m : Lone) : Statement (.colRscat m) := by
  rintro d m h -; cases h; rfl

theorem colAgath (m : Lone) : Statement (.colAgath m) := by
  rintro d m h -; cases h; rfl

theorem colAredc (m : Lone) : Statement (.colAredc m) := by
  rintro d m h -; cases h; rfl

theorem colBcast (m : Lone) : Statement (.colBcast m) := by
  rintro d m h -; cases h; rfl

theorem colWeights (m : Lone) : Statement (.colWeights m) := by
  rintro d m h -; cases h; rfl

theorem shutterSelect : Statement .shutterSelect := by
  rintro d m h -; cases h

theorem fetchArrival : Statement .fetchArrival := by
  rintro d m h -; cases h

theorem clusterIcacheReply : Statement .clusterIcacheReply := by
  rintro d m h -; cases h

theorem divResult : Statement .divResult := by
  rintro d m h -; cases h

theorem fltLongResult : Statement .fltLongResult := by
  rintro d m h -; cases h

theorem remoteAccessReply : Statement .remoteAccessReply := by
  rintro d m h -; cases h

theorem feRetryResend : Statement .feRetryResend := by
  rintro d m h -; cases h

theorem ticketHoldExpiry : Statement .ticketHoldExpiry := by
  rintro d m h -; cases h

theorem feWithdraw : Statement .feWithdraw := by
  rintro d m h -; cases h

theorem pageWake : Statement .pageWake := by
  rintro d m h -; cases h

theorem logMerge : Statement .logMerge := by
  rintro d m h -; cases h

theorem sleepTimeout : Statement .sleepTimeout := by
  rintro d m h -; cases h

theorem poolReply : Statement .poolReply := by
  rintro d m h -; cases h

theorem detectorReply : Statement .detectorReply := by
  rintro d m h -; cases h

theorem quiescenceSample : Statement .quiescenceSample := by
  rintro d m h -; cases h

theorem messageArrival : Statement .messageArrival := by
  rintro d m h -; cases h

theorem spawnIntakeArrival : Statement .spawnIntakeArrival := by
  rintro d m h -; cases h

theorem intakeDelivery : Statement .intakeDelivery := by
  rintro d m h -; cases h

theorem remotePostArrival : Statement .remotePostArrival := by
  rintro d m h -; cases h

theorem domainBarrierArrival : Statement .domainBarrierArrival := by
  rintro d m h -; cases h

theorem mntReply : Statement .mntReply := by
  rintro d m h -; cases h

theorem engineSlotGrant : Statement .engineSlotGrant := by
  rintro d m h -; cases h

theorem cpyActivate : Statement .cpyActivate := by
  rintro d m h -; cases h

theorem cpyPiece : Statement .cpyPiece := by
  rintro d m h -; cases h

theorem cpyCompletion : Statement .cpyCompletion := by
  rintro d m h -; cases h

theorem mxPartAccept : Statement .mxPartAccept := by
  rintro d m h -; cases h

theorem mxPassStart : Statement .mxPassStart := by
  rintro d m h -; cases h

theorem mxTransferStart : Statement .mxTransferStart := by
  rintro d m h -; cases h

theorem mxCompletion : Statement .mxCompletion := by
  rintro d m h -; cases h

theorem vxCommandStart : Statement .vxCommandStart := by
  rintro d m h -; cases h

theorem vxChunk : Statement .vxChunk := by
  rintro d m h -; cases h

theorem vxCompletion : Statement .vxCompletion := by
  rintro d m h -; cases h

theorem remoteRequest : Statement .remoteRequest := by
  rintro d m h -; cases h

theorem reserveRequest : Statement .reserveRequest := by
  rintro d m h -; cases h

theorem reserveResend : Statement .reserveResend := by
  rintro d m h -; cases h

theorem creditReturn : Statement .creditReturn := by
  rintro d m h -; cases h

theorem creditIdleRelease : Statement .creditIdleRelease := by
  rintro d m h -; cases h

theorem messageAcknowledge : Statement .messageAcknowledge := by
  rintro d m h -; cases h

theorem refusedArrivalRetry : Statement .refusedArrivalRetry := by
  rintro d m h -; cases h

theorem detachRemoval : Statement .detachRemoval := by
  rintro d m h -; cases h

theorem memberDeparture : Statement .memberDeparture := by
  rintro d m h -; cases h

theorem colMatch : Statement .colMatch := by
  rintro d m h -; cases h

theorem colBucket : Statement .colBucket := by
  rintro d m h -; cases h

theorem colAbort : Statement .colAbort := by
  rintro d m h -; cases h

theorem colCompletion : Statement .colCompletion := by
  rintro d m h -; cases h

theorem routerLinkSlot : Statement .routerLinkSlot := by
  rintro d m h -; cases h

theorem linkReplay : Statement .linkReplay := by
  rintro d m h -; cases h

theorem linkDown : Statement .linkDown := by
  rintro d m h -; cases h

theorem fabricUnreachable : Statement .fabricUnreachable := by
  rintro d m h -; cases h

theorem mailboxRecordWrite : Statement .mailboxRecordWrite := by
  rintro d m h -; cases h

theorem trapDisposal : Statement .trapDisposal := by
  rintro d m h -; cases h

theorem handlerStart : Statement .handlerStart := by
  rintro d m h -; cases h

theorem preemptRequest : Statement .preemptRequest := by
  rintro d m h -; cases h

theorem saveHandlerStart : Statement .saveHandlerStart := by
  rintro d m h -; cases h

theorem saveComplete : Statement .saveComplete := by
  rintro d m h -; cases h

theorem preemptLimitExpiry : Statement .preemptLimitExpiry := by
  rintro d m h -; cases h

theorem restorePlacement : Statement .restorePlacement := by
  rintro d m h -; cases h

theorem panoramaPreempt : Statement .panoramaPreempt := by
  rintro d m h -; cases h

theorem phaseTrackStep : Statement .phaseTrackStep := by
  rintro d m h -; cases h

theorem groupRetrain : Statement .groupRetrain := by
  rintro d m h -; cases h

theorem eccWriteback : Statement .eccWriteback := by
  rintro d m h -; cases h

theorem patrolRead : Statement .patrolRead := by
  rintro d m h -; cases h

theorem rowRepair : Statement .rowRepair := by
  rintro d m h -; cases h

theorem bankMigration : Statement .bankMigration := by
  rintro d m h -; cases h

theorem laneSteer : Statement .laneSteer := by
  rintro d m h -; cases h

theorem repairAttemptTimeout : Statement .repairAttemptTimeout := by
  rintro d m h -; cases h

theorem pageRetirement : Statement .pageRetirement := by
  rintro d m h -; cases h

theorem doorbell : Statement .doorbell := by
  rintro d m h -; cases h

theorem packetFetch : Statement .packetFetch := by
  rintro d m h -; cases h

theorem nop : Statement .nop := by
  rintro d m h -; cases h

theorem launch : Statement .launch := by
  rintro d m h -; cases h

theorem panlaunch : Statement .panlaunch := by
  rintro d m h -; cases h

theorem wait : Statement .wait := by
  rintro d m h -; cases h

theorem signalPoll : Statement .signalPoll := by
  rintro d m h -; cases h

theorem signal : Statement .signal := by
  rintro d m h -; cases h

theorem barrier : Statement .barrier := by
  rintro d m h -; cases h

theorem copy : Statement .copy := by
  rintro d m h -; cases h

theorem event : Statement .event := by
  rintro d m h -; cases h

theorem configQset : Statement .configQset := by
  rintro d m h -; cases h

theorem configQread : Statement .configQread := by
  rintro d m h -; cases h

theorem configQresume : Statement .configQresume := by
  rintro d m h -; cases h

theorem configLog : Statement .configLog := by
  rintro d m h -; cases h

theorem configBind : Statement .configBind := by
  rintro d m h -; cases h

theorem configEvch : Statement .configEvch := by
  rintro d m h -; cases h

theorem configLimits : Statement .configLimits := by
  rintro d m h -; cases h

theorem configTrace : Statement .configTrace := by
  rintro d m h -; cases h

theorem tableMap : Statement .tableMap := by
  rintro d m h -; cases h

theorem tableUnmap : Statement .tableUnmap := by
  rintro d m h -; cases h

theorem tableProtect : Statement .tableProtect := by
  rintro d m h -; cases h

theorem tableReserve : Statement .tableReserve := by
  rintro d m h -; cases h

theorem discard : Statement .discard := by
  rintro d m h -; cases h

theorem mark : Statement .mark := by
  rintro d m h -; cases h

theorem dispatchDecision : Statement .dispatchDecision := by
  rintro d m h -; cases h

theorem gangLoad : Statement .gangLoad := by
  rintro d m h -; cases h

theorem launchCompletion : Statement .launchCompletion := by
  rintro d m h -; cases h

theorem launchEnd : Statement .launchEnd := by
  rintro d m h -; cases h

theorem panAdmissionPrepare : Statement .panAdmissionPrepare := by
  rintro d m h -; cases h

theorem panAdmissionCommit : Statement .panAdmissionCommit := by
  rintro d m h -; cases h

theorem eventCoalesceTimeout : Statement .eventCoalesceTimeout := by
  rintro d m h -; cases h

theorem eventRingSpace : Statement .eventRingSpace := by
  rintro d m h -; cases h

theorem eventRetransmit : Statement .eventRetransmit := by
  rintro d m h -; cases h

theorem liveUpdateTakeover : Statement .liveUpdateTakeover := by
  rintro d m h -; cases h

theorem rdmaWrite : Statement .rdmaWrite := by
  rintro d m h -; cases h

theorem rdmaRead : Statement .rdmaRead := by
  rintro d m h -; cases h

theorem arpRequest : Statement .arpRequest := by
  rintro d m h -; cases h

theorem neighborDiscovery : Statement .neighborDiscovery := by
  rintro d m h -; cases h

theorem lldpSend : Statement .lldpSend := by
  rintro d m h -; cases h

theorem debugRequest : Statement .debugRequest := by
  rintro d m h -; cases h

theorem frontEndGate : Statement .frontEndGate := by
  rintro d m h -; cases h

theorem frontEndWake : Statement .frontEndWake := by
  rintro d m h -; cases h

theorem getSensorReading : Statement .getSensorReading := by
  rintro d m h -; cases h

theorem pldmDiscovery : Statement .pldmDiscovery := by
  rintro d m h -; cases h

theorem platformEventMessage : Statement .platformEventMessage := by
  rintro d m h -; cases h

theorem applyComplete : Statement .applyComplete := by
  rintro d m h -; cases h

theorem firmwareActivation : Statement .firmwareActivation := by
  rintro d m h -; cases h

theorem securityMinimumRaise : Statement .securityMinimumRaise := by
  rintro d m h -; cases h

theorem traceControlWrite : Statement .traceControlWrite := by
  rintro d m h -; cases h

theorem getVersion : Statement .getVersion := by
  rintro d m h -; cases h

theorem getCapabilities : Statement .getCapabilities := by
  rintro d m h -; cases h

theorem negotiateAlgorithms : Statement .negotiateAlgorithms := by
  rintro d m h -; cases h

theorem getDigests : Statement .getDigests := by
  rintro d m h -; cases h

theorem getCertificate : Statement .getCertificate := by
  rintro d m h -; cases h

theorem challenge : Statement .challenge := by
  rintro d m h -; cases h

theorem getMeasurements : Statement .getMeasurements := by
  rintro d m h -; cases h

theorem powerCapWindow : Statement .powerCapWindow := by
  rintro d m h -; cases h

theorem powerCapSet : Statement .powerCapSet := by
  rintro d m h -; cases h

theorem dieThermalTrip : Statement .dieThermalTrip := by
  rintro d m h -; cases h

theorem stackThermalTrip : Statement .stackThermalTrip := by
  rintro d m h -; cases h

theorem coreClockGate : Statement .coreClockGate := by
  rintro d m h -; cases h

theorem coreWake : Statement .coreWake := by
  rintro d m h -; cases h

theorem clusterPowerGate : Statement .clusterPowerGate := by
  rintro d m h -; cases h

theorem clusterWake : Statement .clusterWake := by
  rintro d m h -; cases h

theorem cellReset : Statement .cellReset := by
  rintro d m h -; cases h

theorem engineReset : Statement .engineReset := by
  rintro d m h -; cases h

theorem gangReset : Statement .gangReset := by
  rintro d m h -; cases h

theorem clusterReset : Statement .clusterReset := by
  rintro d m h -; cases h

theorem dieWarmReset : Statement .dieWarmReset := by
  rintro d m h -; cases h

theorem packageWarmReset : Statement .packageWarmReset := by
  rintro d m h -; cases h

theorem coldReset : Statement .coldReset := by
  rintro d m h -; cases h

theorem fullService : Statement .fullService := by
  rintro d m h -; cases h

theorem contactSheetFrame : Statement .contactSheetFrame := by
  rintro d m h -; cases h

theorem filmstripRecord : Statement .filmstripRecord := by
  rintro d m h -; cases h

theorem repairAttemptComplete : Statement .repairAttemptComplete := by
  rintro d m h -; cases h

theorem packetComplete : Statement .packetComplete := by
  rintro d m h -; cases h

theorem dieTemperatureCap : Statement .dieTemperatureCap := by
  rintro d m h -; cases h

theorem hostLinkChange : Statement .hostLinkChange := by
  rintro d m h -; cases h

theorem degradedService : Statement .degradedService := by
  rintro d m h -; cases h

theorem partitionAssignment : Statement .partitionAssignment := by
  rintro d m h -; cases h

theorem pageMadeNonResident : Statement .pageMadeNonResident := by
  rintro d m h -; cases h

end Sys2Proof.Laws.Encoding
end

