-- ==== Sys2Proof/Laws/Encode.lean ====
section
/-! SUPPORT. The fields of an encoded word read back (02 R27, R28). -/

namespace Sys2Proof

/-- The fields of a move's bits are the move. -/
theorem moveOfBits_bits (a : Move) : moveOfBits a.bits = a := by
  obtain ⟨g, d, i, s⟩ := a
  simp only [moveOfBits, Move.bits, Move.mk.injEq]
  refine ⟨?_, ?_, ?_, ?_⟩
  · apply BitVec.eq_of_getLsbD_eq; intro k hk
    simp only [BitVec.getLsbD_extractLsb', BitVec.getLsbD_append, hk]
    rw [if_neg (by omega), if_neg (by omega), if_neg (by omega)]
    simp only [decide_true, Bool.true_and]
    congr 1; omega
  · apply BitVec.eq_of_getLsbD_eq; intro k hk
    simp only [BitVec.getLsbD_extractLsb', BitVec.getLsbD_append, hk]
    rw [if_neg (by omega), if_neg (by omega), if_pos (by omega)]
    simp only [decide_true, Bool.true_and]
    congr 1; omega
  · simp only [BitVec.getLsbD_append]
    simp
  · apply BitVec.eq_of_getLsbD_eq; intro k hk
    simp only [BitVec.getLsbD_extractLsb', BitVec.getLsbD_append, hk]
    rw [if_pos (by omega)]
    simp

/-- The form bits and the two moves of a pair word. -/
theorem pairWord_form (a b : Move) : (pairWord a b).extractLsb' 62 2 = 0#2 := by
  apply BitVec.eq_of_getLsbD_eq; intro k hk
  simp only [pairWord, BitVec.getLsbD_extractLsb', BitVec.getLsbD_append]
  rw [if_neg (by omega), if_neg (by omega)]
  simp

theorem pairWord_moveA (a b : Move) : (pairWord a b).extractLsb' 31 31 = a.bits := by
  apply BitVec.eq_of_getLsbD_eq; intro k hk
  simp only [pairWord, BitVec.getLsbD_extractLsb', BitVec.getLsbD_append, hk]
  rw [if_neg (by omega), if_pos (by omega)]
  simp only [decide_true, Bool.true_and]
  congr 1; omega

theorem pairWord_moveB (a b : Move) : (pairWord a b).extractLsb' 0 31 = b.bits := by
  apply BitVec.eq_of_getLsbD_eq; intro k hk
  simp only [pairWord, BitVec.getLsbD_extractLsb', BitVec.getLsbD_append, hk]
  rw [if_pos (by omega)]
  simp

/-- A pair word decodes as its two moves. -/
theorem decodeUnit_pairWord (al : Bool) (a b : Move) (v : Word) : decodeUnit al (pairWord a b) v = decodePair a b := by
  simp only [decodeUnit, pairWord_form, pairWord_moveA, pairWord_moveB, moveOfBits_bits]
  rw [if_neg (by decide), if_pos (by rfl)]

theorem triggerBlock_range (n : Nat) (h : triggerBlock n ≠ []) : 4 ≤ n ∧ n < 32 := by
  unfold triggerBlock at h
  split at h <;> first | omega | exact absurd rfl h

/-- A destination that names an instruction of its own is assigned. -/
theorem dstAssigned_of_loneForm (d : Nat) (m : Lone) (i : Instr) (h : loneForm d m = some i) : dstAssigned d = true := by
  have special : specialOp d m = some i → dstAssigned d = true := by
    intro h
    unfold specialOp at h
    simp only [] at h
    split at h
    · cases h
    · split at h
      · cases h
      · rename_i h1 h2
        have h2 : specialAssigned (d - 0x800) = true := by simpa using h2
        have h3 : d - 0x800 ≤ 0x2F := by simp [specialAssigned] at h2; omega
        simp only [dstAssigned]
        rw [if_neg (by omega), if_neg (by omega), if_neg (by omega), if_neg (by omega), if_neg (by omega), if_pos (by omega)]
        exact h2
  unfold loneForm at h
  split at h
  · rename_i j hj
    unfold triggerOp at hj
    cases hk : (triggerBlock (d / 64))[d % 64]? with
    | none => rw [hk] at hj; cases hj
    | some f =>
      have hl : d % 64 < (triggerBlock (d / 64)).length := (List.getElem?_eq_some_iff.1 hk).1
      have hr := triggerBlock_range (d / 64) (fun e => by rw [e] at hl; simp at hl)
      simp only [dstAssigned]
      rw [if_neg (by omega), if_neg (by omega), if_neg (by omega), if_neg (by omega), if_pos (by omega)]
      simpa using hl
  · exact special h

end Sys2Proof
end

