-- ==== Sys2Proof/Laws/Mem.lean ====
section
/-! SUPPORT. The laws of byte memory: a read after a write, what a write leaves alone, and that every memory operation keeps the canonical
form. -/

namespace Sys2Proof.Machine

/-! ## Single bytes -/

theorem readCell_insertCell (l : List Host.Cell) (a x : Nat) (b : Byte) :
    readCell (insertCell l a b) x = if x = a then b else readCell l x := by
  induction l with
  | nil => simp [insertCell, readCell]
  | cons c r ih =>
    obtain ⟨k, v⟩ := c
    simp only [insertCell]
    split
    · simp [readCell]
    · split
      · rename_i h; subst h; simp only [readCell]; split <;> simp_all
      · rename_i h1 h2
        simp only [readCell, ih]
        by_cases hx : x = k
        · rw [if_pos hx, if_neg (by omega), if_pos hx]
        · rw [if_neg hx, if_neg hx]

theorem readCell_filter (l : List Host.Cell) (p : Nat → Bool) (x : Nat) :
    readCell (l.filter (fun c => p c.1)) x = if p x then readCell l x else 0 := by
  induction l with
  | nil => simp [readCell]
  | cons c r ih =>
    obtain ⟨k, v⟩ := c
    by_cases hk : p k
    · simp only [List.filter_cons, hk, if_true, readCell, ih]
      split
      · rename_i h; simp [h, hk]
      · rfl
    · simp only [List.filter_cons, hk, Bool.false_eq_true, if_false, readCell, ih]
      by_cases hx : x = k
      · subst hx; simp [hk]
      · rw [if_neg hx]

/-- Reading a byte after a write of one. -/
theorem readCell_writeCell (l : List Host.Cell) (a x : Nat) (b : Byte) :
    readCell (writeCell l a b) x = if x = a then b else readCell l x := by
  unfold writeCell
  split
  · rename_i h
    rw [readCell_filter l (fun k => k != a) x]
    by_cases hx : x = a <;> simp [hx, h]
  · exact readCell_insertCell l a x b

/-- A byte read after a write of one byte. -/
@[simp] theorem Mem.byte_setByte (m : Mem) (a x : Nat) (b : Byte) : (m.setByte a b).byte x = if x = a then b else m.byte x :=
  readCell_writeCell m.bytes a x b

/-! ## Ranges of bytes -/

/-- A byte read after a store of n bytes. -/
theorem Mem.byte_store (m : Mem) (a n v x : Nat) :
    (m.store a n v).byte x = if a ≤ x ∧ x < a + n then BitVec.ofNat 8 (v / 256 ^ (x - a)) else m.byte x := by
  induction n generalizing m a v with
  | zero => simp [Mem.store] <;> omega
  | succ n ih =>
    rw [Mem.store, ih]
    by_cases h : a + 1 ≤ x ∧ x < a + 1 + n
    · have h' : a ≤ x ∧ x < a + (n + 1) := by omega
      have hs : x - a = (x - (a + 1)) + 1 := by omega
      rw [if_pos h, if_pos h', hs, Nat.pow_succ, Nat.mul_comm, ← Nat.div_div_eq_div_mul]
    · rw [if_neg h, Mem.byte_setByte]
      by_cases hx : x = a
      · subst hx; simp
      · rw [if_neg hx, if_neg (by omega)]

/-- A write leaves every byte outside its range as it was. -/
theorem Mem.byte_write_outside (g : Nat) (m : Mem) (a n v x : Nat) (h : x < a ∨ a + n ≤ x) : (m.write g a n v).byte x = m.byte x := by
  have e : (m.write g a n v).byte x = (m.store a n v).byte x := rfl
  rw [e, Mem.byte_store, if_neg (by omega)]

/-- Two memories with the same bytes in a range read the same there. -/
theorem Mem.read_congr (m k : Mem) (a n : Nat) (h : ∀ x, a ≤ x → x < a + n → m.byte x = k.byte x) : m.read a n = k.read a n := by
  induction n generalizing a with
  | zero => rfl
  | succ n ih =>
    rw [Mem.read, Mem.read, h a (Nat.le_refl _) (by omega), ih (a + 1) (fun x h1 h2 => h x (by omega) (by omega))]

/-- A read after a write of the same range gives the value written. -/
theorem Mem.read_write (g : Nat) (m : Mem) (a n v : Nat) : (m.write g a n v).read a n = v % 256 ^ n := by
  have e : (m.write g a n v).read a n = (m.store a n v).read a n := Mem.read_congr _ _ _ _ (fun _ _ _ => rfl)
  rw [e]
  induction n generalizing m a v with
  | zero => simp [Mem.read, Nat.mod_one]
  | succ n ih =>
    rw [Mem.read]
    have hb : (m.store a (n + 1) v).byte a = BitVec.ofNat 8 v := by rw [Mem.byte_store, if_pos (by omega)]; simp
    have hr : (m.store a (n + 1) v).read (a + 1) n = v / 256 % 256 ^ n := by
      rw [Mem.store]; exact ih _ _ _ (Mem.read_congr _ _ _ _ (fun _ _ _ => rfl))
    have h8 : (2 : Nat) ^ 8 = 256 := rfl
    have hp : (256 : Nat) ^ (n + 1) = 256 * 256 ^ n := by rw [Nat.pow_succ, Nat.mul_comm]
    rw [hb, hr, BitVec.toNat_ofNat, h8, hp, Nat.mod_mul]

/-- A read that does not meet a write is not changed by it. -/
theorem Mem.read_write_outside (g : Nat) (m : Mem) (a n v b k : Nat) (h : b + k ≤ a ∨ a + n ≤ b) :
    (m.write g a n v).read b k = m.read b k :=
  Mem.read_congr _ _ _ _ (fun x h1 h2 => Mem.byte_write_outside g m a n v x (by omega))

@[simp] theorem Mem.isFull_write (g : Nat) (m : Mem) (a n v w : Nat) : (m.write g a n v).isFull w = m.isFull w := by
  have e : (m.store a n v).empties = m.empties := by
    induction n generalizing m a v with
    | zero => rfl
    | succ n ih => rw [Mem.store, ih]; rfl
  simp [Mem.isFull, Mem.write, e]

theorem mem_insertNat (a x : Nat) (l : List Nat) : x ∈ insertNat a l ↔ x = a ∨ x ∈ l := by
  induction l with
  | nil => simp [insertNat]
  | cons k r ih =>
    simp only [insertNat]
    split
    · simp
    · split
      · rename_i h; subst h; simp
      · simp only [List.mem_cons, ih]; constructor <;> rintro (h | h | h) <;> simp [h]

/-- The bit of a word after a bit is set. -/
theorem Mem.isFull_setFull (m : Mem) (w x : Nat) (f : Bool) : (m.setFull w f).isFull x = if x = w then f else m.isFull x := by
  unfold Mem.setFull Mem.isFull
  cases f
  · by_cases h : x = w <;> simp [h, List.contains_eq_mem, mem_insertNat]
  · simp only [if_true, removeNat]
    by_cases h : x = w <;> simp [h, List.contains_eq_mem, List.mem_filter]

@[simp] theorem Mem.byte_setFull (m : Mem) (w x : Nat) (f : Bool) : (m.setFull w f).byte x = m.byte x := rfl

/-! ## The canonical form -/

/-- Addresses rise strictly, and no byte is 0. -/
theorem cellsWf_iff (l : List Host.Cell) : cellsWf l = true ↔ l.Pairwise (fun c d => c.1 < d.1) ∧ ∀ c ∈ l, c.2 ≠ 0 := by
  induction l with
  | nil => simp [cellsWf]
  | cons c r ih =>
    cases r with
    | nil => simp [cellsWf]
    | cons d r =>
      simp only [cellsWf, Bool.and_eq_true, ih, decide_eq_true_eq, bne_iff_ne, ne_eq]
      constructor
      · rintro ⟨⟨h1, h2⟩, h3, h4⟩
        refine ⟨List.pairwise_cons.2 ⟨?_, h3⟩, ?_⟩
        · intro e he
          rcases List.mem_cons.1 he with rfl | he'
          · exact h2
          · exact Nat.lt_trans h2 ((List.pairwise_cons.1 h3).1 e he')
        · intro e he
          rcases List.mem_cons.1 he with rfl | he'
          · exact h1
          · exact h4 e he'
      · rintro ⟨h3, h4⟩
        exact ⟨⟨h4 c (by simp), (List.pairwise_cons.1 h3).1 d (by simp)⟩, (List.pairwise_cons.1 h3).2, fun e he => h4 e (List.mem_cons_of_mem _ he)⟩

theorem natsWf_iff (l : List Nat) : natsWf l = true ↔ l.Pairwise (· < ·) := by
  induction l with
  | nil => simp [natsWf]
  | cons c r ih =>
    cases r with
    | nil => simp [natsWf]
    | cons d r =>
      simp only [natsWf, Bool.and_eq_true, ih, decide_eq_true_eq]
      constructor
      · rintro ⟨h1, h2⟩
        refine List.pairwise_cons.2 ⟨?_, h2⟩
        intro e he
        rcases List.mem_cons.1 he with rfl | he'
        · exact h1
        · exact Nat.lt_trans h1 ((List.pairwise_cons.1 h2).1 e he')
      · intro h
        exact ⟨(List.pairwise_cons.1 h).1 d (by simp), (List.pairwise_cons.1 h).2⟩

theorem cellsWf_filter (l : List Host.Cell) (p : Host.Cell → Bool) (h : cellsWf l = true) : cellsWf (l.filter p) = true := by
  rw [cellsWf_iff] at *
  exact ⟨h.1.filter p, fun c hc => h.2 c (List.mem_filter.1 hc).1⟩

theorem natsWf_filter (l : List Nat) (p : Nat → Bool) (h : natsWf l = true) : natsWf (l.filter p) = true := by
  rw [natsWf_iff] at *
  exact h.filter p

theorem mem_insertCell (l : List Host.Cell) (a : Nat) (b : Byte) (c : Host.Cell) (h : c ∈ insertCell l a b) : c = (a, b) ∨ c ∈ l := by
  induction l with
  | nil => simpa [insertCell] using h
  | cons d r ih =>
    obtain ⟨k, v⟩ := d
    simp only [insertCell] at h
    split at h
    · simpa using h
    · split at h
      · rename_i e; subst e; rcases List.mem_cons.1 h with h | h
        · exact .inl h
        · exact .inr (List.mem_cons_of_mem _ h)
      · rcases List.mem_cons.1 h with h | h
        · exact .inr (h ▸ List.mem_cons_self)
        · exact (ih h).imp id (List.mem_cons_of_mem _)

theorem cellsWf_insertCell (l : List Host.Cell) (a : Nat) (b : Byte) (hb : b ≠ 0) (h : cellsWf l = true) : cellsWf (insertCell l a b) = true := by
  rw [cellsWf_iff] at *
  refine ⟨?_, fun c hc => (mem_insertCell l a b c hc).elim (fun e => e ▸ hb) (h.2 c)⟩
  obtain ⟨h, -⟩ := h
  induction l with
  | nil => simp [insertCell]
  | cons d r ih =>
    obtain ⟨k, v⟩ := d
    have hr := List.pairwise_cons.1 h
    simp only [insertCell]
    split
    · rename_i hk
      refine List.pairwise_cons.2 ⟨?_, h⟩
      intro e he
      rcases List.mem_cons.1 he with rfl | he'
      · exact hk
      · exact Nat.lt_trans hk (hr.1 e he')
    · split
      · exact List.pairwise_cons.2 ⟨fun e he => hr.1 e he, hr.2⟩
      · refine List.pairwise_cons.2 ⟨?_, ih hr.2⟩
        intro e he
        rcases mem_insertCell r a b e he with rfl | he'
        · show k < a; omega
        · exact hr.1 e he'

theorem cellsWf_writeCell (l : List Host.Cell) (a : Nat) (b : Byte) (h : cellsWf l = true) : cellsWf (writeCell l a b) = true := by
  unfold writeCell
  split
  · exact cellsWf_filter _ _ h
  · rename_i hb; exact cellsWf_insertCell _ _ _ hb h

theorem natsWf_insertNat (a : Nat) (l : List Nat) (h : natsWf l = true) : natsWf (insertNat a l) = true := by
  rw [natsWf_iff] at *
  induction l with
  | nil => simp [insertNat]
  | cons k r ih =>
    have hr := List.pairwise_cons.1 h
    simp only [insertNat]
    split
    · rename_i hk
      refine List.pairwise_cons.2 ⟨?_, h⟩
      intro e he
      rcases List.mem_cons.1 he with rfl | he'
      · exact hk
      · exact Nat.lt_trans hk (hr.1 e he')
    · split
      · exact h
      · refine List.pairwise_cons.2 ⟨?_, ih hr.2⟩
        intro e he
        rcases (mem_insertNat a e r).1 he with rfl | he'
        · omega
        · exact hr.1 e he'

theorem Mem.wf_iff (m : Mem) : m.wf = true ↔ cellsWf m.bytes = true ∧ natsWf m.empties = true ∧ natsWf m.bad = true ∧ natsWf m.found = true := by
  simp [Mem.wf, and_assoc]

@[simp] theorem Mem.blank_wf : Mem.blank.wf = true := rfl

theorem Mem.setByte_wf (m : Mem) (a : Nat) (b : Byte) (h : m.wf = true) : (m.setByte a b).wf = true := by
  rw [Mem.wf_iff] at *; exact ⟨cellsWf_writeCell _ _ _ h.1, h.2⟩

theorem Mem.store_wf (m : Mem) (a n v : Nat) (h : m.wf = true) : (m.store a n v).wf = true := by
  induction n generalizing m a v with
  | zero => exact h
  | succ n ih => exact ih _ _ _ (Mem.setByte_wf _ _ _ h)

/-- A write keeps the canonical form. -/
theorem Mem.write_wf (g : Nat) (m : Mem) (a n v : Nat) (h : m.wf = true) : (m.write g a n v).wf = true := by
  have hs := (Mem.wf_iff _).1 (Mem.store_wf m a n v h)
  have h := (Mem.wf_iff _).1 h
  exact (Mem.wf_iff _).2 ⟨hs.1, hs.2.1, natsWf_filter _ _ h.2.2.1, natsWf_filter _ _ h.2.2.2⟩

theorem Mem.setFull_wf (m : Mem) (w : Nat) (f : Bool) (h : m.wf = true) : (m.setFull w f).wf = true := by
  rw [Mem.wf_iff] at *
  refine ⟨h.1, ?_, h.2.2⟩
  cases f
  · exact natsWf_insertNat _ _ h.2.1
  · exact natsWf_filter _ _ h.2.1

theorem Mem.spoil_wf (m : Mem) (k : Nat) (h : m.wf = true) : (m.spoil k).wf = true := by
  rw [Mem.wf_iff] at *; exact ⟨h.1, h.2.1, natsWf_insertNat _ _ h.2.2.1, h.2.2.2⟩

theorem natsWf_foldl_insertNat (ks l : List Nat) (h : natsWf l = true) : natsWf (ks.foldl (fun l k => insertNat k l) l) = true := by
  induction ks generalizing l with
  | nil => exact h
  | cons k r ih => exact ih _ (natsWf_insertNat _ _ h)

theorem Mem.count_wf (m : Mem) (g a n : Nat) (h : m.wf = true) : (m.count g a n).1.wf = true := by
  rw [Mem.wf_iff] at *; exact ⟨h.1, h.2.1, h.2.2.1, natsWf_foldl_insertNat _ _ h.2.2.2⟩

theorem Mem.clearRange_wf (m : Mem) (g a n : Nat) (h : m.wf = true) : (m.clearRange g a n).wf = true := by
  rw [Mem.wf_iff] at *
  exact ⟨cellsWf_filter _ _ h.1, natsWf_filter _ _ h.2.1, natsWf_filter _ _ h.2.2.1, natsWf_filter _ _ h.2.2.2⟩

theorem foldl_setFull_wf (f : Bool) (ws : List Nat) (m : Mem) (h : m.wf = true) : (ws.foldl (fun m w => m.setFull w f) m).wf = true := by
  induction ws generalizing m with
  | nil => exact h
  | cons w r ih => exact ih _ (Mem.setFull_wf _ _ _ h)

theorem Mem.feApply_wf (m : Mem) (a : Access) (h : m.wf = true) : (m.feApply a).wf = true := by
  unfold Mem.feApply
  split
  · exact foldl_setFull_wf _ _ _ h
  · split
    · exact foldl_setFull_wf _ _ _ h
    · exact h

/-- A performed access keeps the canonical form. -/
theorem Mem.perform_wf (g : Nat) (m : Mem) (a : Access) (p : Performed) (h : m.wf = true) (hp : m.perform g a = some p) : p.mem.wf = true := by
  unfold Mem.perform at hp
  split at hp
  · split at hp
    · cases hp
    · cases hp; exact Mem.feApply_wf _ _ h
  · cases hp; exact Mem.feApply_wf _ _ (Mem.write_wf _ _ _ _ _ h)
  · split at hp
    · cases hp
    · cases hp; exact Mem.feApply_wf _ _ (Mem.write_wf _ _ _ _ _ h)

theorem serveWord_wf (g w : Nat) (m : Mem) (b : Bool) (ws : List Waiter) (h : m.wf = true) : (serveWord g w m b ws).1.wf = true := by
  induction ws generalizing m b with
  | nil => exact h
  | cons x xs ih =>
    simp only [serveWord]
    split
    · exact ih _ _ h
    · split
      · rename_i p hp; exact ih _ _ (Mem.perform_wf _ _ _ _ h hp)
      · exact ih _ _ h

theorem serveWords_wf (g : Nat) (ks : List Nat) (m : Mem) (ws : List Waiter) (h : m.wf = true) : (serveWords g ks m ws).1.wf = true := by
  induction ks generalizing m ws with
  | nil => exact h
  | cons k r ih => exact ih _ _ (serveWord_wf _ _ _ _ _ h)

/-- The service of waiting accesses keeps the canonical form. -/
theorem serveAll_wf (g n : Nat) (m : Mem) (ws : List Waiter) (h : m.wf = true) : (serveAll g n m ws).1.wf = true := by
  induction n generalizing m ws with
  | zero => exact h
  | succ n ih => exact ih _ _ (serveWords_wf _ _ _ _ h)

end Sys2Proof.Machine
end

