-- ==== Sys2Proof/Laws/Ops.lean ====
section
/-! SUPPORT. What each shared operation does to the device, said once: its result as an update of the state it starts from, so that every
field not named is unchanged. -/

namespace Sys2Proof.Machine

/-! ## The agenda and the outbox -/

/-- Asking for an event changes the agenda only, and the event is due afterwards (the agenda of one that was due already is as it was). -/
theorem pushOnce_cases (s : State) (e : Event) :
    ∃ l, s.pushOnce e = { s with agenda := l } ∧ e ∈ l ∧ ∀ x ∈ s.agenda, x ∈ l := by
  unfold State.pushOnce
  split
  · rename_i h; exact ⟨s.agenda, rfl, by simpa using h, fun _ h => h⟩
  · exact ⟨s.agenda ++ [e], rfl, by simp, fun x h => by simp [h]⟩

/-- Asking for several events changes the agenda only. -/
theorem foldl_push_cases {α : Type} (f : α → Event) (l : List α) (s : State) :
    l.foldl (fun s x => s.push (f x)) s = { s with agenda := s.agenda ++ l.map f } := by
  induction l generalizing s with
  | nil => simp
  | cons a r ih => rw [List.foldl_cons, ih]; simp only [State.push, List.append_assoc, List.map_cons, List.singleton_append]

theorem foldl_pushOnce_cases {α : Type} (f : α → Event) (l : List α) (s : State) :
    ∃ ag, l.foldl (fun s x => s.pushOnce (f x)) s = { s with agenda := ag } ∧ (∀ x ∈ l, f x ∈ ag) ∧ ∀ x ∈ s.agenda, x ∈ ag := by
  induction l generalizing s with
  | nil => exact ⟨s.agenda, rfl, by simp, fun _ h => h⟩
  | cons a r ih =>
    obtain ⟨l1, h1, h2, h3⟩ := pushOnce_cases s (f a)
    obtain ⟨l2, h4, h5, h6⟩ := ih (s.pushOnce (f a))
    refine ⟨l2, ?_, ?_, ?_⟩
    · rw [List.foldl_cons, h4, h1]
    · intro x hx
      rcases List.mem_cons.1 hx with rfl | hx
      · exact h6 _ (by rw [h1]; exact h2)
      · exact h5 x hx
    · intro x hx; exact h6 x (by rw [h1]; exact h3 x hx)

/-! ## The filmstrip, traces and activity -/

/-- A filmstrip record changes the filmstrip and draws one value. -/
theorem filmAdd_cases (s : State) (source code unit : Nat) (data : Word) :
    ∃ film time, s.filmAdd source code unit data = { s with film := film, filmSeq := s.filmSeq + 1, filmTime := time, draws := s.draws + 1 }
      ∧ s.filmTime ≤ time ∧ film.getLast? = some ⟨s.filmSeq + 1, time, source, code, unit, data⟩ := by
  refine ⟨_, _, rfl, Nat.le_add_right _ _, ?_⟩
  simp only [State.draw]
  rw [List.drop_append_of_le_length (by simp), List.getLast?_append]
  simp

/-- A trace record changes the trace of its cluster, and the trace buffer in device memory. -/
theorem trace_cases (s : State) (cl kind part : Nat) (ws : List Word) :
    ∃ tr m b, s.trace cl kind part ws = ({ s.setCluster cl { s.cluster cl with trace := tr } with memory := m }, b) ∨ s.trace cl kind part ws = (s, b) := by
  unfold State.trace
  simp only []
  split
  · exact ⟨(s.cluster cl).trace, s.memory, false, .inr rfl⟩
  · split
    · exact ⟨_, s.memory, false, .inl rfl⟩
    · exact ⟨_, _, true, .inl rfl⟩

/-- A trace that is off takes no record. -/
theorem trace_off (s : State) (cl kind part : Nat) (ws : List Word) (h : (s.cluster cl).trace.on kind part = false) :
    s.trace cl kind part ws = (s, false) := by
  simp [State.trace, h]

theorem trace_cores (s : State) (cl kind part : Nat) (ws : List Word) : (s.trace cl kind part ws).1.cores = s.cores := by
  obtain ⟨tr, m, b, h | h⟩ := trace_cases s cl kind part ws <;> rw [h] <;> rfl

theorem trace_agenda (s : State) (cl kind part : Nat) (ws : List Word) : (s.trace cl kind part ws).1.agenda = s.agenda := by
  obtain ⟨tr, m, b, h | h⟩ := trace_cases s cl kind part ws <;> rw [h] <;> rfl

theorem trace_launches (s : State) (cl kind part : Nat) (ws : List Word) : (s.trace cl kind part ws).1.launches = s.launches := by
  obtain ⟨tr, m, b, h | h⟩ := trace_cases s cl kind part ws <;> rw [h] <;> rfl

theorem traceStrand_cores (s : State) (c i kind len : Nat) (ws : List Word) : (s.traceStrand c i kind len ws).1.cores = s.cores := trace_cores ..

theorem traceStrand_core (s : State) (c i kind len d : Nat) (ws : List Word) : (s.traceStrand c i kind len ws).1.core d = s.core d := by
  simp [State.core, traceStrand_cores]

theorem traceStrand_slot (s : State) (c i kind len d j : Nat) (ws : List Word) : (s.traceStrand c i kind len ws).1.slot d j = s.slot d j := by
  simp [State.slot, traceStrand_core]

/-- Activity of a launch changes detectors only: cores, clusters and memory stay. -/
theorem noteActivity_cases (s : State) (l : Nat) : ∃ ls ps, s.noteActivity l = { s with launches := ls, pans := ps } := ⟨_, _, rfl⟩

@[simp] theorem noteActivity_core (s : State) (l c : Nat) : (s.noteActivity l).core c = s.core c := rfl
@[simp] theorem noteActivity_slot (s : State) (l c i : Nat) : (s.noteActivity l).slot c i = s.slot c i := rfl
@[simp] theorem noteActivity_memory (s : State) (l : Nat) : (s.noteActivity l).memory = s.memory := rfl
@[simp] theorem noteActivity_agenda (s : State) (l : Nat) : (s.noteActivity l).agenda = s.agenda := rfl
@[simp] theorem noteActivity_current (s : State) (l : Nat) : (s.noteActivity l).current = s.current := rfl
@[simp] theorem noteActivity_clusters (s : State) (l : Nat) : (s.noteActivity l).clusters = s.clusters := rfl

/-! ## The creation, the waking and the resumption of a strand -/

/-- A created strand is the new one in its slot; its core's other slots, and every other core, stay. -/
theorem create_slot (s : State) (c i : Nat) (b : Birth) :
    (s.create c i b).slot c i
      = newSlot (s.slot c i) b (gsiOf s.device (s.cell c).part c ((s.core c).created + 1)) (i == 255) ((s.core c).cycles + 1) := by
  simp only [State.create, noteActivity_slot, traceStrand_slot]
  simp [State.slot, State.cell, Core.setSlot, Core.slot]

theorem create_slot_ne (s : State) (c i d j : Nat) (b : Birth) (h : d ≠ c ∨ j ≠ i) : (s.create c i b).slot d j = s.slot d j := by
  simp only [State.create, noteActivity_slot, traceStrand_slot]
  by_cases hd : d = c
  · subst hd
    have hj : j ≠ i := h.resolve_left (by simp)
    simp [State.slot, Core.setSlot, Core.slot, table_get_set_ne _ _ _ _ _ hj]
  · simp [State.slot, State.setCore_core_ne _ _ _ _ hd]

theorem create_store (s : State) (c i d : Nat) (b : Birth) : ((s.create c i b).core d).store = (s.core d).store := by
  simp only [State.create, noteActivity_core, traceStrand_core]
  by_cases hd : d = c
  · subst hd; simp [Core.setSlot]
  · simp [State.setCore_core_ne _ _ _ _ hd]

/-- A wake ends a wait of one strand with a value on its result port. -/
theorem wake_slot (s : State) (c i port : Nat) (v : Word) :
    (s.wake c i port v).slot c i
      = { (s.slot c i).setRes port v with st := .ready, park := none, age := 0, readyAt := (s.core c).cycles + 1 } := by
  simp [State.wake, State.slot]

theorem wake_slot_ne (s : State) (c i port j : Nat) (v : Word) (h : j ≠ i) : (s.wake c i port v).slot c j = s.slot c j := by
  simp only [State.wake, noteActivity_slot]
  exact State.setSlot_slot_ne _ _ _ _ _ h

@[simp] theorem wake_memory (s : State) (c i port : Nat) (v : Word) : (s.wake c i port v).memory = s.memory := rfl
@[simp] theorem wake_agenda (s : State) (c i port : Nat) (v : Word) : (s.wake c i port v).agenda = s.agenda := rfl

/-- A resumed strand is READY in the next cycle at the pc it stopped at (14 R365). -/
theorem resumeReady_slot (s : State) (c i : Nat) :
    ((s.resumeReady c i).slot c i).st = .ready ∧ ((s.resumeReady c i).slot c i).pc = (s.slot c i).pc
      ∧ ((s.resumeReady c i).slot c i).skipBreak = true ∧ ((s.resumeReady c i).slot c i).readyAt = (s.core c).cycles + 1 := by
  simp [State.resumeReady]

/-! ## Taking a trap (14 R348 to R353) -/

/-- What waits for the stop of a strand is answered as events, and nothing else happens; what was due stays due. -/
theorem answerStops_cases (s : State) (c i : Nat) : ∃ l, s.answerStops c i = { s with agenda := l } ∧ ∀ x ∈ s.agenda, x ∈ l := by
  unfold State.answerStops
  simp only []
  rw [foldl_push_cases]
  split
  · obtain ⟨l, h, -, hm⟩ := pushOnce_cases s (.trapDisposal (clusterOf c) c i)
    rw [h]
    exact ⟨_, rfl, fun x hx => List.mem_append_left _ (hm x hx)⟩
  · exact ⟨_, rfl, fun x hx => List.mem_append_left _ hx⟩

@[simp] theorem answerStops_core (s : State) (c i d : Nat) : (s.answerStops c i).core d = s.core d := by
  obtain ⟨l, h, -⟩ := answerStops_cases s c i
  rw [h]; rfl

@[simp] theorem answerStops_slot (s : State) (c i d j : Nat) : (s.answerStops c i).slot d j = s.slot d j := by
  simp [State.slot]

@[simp] theorem answerStops_memory (s : State) (c i : Nat) : (s.answerStops c i).memory = s.memory := by
  obtain ⟨l, h, -⟩ := answerStops_cases s c i
  rw [h]

@[simp] theorem answerStops_current (s : State) (c i : Nat) : (s.answerStops c i).current = s.current := by
  obtain ⟨l, h, -⟩ := answerStops_cases s c i
  rw [h]

theorem setFaults_slot (s : State) (c i d : Nat) (l : List (Nat × Nat)) : (s.setCore c { s.core c with faults := l }).slot d i = s.slot d i := by
  by_cases h : d = c
  · subst h; simp [State.slot, Core.slot]
  · simp [State.slot, State.setCore_core_ne _ _ _ _ h]

/-- A strand that leaves a wait may note activity, and does nothing else. -/
theorem leaving_cases (s : State) (c i : Nat) : ∃ ls ps, s.leaving c i = { s with launches := ls, pans := ps } := by
  unfold State.leaving
  simp only []
  split
  · exact noteActivity_cases ..
  · exact ⟨s.launches, s.pans, rfl⟩

@[simp] theorem leaving_core (s : State) (c i d : Nat) : (s.leaving c i).core d = s.core d := by
  obtain ⟨_, _, h⟩ := leaving_cases s c i
  rw [h]; rfl

@[simp] theorem leaving_slot (s : State) (c i d j : Nat) : (s.leaving c i).slot d j = s.slot d j := by simp [State.slot]

@[simp] theorem leaving_current (s : State) (c i : Nat) : (s.leaving c i).current = s.current := by
  obtain ⟨_, _, h⟩ := leaving_cases s c i
  rw [h]

/-- The strand that enters TRAPPED, and no other, changes. -/
theorem enterTrap_slot (s : State) (c i : Nat) (f : FaultInfo) (moveB : Bool) (pc word : Word) :
    (s.enterTrap c i f moveB pc word).slot c i = (s.slot c i).trapAt i f moveB pc word := by
  simp only [State.enterTrap, traceStrand_slot, leaving_slot]
  exact State.setSlot_slot ..

theorem enterTrap_slot_ne (s : State) (c i d j : Nat) (f : FaultInfo) (moveB : Bool) (pc word : Word) (h : d ≠ c ∨ j ≠ i) :
    (s.enterTrap c i f moveB pc word).slot d j = s.slot d j := by
  simp only [State.enterTrap, traceStrand_slot]
  show ((s.leaving c i).setSlot c i _).slot d j = _
  by_cases hd : d = c
  · subst hd
    rw [State.setSlot_slot_ne _ _ _ _ _ (h.resolve_left (by simp)), leaving_slot]
  · simp [State.slot, State.setSlot, State.setCore_core_ne _ _ _ _ hd]

theorem traceStrand_current (s : State) (c i kind len : Nat) (ws : List Word) : (s.traceStrand c i kind len ws).1.current = s.current := by
  unfold State.traceStrand
  obtain ⟨tr, m, b, e | e⟩ := trace_cases s (clusterOf c) kind (s.cell c).part (traceHeader kind len c i 0 :: BitVec.ofNat 64 (s.core c).cycles :: (s.slot c i).gsi :: ws) <;> rw [e] <;> rfl

/-- The trapped strand leaves the pipeline. -/
theorem enterTrap_current (s : State) (c i : Nat) (f : FaultInfo) (moveB : Bool) (pc word : Word) (h : s.current = some (c, i)) :
    (s.enterTrap c i f moveB pc word).current = none := by
  simp only [State.enterTrap, traceStrand_current, leaving_current, h, if_true]

theorem checkSaved_cases (s : State) (c : Nat) : ∃ l, s.checkSaved c = { s with agenda := s.agenda ++ l } := by
  unfold State.checkSaved
  simp only []
  split
  · exact ⟨_, rfl⟩
  · exact ⟨[], by simp⟩

@[simp] theorem checkSaved_slot (s : State) (c d j : Nat) : (s.checkSaved c).slot d j = s.slot d j := by
  obtain ⟨l, h⟩ := checkSaved_cases s c
  rw [h]; rfl

@[simp] theorem checkSaved_current (s : State) (c : Nat) : (s.checkSaved c).current = s.current := by
  obtain ⟨l, h⟩ := checkSaved_cases s c
  rw [h]

/-- No stop phase changes by the entry into TRAPPED. -/
theorem enterTrap_preempt (s : State) (c i : Nat) (f : FaultInfo) (moveB : Bool) (pc word : Word) :
    ((s.enterTrap c i f moveB pc word).cell c).preempt = (s.cell c).preempt := by
  simp only [State.cell, State.enterTrap, traceStrand_core]
  show (((s.leaving c i).setSlot c i _).core c).cellD.preempt = _
  simp [State.setSlot, Core.setSlot, Core.cellD]

/-- The strand that traps, outside the stop phase of a pre-emption: TRAPPED at the pc of its word, with its record, its results delivered, and neither
stepped nor to stop. -/
theorem trap_slot (s : State) (c i : Nat) (f : FaultInfo) (moveB : Bool) (pc word : Word) (h : (s.cell c).preempt ≠ .stopped) :
    (s.trap c i f moveB pc word).slot c i = (s.slot c i).trapAt i f moveB pc word := by
  have hp : ((s.enterTrap c i f moveB pc word).cell c).preempt ≠ .stopped := by rw [enterTrap_preempt]; exact h
  simp only [State.trap, beq_iff_eq, hp, if_false, answerStops_slot, State.push_slot_of, setFaults_slot, enterTrap_slot]

/-- The strand that traps in the stop phase: STOPPED at the pc of its word, its record withdrawn (14 R369). -/
theorem trap_slot_stopping (s : State) (c i : Nat) (f : FaultInfo) (moveB : Bool) (pc word : Word) (h : (s.cell c).preempt = .stopped) :
    (s.trap c i f moveB pc word).slot c i = { (s.slot c i).trapAt i f moveB pc word with st := .stopped, trap := none } := by
  have hp : ((s.enterTrap c i f moveB pc word).cell c).preempt = .stopped := by rw [enterTrap_preempt]; exact h
  simp only [State.trap, beq_iff_eq, hp, if_true, checkSaved_slot, answerStops_slot, State.setSlot_slot, enterTrap_slot]

/-- Taking a trap touches no other strand. -/
theorem trap_slot_ne (s : State) (c i d j : Nat) (f : FaultInfo) (moveB : Bool) (pc word : Word) (h : d ≠ c ∨ j ≠ i) :
    (s.trap c i f moveB pc word).slot d j = s.slot d j := by
  simp only [State.trap]
  split
  · rw [checkSaved_slot, answerStops_slot]
    by_cases hd : d = c
    · subst hd
      rw [State.setSlot_slot_ne _ _ _ _ _ (h.resolve_left (by simp)), enterTrap_slot_ne _ _ _ _ _ _ _ _ _ h]
    · simp only [State.slot, State.setSlot, State.setCore_core_ne _ _ _ _ hd]
      exact enterTrap_slot_ne s c i d j f moveB pc word h
  · rw [answerStops_slot, State.push_slot_of, setFaults_slot, enterTrap_slot_ne _ _ _ _ _ _ _ _ _ h]

/-- The trapped strand leaves the pipeline. -/
theorem trap_current (s : State) (c i : Nat) (f : FaultInfo) (moveB : Bool) (pc word : Word) (h : s.current = some (c, i)) :
    (s.trap c i f moveB pc word).current = none := by
  simp only [State.trap]
  split
  · rw [checkSaved_current, answerStops_current]
    exact enterTrap_current s c i f moveB pc word h
  · rw [answerStops_current, State.push_current_eq, State.setCore_current_eq]
    exact enterTrap_current s c i f moveB pc word h

/-! ## Tables, TLBs and line caches (07 R160 to R173) -/

/-- A lookup may add to the TLBs of its cluster and its die, and does nothing else. -/
theorem lookup_cases (s : State) (cl part va : Nat) :
    ∃ cs ds, (s.lookup cl part va).1 = { s with clusters := cs, dies := ds } := by
  unfold State.lookup
  split
  · exact ⟨s.clusters, s.dies, rfl⟩
  · simp only []
    split
    · exact ⟨_, _, rfl⟩
    · split
      · exact ⟨s.clusters, s.dies, rfl⟩
      · split
        · exact ⟨_, _, rfl⟩
        · exact ⟨s.clusters, s.dies, rfl⟩

/-- A translation changes nothing but TLBs. -/
theorem translate_cases (s : State) (cl part va : Nat) (rd wr : Bool) :
    ∃ cs ds, (s.translate cl part va rd wr).1 = { s with clusters := cs, dies := ds } := by
  obtain ⟨cs, ds, h⟩ := lookup_cases s cl part va
  refine ⟨cs, ds, ?_⟩
  rw [← h]
  unfold State.translate
  simp only []
  split
  · rfl
  · split
    · rfl
    · split
      · rfl
      · split <;> rfl

/-- Dropping TLB entries changes TLBs, and the WOK bits of lines. -/
theorem flushTlb_cases (s : State) (part va size : Nat) :
    ∃ cs ds ks, s.flushTlb part va size = { s with clusters := cs, dies := ds, cores := ks } := ⟨_, _, _, rfl⟩

/-- A rewritten leaf changes the 8 bytes of its entry in device memory, TLBs and WOK bits. -/
theorem updateLeaf_cases (s : State) (part va : Nat) (f : Word → Word) :
    (s.walk part va = .invalid ∧ s.updateLeaf part va f = s) ∨
    ∃ e size a cs ds ks, s.walk part va = .leaf e size a
      ∧ s.updateLeaf part va f = { s with memory := s.memory.write 32 a 8 (f e).toNat, clusters := cs, dies := ds, cores := ks } := by
  unfold State.updateLeaf
  split
  · rename_i h; exact .inl ⟨h, rfl⟩
  · rename_i e size a h; exact .inr ⟨e, size, a, _, _, _, h, rfl⟩

/-- A write to a page that is not discarded, or has no frame, cancels nothing (07 R175). -/
theorem cancelDiscard_none (s : State) (part va : Nat) (h : ∀ e size a, s.walk part va = .leaf e size a → (pteDisc e && pteP e) = false) :
    s.cancelDiscard part va = s := by
  unfold State.cancelDiscard
  split
  · rfl
  · rename_i e size a hw
    simp [h e size a hw]

/-- A write of a line cache to a resident page that is not discarded, with no hold on its region, changes device memory only. -/
theorem lateWrite_cases (s : State) (w : LateWrite)
    (h : ∀ e size a, s.walk w.part w.va = .leaf e size a → pteP e = true ∧ pteDisc e = false ∧ s.heldFor w.part w.va 1 = none) :
    ∃ m, s.lateWrite w = { s with memory := m } := by
  unfold State.lateWrite
  split
  · exact ⟨s.memory, rfl⟩
  · rename_i e size a hw
    obtain ⟨hp, hd, hh⟩ := h e size a hw
    rw [hh]
    simp only [hp, Bool.not_true, Bool.false_eq_true, if_false]
    split
    · exact ⟨s.memory, rfl⟩
    · rw [cancelDiscard_none s w.part w.va (fun e' size' a' hw' => by rw [hw] at hw'; injection hw' with h1; simp [← h1, hd])]
      exact ⟨_, rfl⟩

/-- The same of a line that is written back. -/
theorem writeBack_cases (s : State) (l : CacheLine)
    (h : ∀ e size a, s.walk l.part l.va = .leaf e size a → pteP e = true ∧ pteDisc e = false ∧ s.heldFor l.part l.va 1 = none) :
    ∃ m, s.writeBack l = { s with memory := m } := by
  unfold State.writeBack
  split
  · exact ⟨s.memory, rfl⟩
  · exact lateWrite_cases s (.words l) h

/-- A line that is clean is not written back. -/
theorem writeBack_clean (s : State) (l : CacheLine) (h : l.dirty = 0) : s.writeBack l = s := by simp [State.writeBack, h]

/-- A release below gang scope does nothing (07 R162). -/
theorem release_low (s : State) (c scope : Nat) (h : scope < 2) : s.release c scope = s := by simp [State.release, h]

/-- An acquire below gang scope does nothing (07 R162). -/
theorem acquire_low (s : State) (c scope : Nat) (h : scope < 2) : s.acquire c scope = s := by simp [State.acquire, h]

/-- An acquire changes the lines of its core only. -/
theorem acquire_cases (s : State) (c scope : Nat) :
    s.acquire c scope = s ∨ ∃ ls, s.acquire c scope = s.setCore c { s.core c with lines := ls } := by
  unfold State.acquire
  split
  · exact .inl rfl
  · exact .inr ⟨_, rfl⟩

theorem acquire_memory (s : State) (c scope : Nat) : (s.acquire c scope).memory = s.memory := by
  rcases acquire_cases s c scope with h | ⟨ls, h⟩ <;> rw [h] <;> rfl

theorem acquire_store (s : State) (c scope d : Nat) : ((s.acquire c scope).core d).store = (s.core d).store := by
  rcases acquire_cases s c scope with h | ⟨ls, h⟩ <;> rw [h]
  by_cases hd : d = c
  · subst hd; simp
  · rw [State.setCore_core_ne _ _ _ _ hd]

/-! ## Accesses at a controller (07 R155 to R157) -/

/-- An access without a ticket that need not wait, meets sound data and changes no bit is performed, and nobody else is served. -/
theorem accessAt_plain (g : Nat) (ctrl : Ctrl) (stuck : Waiter → Bool) (m : Mem) (r : Retry) (x : Waiter) (p : Performed)
    (hq : mustQueue r.entries x.acc = false) (hf : m.feHolds x.acc = true) (hp : m.perform g x.acc = some p) (hc : feChanges x.acc.fe = false) :
    accessAt g ctrl stuck m r x none = (p.mem, r, .done p.value p.flags, []) := by
  simp [accessAt, hq, hf, hp, hc, Retry.used_]

/-- An access whose condition does not hold changes nothing but its controller's list. -/
theorem accessAt_waits (g : Nat) (ctrl : Ctrl) (stuck : Waiter → Bool) (m : Mem) (r : Retry) (x : Waiter) (ticket : Option Nat) (hf : m.feHolds x.acc = false) :
    accessAt g ctrl stuck m r x ticket = (m, (r.enlist ctrl x ticket).1, (r.enlist ctrl x ticket).2, []) := by
  simp [accessAt, hf]

/-- The service of a list keeps the canonical form. -/
theorem serveFree_wf (g : Nat) (stuck : Waiter → Bool) (m : Mem) (l : List Waiter) (h : m.wf = true) : (serveFree g stuck m l).1.wf = true :=
  serveAll_wf _ _ _ _ h

/-- An access keeps the canonical form of its memory. -/
theorem accessAt_wf (g : Nat) (ctrl : Ctrl) (stuck : Waiter → Bool) (m : Mem) (r : Retry) (x : Waiter) (ticket : Option Nat) (h : m.wf = true) :
    (accessAt g ctrl stuck m r x ticket).1.wf = true := by
  unfold accessAt
  split
  · exact h
  · split
    · exact h
    · rename_i p hp
      simp only []
      split
      · exact serveFree_wf _ _ _ _ (Mem.perform_wf _ _ _ _ h hp)
      · exact Mem.perform_wf _ _ _ _ h hp

/-- Nobody served: nothing is answered. -/
@[simp] theorem answerServed_nil (s : State) (ctrl : Ctrl) : s.answerServed ctrl [] = s := rfl

/-- A list that has not changed changes no hold for a ticket. -/
@[simp] theorem noteFreed_self (s : State) (ctrl : Ctrl) (r : Retry) : s.noteFreed ctrl r r = s := by simp [State.noteFreed]

/-- Freed entries change which holds are due, and nothing else. -/
theorem noteFreed_cases (s : State) (ctrl : Ctrl) (a b : Retry) : ∃ l, s.noteFreed ctrl a b = { s with agenda := l } := by
  unfold State.noteFreed
  split
  · exact ⟨s.agenda, rfl⟩
  · exact ⟨_, rfl⟩

/-- Where nothing waits, the service of a list does nothing. -/
theorem serveAll_nil (g n : Nat) (m : Mem) : serveAll g n m [] = (m, [], []) := by
  induction n with
  | zero => rfl
  | succ n ih => simp [serveAll, serveWords, ih]

theorem serveFree_nil (g : Nat) (stuck : Waiter → Bool) (m : Mem) : serveFree g stuck m [] = (m, [], []) := by simp [serveFree, serveAll_nil]

/-- A controller where nothing waits serves nobody. -/
theorem serveCore_empty (s : State) (c : Nat) (h : (s.core c).retry.entries = []) :
    s.serveCore c (s.core c).retry = s.setCore c (s.core c) := by
  have hr : ({ (s.core c).retry with entries := [] } : Retry) = (s.core c).retry := by rw [← h]
  simp [State.serveCore, h, serveAll_nil, hr]

theorem serveStack_empty (s : State) (n : Nat) (h : (s.stack n).retry.entries = []) :
    s.serveStack n (s.stack n).retry = s.setStack n (s.stack n) := by
  have hr : ({ (s.stack n).retry with entries := [] } : Retry) = (s.stack n).retry := by rw [← h]
  simp [State.serveStack, h, serveFree_nil, hr]
  rfl

@[simp] theorem woken_store (k : Core) : k.woken.store = k.store := by unfold Core.woken; split <;> rfl
@[simp] theorem woken_retry (k : Core) : k.woken.retry = k.retry := by unfold Core.woken; split <;> rfl
@[simp] theorem woken_slots (k : Core) : k.woken.slots = k.slots := by unfold Core.woken; split <;> rfl
@[simp] theorem woken_cell (k : Core) : k.woken.cell = k.cell := by unfold Core.woken; split <;> rfl

/-- The core at whose store's controller an access comes: one from elsewhere wakes it. -/
theorem access_core (s : State) (c : Nat) (x : Waiter) :
    (if ownWaiter (.core c) x then s.core c else (s.core c).woken).store = (s.core c).store
      ∧ (if ownWaiter (.core c) x then s.core c else (s.core c).woken).retry = (s.core c).retry := by
  split <;> simp

/-- A plain access without a ticket at the controller of a core's store. -/
theorem coreAccess_plain (s : State) (c : Nat) (x : Waiter) (p : Performed)
    (hq : mustQueue (s.core c).retry.entries x.acc = false) (hf : (s.core c).store.feHolds x.acc = true)
    (hp : (s.core c).store.perform 8 x.acc = some p) (hc : feChanges x.acc.fe = false) :
    s.coreAccess c x none
      = (s.setCore c { (if ownWaiter (.core c) x then s.core c else (s.core c).woken) with store := p.mem }, .done p.value p.flags) := by
  obtain ⟨hs, hr⟩ := access_core s c x
  simp only [State.coreAccess, hs, hr, accessAt_plain _ _ _ _ _ _ p hq hf hp hc, answerServed_nil, noteFreed_self]

/-- A plain access without a ticket at a stack. -/
theorem stackAccess_plain (s : State) (x : Waiter) (p : Performed)
    (hq : mustQueue (s.stack (stackOf x.acc.addr)).retry.entries x.acc = false) (hf : s.memory.feHolds x.acc = true)
    (hp : s.memory.perform 32 x.acc = some p) (hc : feChanges x.acc.fe = false) :
    s.stackAccess x none = ({ s.setStack (stackOf x.acc.addr) (s.stack (stackOf x.acc.addr)) with memory := p.mem }, .done p.value p.flags) := by
  simp [State.stackAccess, accessAt_plain _ _ _ _ _ _ p hq hf hp hc]

end Sys2Proof.Machine
end

