-- ==== Sys2Proof/Machine/Asm.lean ====
section
/-! DEFINITION. The assembly language from its statements to the words and the launch image (03 R61 to R75, R473). A statement is what a source
line says once it has been read: names are strings, numbers are numbers. -/

namespace Sys2Proof.Asm

open Sys2Proof.Machine

/-- Why the assembler or the linker rejects a file (03 R61 to R74). -/
inductive Err where
  | undefined (name : String)
  | redefined (name : String)
  | cycle
  | divisionByZero
  | notAnAddress (name : String)
  | notAName (name : String)
  | notASource (name : String)
  | notADestination (name : String)
  | range
  | conflict
  | guard
  | noSection
  | alignment
  | field (name : String)
  | directive
  | entry
  deriving DecidableEq, Repr

/-! ## Expressions (03 R66) -/

inductive BinOp where
  | add | sub | mul | div | mod | shl | shr | and | xor | or
  deriving DecidableEq, Repr

inductive Expr where
  | num (n : Int)
  | here
  | sym (x : String)
  | seg (x : String)
  | gaddr (x : String)
  | rel (x : String)
  | plus (e : Expr)
  | neg (e : Expr)
  | not (e : Expr)
  | bin (op : BinOp) (a b : Expr)
  deriving DecidableEq, Repr

/-- A place: a segment, its code or data section, and the offset in the segment. -/
structure Place where
  seg : Nat
  code : Bool
  off : Nat
  deriving DecidableEq, Repr

/-- What a symbol stands for: a place, a place whose offset is not known yet (03 R473), or an expression where it was defined. -/
inductive Def where
  | label (p : Place)
  | late (p : Place)
  | equ (p : Place) (e : Expr)
  deriving DecidableEq, Repr

abbrev Env := List (String × Def)

def Env.find (env : Env) (x : String) : Option Def := (List.find? (fun e => e.1 == x) env).map (·.2)

/-- AND of unbounded integers in two's complement. -/
def andInt : Int → Int → Int
  | .ofNat a, .ofNat b => .ofNat (a &&& b)
  | .ofNat a, .negSucc b => .ofNat (a - (a &&& b))
  | .negSucc a, .ofNat b => .ofNat (b - (a &&& b))
  | .negSucc a, .negSucc b => .negSucc (a ||| b)

def notInt (a : Int) : Int := -a - 1

/-- The operators with the meanings of 00 R7. A negative shift count is an error (notes/assumptions/90.md). -/
def BinOp.eval (a b : Int) : BinOp → Except Err Int
  | .add => .ok (a + b)
  | .sub => .ok (a - b)
  | .mul => .ok (a * b)
  | .div => if b = 0 then .error .divisionByZero else .ok (a.tdiv b)
  | .mod => if b = 0 then .error .divisionByZero else .ok (a.tmod b)
  | .shl => if b < 0 then .error .range else .ok (a * 2 ^ b.toNat)
  | .shr => if b < 0 then .error .range else .ok (a / 2 ^ b.toNat)
  | .and => .ok (andInt a b)
  | .or => .ok (notInt (andInt (notInt a) (notInt b)))
  | .xor => .ok (andInt (notInt (andInt (notInt a) (notInt b))) (notInt (andInt a b)))

/-- The place of a label. -/
def Env.place (env : Env) (x : String) : Except Err Place :=
  match env.find x with
  | none => .error (.undefined x)
  | some (.label p) => .ok p
  | some (.late p) => .ok p
  | some (.equ _ _) => .error (.notAnAddress x)

/-- The place of a label whose offset is known. -/
def Env.fixed (env : Env) (x : String) : Except Err Place :=
  match env.find x with
  | some (.late _) => .error (.undefined x)
  | _ => env.place x

/-- The value of an expression in the word at p, given that of each symbol. -/
def Expr.value (val : String → Except Err Int) (env : Env) (p : Place) : Expr → Except Err Int
  | .num n => .ok n
  | .here => .ok p.off
  | .sym x => val x
  | .seg x => (env.place x).map (fun q => (q.seg : Int))
  | .gaddr x => (env.fixed x).map (fun q => (q.seg * 2 ^ 61 + q.off : Int))
  | .rel x => (env.place x).bind (fun q => if q.seg = p.seg ∧ q.code = p.code then .ok (q.off - p.off : Int) else .error (.notAnAddress x))
  | .plus e => e.value val env p
  | .neg e => (e.value val env p).map (fun v => -v)
  | .not e => (e.value val env p).map (fun v => (2 ^ 64 - 1 - v % 2 ^ 64 : Int))
  | .bin op a b => (a.value val env p).bind (fun x => (b.value val env p).bind (fun y => op.eval x y))

/-- The value of a symbol; the number bounds the depth of .equ references, so that a cycle is an error. -/
def Env.value (env : Env) : Nat → String → Except Err Int
  | 0, _ => .error .cycle
  | n + 1, x =>
    match env.find x with
    | none => .error (.undefined x)
    | some (.label p) => .ok p.off
    | some (.late _) => .error (.undefined x)
    | some (.equ p e) => e.value (env.value n) env p

/-- An expression in the word at p. -/
def Expr.at_ (e : Expr) (env : Env) (p : Place) : Except Err Int := e.value (env.value (env.length + 1)) env p

/-- Some leaf of an expression is as p says. -/
def Expr.any (p : Expr → Bool) : Expr → Bool
  | .plus e => e.any p
  | .neg e => e.any p
  | .not e => e.any p
  | .bin _ a b => a.any p || b.any p
  | e => p e

def Expr.hasGaddr (e : Expr) : Bool :=
  e.any (fun x => match x with
    | .gaddr _ => true
    | _ => false)

def Expr.hasHere (e : Expr) : Bool := e.any (· == .here)

/-- An expression with its symbols renamed. -/
def Expr.rename (f : String → String) : Expr → Expr
  | .sym x => .sym (f x)
  | .seg x => .seg (f x)
  | .gaddr x => .gaddr (f x)
  | .rel x => .rel (f x)
  | .plus e => .plus (e.rename f)
  | .neg e => .neg (e.rename f)
  | .not e => .not (e.rename f)
  | .bin op a b => .bin op (a.rename f) (b.rename f)
  | e => e

/-! ## Relocations (03 R74) -/

inductive Reloc where
  | abs12 | abs44 | abs64 | pcrel12 | pcrel44
  deriving DecidableEq, Repr

/-- A value put into its field of a word; here is the word's own offset. moveA says that the field is move A's. -/
def Reloc.apply (r : Reloc) (moveA : Bool) (w : Word) (v here : Int) : Except Err Word :=
  let pair (v : Int) : Except Err Word :=
    let lo := if moveA then 31 else 0
    if -2048 ≤ v ∧ v < 2048 then .ok (BitVec.ofNat 64 (w.toNat - bitsOf w.toNat lo 12 * 2 ^ lo + (v % 2 ^ 12).toNat * 2 ^ lo)) else .error .range
  let long (v : Int) : Except Err Word :=
    if -(2 ^ 43) ≤ v ∧ v < 2 ^ 43 then .ok (BitVec.ofNat 64 (w.toNat - bitsOf w.toNat 0 44 + (v % 2 ^ 44).toNat)) else .error .range
  match r with
  | .abs12 => pair v
  | .pcrel12 => pair (v - here)
  | .abs44 => long v
  | .pcrel44 => long (v - here)
  | .abs64 => if -(2 ^ 63) ≤ v ∧ v < 2 ^ 64 then .ok (BitVec.ofInt 64 v) else .error .range

/-- A field that waits for a symbol of another file: the word at off in its piece, the relocation, and the expression. -/
structure Fixup where
  off : Nat
  kind : Reloc
  moveA : Bool
  e : Expr
  deriving DecidableEq, Repr

/-- The relocation of an expression that stands alone in a field: relative where it is a rel. -/
def Expr.kind (e : Expr) (abs rel : Reloc) : Reloc :=
  match e with
  | .rel _ => rel
  | _ => abs

/-- The value of an expression, or none where it names a symbol that is not known here. -/
def Expr.knownAt (e : Expr) (env : Env) (p : Place) : Except Err (Option Int) :=
  match e.at_ env p with
  | .ok v => .ok (some v)
  | .error (.undefined _) => .ok none
  | .error x => .error x

/-- The value that a field takes now, and what is left for the linker. -/
def Expr.field (e : Expr) (env : Env) (p : Place) (lo hi : Int) (fix : Fixup) : Except Err (Int × List Fixup) :=
  (e.knownAt env p).bind (fun v => match v with
    | none => .ok (0, [fix])
    | some v => if lo ≤ v ∧ v < hi then .ok (v, []) else .error .range)

/-! ## Names (03 R62, 02 R38, R39, R43, R45, R49) -/

/-- The operations of each trigger block, in order. -/
def opNames : List (Nat × List String) :=
  [(0x100, ["alu.add", "alu.sub", "alu.rsub", "alu.and", "alu.or", "alu.xor", "alu.andn", "alu.min", "alu.max", "alu.minz", "alu.maxz", "alu.addw", "alu.subw",
      "alu.adds", "alu.addz"]),
   (0x140, ["sh.sll", "sh.srl", "sh.sra", "sh.rotl", "sh.rotr", "sh.ext", "sh.extz", "sh.ins", "sh.clz", "sh.ctz", "sh.popc", "sh.brev", "sh.bswap", "sh.sllw",
      "sh.srlw", "sh.sraw"]),
   (0x180, ["mul.lo", "mul.hi", "mul.hiz", "mul.hisz", "mul.w"]),
   (0x1C0, ["div.div", "div.divz", "div.rem", "div.remz", "div.divw", "div.remw"]),
   (0x200, ["cmp.eq", "cmp.ne", "cmp.lt", "cmp.ltz", "cmp.le", "cmp.lez", "cmp.bset", "cmp.bclr"]),
   (0x240, ["adr.mk", "adr.seg", "adr.off", "adr.inseg", "adr.tocw", "adr.topan", "adr.space"]),
   (0x280, ["br.jmp", "br.jmprel", "br.call", "br.callrel", "br.loop"]),
   (0x2C0, ["lsu.ld8", "lsu.ld8z", "lsu.ld16", "lsu.ld16z", "lsu.ld32", "lsu.ld32z", "lsu.ld64", "lsu.ld128", "lsu.st8", "lsu.st16", "lsu.st32", "lsu.st64",
      "lsu.st128"]),
   (0x300, ["amo.add", "amo.and", "amo.or", "amo.xor", "amo.min", "amo.max", "amo.minz", "amo.maxz", "amo.swap", "amo.cas", "amo.fadd"]),
   (0x340, ["flt.add", "flt.sub", "flt.mul", "flt.div", "flt.sqrt", "flt.fma", "flt.min", "flt.max", "flt.eq", "flt.lt", "flt.le", "flt.class", "flt.cvt",
      "flt.tdec", "flt.tenc"]),
   (0x380, ["strand.spawn", "strand.join", "strand.exit", "strand.yield", "strand.sleep", "strand.wake", "strand.prio", "strand.kill"]),
   (0x3C0, ["msg.wait", "msg.take", "pool.put", "pool.take", "pool.close", "q.arm", "q.wait"]),
   (0x400, ["sem.post", "sem.add", "sem.wait", "sem.try", "sem.arm", "sem.read", "sem.reset"]),
   (0x440, ["bar.arrive", "bar.wait", "bar.sync", "bar.max", "bar.maxf", "bar.sum", "bar.and", "bar.or"]),
   (0x480, ["ord.fence", "ord.acq", "ord.rel", "ord.icsync", "ord.cinv", "ord.cwb"]),
   (0x4C0, ["sys.trap", "sys.stop", "sys.rd", "sys.wr", "sys.go", "sys.drain"]),
   (0x500, ["dbg.brk", "dbg.mark", "dbg.step", "mnt.spare", "mnt.notice", "mnt.state", "mnt.discard"]),
   (0x600, ["cpy.copy", "cpy.fill", "cpy.gather", "cpy.scatter", "cpy.plane", "cpy.mcast", "cpy.mapinval"]),
   (0x640, ["mx.mma", "mx.gmma", "mx.zero", "mx.load", "mx.store"]),
   (0x680, ["vx.add", "vx.sub", "vx.mul", "vx.fma", "vx.min", "vx.max", "vx.abs", "vx.scale", "vx.exp2", "vx.log2", "vx.rcp", "vx.rsqrt", "vx.cmp", "vx.sel",
      "vx.rowsum", "vx.rowmax", "vx.colsum", "vx.blkmax", "vx.quant", "vx.dequant", "vx.cvt", "vx.tblset", "vx.tblenc", "vx.tbldec"]),
   (0x6C0, ["fab.ld", "fab.st", "fab.amo", "fab.send", "fab.spawn", "pan.attach", "pan.detach", "pan.exit", "pan.state"]),
   (0x700, ["col.rscat", "col.agath", "col.aredc", "col.bcast", "col.weights"])]

/-- The operand ports from 0x40 on. -/
def portNames : List String :=
  ["alu.o", "sh.o", "sh.p", "mul.o", "div.o", "cmp.o", "adr.o", "br.o", "strand.o", "strand.p", "msg.o", "lsu.a", "lsu.m", "lsu.d", "lsu.e", "amo.a", "amo.m",
   "amo.c", "flt.o", "flt.p", "flt.q", "sem.o", "bar.o", "ord.o", "sys.o", "dbg.o", "cpy.o", "mx.o", "vx.o", "fab.a", "fab.m", "fab.d", "col.o"]

/-- The result ports from 0x40 on. -/
def resNames : List String :=
  ["alu.res", "sh.res", "mul.res", "div.res", "cmp.res", "adr.res", "br.res", "strand.res", "msg.res", "lsu.res", "lsu.resh", "amo.res", "flt.res", "sem.res",
   "bar.res", "sys.res", "dbg.res", "cpy.res", "mx.res", "vx.res", "fab.res", "col.res"]

/-- The registers from 0 on: x0 to x31, then g0 to g7. -/
def regNames : List String := (List.range 32).map (fun n => "x" ++ toString n) ++ (List.range 8).map (fun n => "g" ++ toString n)

/-- The status ports from 0x80 on. -/
def statusNames : List String := ["free.cpy", "free.mx", "free.vx", "free.fab", "free.col"]

/-- The special registers by number. -/
def specialNames : List (Nat × List String) :=
  [(0, ["strandid", "gsi", "cellinfo", "geom", "paninfo", "priv", "cycles", "flitcap"]), (0x10, ["fflags", "fmode", "srseed", "waitdesc"]),
   (0x20, (List.range 8).flatMap (fun k => ["seg" ++ toString k ++ "l", "seg" ++ toString k ++ "h"]))]

/-- The number of a name in a list that starts at base. -/
def indexFrom (base : Nat) (names : List String) (x : String) : Option Nat :=
  let k := names.findIdx (· == x)
  if k < names.length then some (base + k) else none

/-- The number of a name in lists with their bases. -/
def indexIn (t : List (Nat × List String)) (x : String) : Option Nat := t.findSome? (fun e => indexFrom e.1 e.2 x)

/-- What a predefined name is as a destination and as a source; names are in lower case here. -/
def nameDst (x : String) : Option Nat :=
  (indexFrom 0 regNames x).or ((indexFrom 0x40 portNames x).or ((indexIn opNames x).or ((indexIn specialNames x).map (0x800 + ·))))

def nameSrc (x : String) : Option Nat :=
  (indexFrom 0 regNames x).or ((indexFrom 0x40 resNames x).or ((indexFrom 0x80 statusNames x).or ((indexIn specialNames x).map (0x100 + ·))))

/-- An operand: a predefined name, or a bare number, which is a raw address and is not checked. port is an address that an expansion gives. -/
inductive Operand where
  | name (x : String)
  | raw (n : Nat)
  | port (n : Nat)
  deriving DecidableEq, Repr

def Operand.dst : Operand → Except Err Nat
  | .raw n => if n < 2 ^ 14 then .ok n else .error .range
  | .port n => .ok n
  | .name x =>
    match nameDst x.toLower with
    | some n => .ok n
    | none => if (nameSrc x.toLower).isSome then .error (.notADestination x) else .error (.notAName x)

def Operand.src : Operand → Except Err Nat
  | .raw n => if n < 2 ^ 12 then .ok n else .error .range
  | .port n => .ok n
  | .name x =>
    match nameSrc x.toLower with
    | some n => .ok n
    | none => if (nameDst x.toLower).isSome then .error (.notASource x) else .error (.notAName x)

/-! ## Moves and words (03 R63 to R65) -/

/-- A guard: inverted or not, and its register. -/
abbrev Guard := Option (Bool × Nat)

def guardBits : Guard → Except Err (BitVec 4)
  | none => .ok 0
  | some (inv, n) => if n < 8 then .ok (BitVec.ofNat 4 ((if inv then 8 else 0) + n)) else .error .guard

inductive Source where
  | op (o : Operand)
  | imm (e : Expr)
  deriving DecidableEq, Repr

/-- guard source -> destination. -/
structure AMove where
  guard : Guard
  src : Source
  dst : Operand
  deriving DecidableEq, Repr

/-- The form of one word, chosen before every value is known. pad is the all-zero word that is placed before a literal pair. -/
inductive Form where
  | pair (a : AMove) (b : Option AMove)
  | pad
  | long (m : AMove)
  | literal (m : AMove)
  deriving DecidableEq, Repr

def Form.bytes : Form → Nat
  | .literal _ => 16
  | _ => 8

/-- A move of a pair word; an immediate must lie in -2,048 to 2,047. -/
def AMove.encode (m : AMove) (env : Env) (p : Place) (moveA : Bool) : Except Err (Move × List Fixup) :=
  (guardBits m.guard).bind (fun g => (m.dst.dst).bind (fun d =>
    match m.src with
    | .op o => (o.src).map (fun a => (⟨g, BitVec.ofNat 14 d, false, BitVec.ofNat 12 a⟩, []))
    | .imm e => (e.field env p (-2048) 2048 ⟨0, e.kind .abs12 .pcrel12, moveA, e⟩).map (fun v => (⟨g, BitVec.ofNat 14 d, true, BitVec.ofInt 12 v.1⟩, v.2))))

/-- The immediate of a long word or a literal pair. -/
def AMove.immediate (m : AMove) (env : Env) (p : Place) (lo hi : Int) (fix : Expr → Fixup) : Except Err (BitVec 4 × BitVec 14 × Int × List Fixup) :=
  (guardBits m.guard).bind (fun g => (m.dst.dst).bind (fun d =>
    match m.src with
    | .op _ => .error .range
    | .imm e => (e.field env p lo hi (fix e)).map (fun v => (g, BitVec.ofNat 14 d, v))))

/-- What is found of two moves in one word: nothing, a warning, or an error (03 R65). -/
inductive Verdict where
  | fine | warning | error
  deriving DecidableEq, Repr

def judge (ga gb : Guard) (a b : Move) : Verdict :=
  if !conflicts (DMove.ofMove a false) (DMove.ofMove b true) then .fine
  else
    match ga, gb with
    | some (i, m), some (j, n) => if m = n then (if i = j then .error else .fine) else .warning
    | _, _ => .error

/-- What becomes of something laid out: its words or bytes, whether the assembler warns (03 R65), and the fields left for the linker (03 R74). -/
structure Emitted (α : Type) where
  data : List α
  warns : Bool
  fixups : List Fixup
  deriving DecidableEq, Repr

/-- The words of a form (03 R64). -/
def Form.encode (f : Form) (env : Env) (p : Place) : Except Err (Emitted Word) :=
  match f with
  | .pad => .ok ⟨[0], false, []⟩
  | .pair a none => (a.encode env p true).map (fun x => ⟨[pairWord x.1 Move.nop], false, x.2⟩)
  | .pair a (some b) => (a.encode env p true).bind (fun x => (b.encode env p false).bind (fun y =>
      match judge a.guard b.guard x.1 y.1 with
      | .fine => .ok ⟨[pairWord x.1 y.1], false, x.2 ++ y.2⟩
      | .warning => .ok ⟨[pairWord x.1 y.1], true, x.2 ++ y.2⟩
      | .error => .error .conflict))
  | .long m => (m.immediate env p (-(2 ^ 43)) (2 ^ 43) (fun e => ⟨0, e.kind .abs44 .pcrel44, true, e⟩)).map (fun (g, d, v) =>
      ⟨[(1#2 ++ g ++ d ++ BitVec.ofInt 44 v.1 : BitVec 64)], false, v.2⟩)
  | .literal m => (m.immediate env p (-(2 ^ 63)) (2 ^ 64) (fun e => ⟨8, .abs64, true, e⟩)).map (fun (g, d, v) =>
      ⟨[(2#2 ++ g ++ d ++ 0#44 : BitVec 64), BitVec.ofInt 64 v.1], false, v.2⟩)

/-- A literal pair at an offset, with the all-zero word before it where bit 3 of the offset is set. -/
def literalAt (m : AMove) (p : Place) : List Form :=
  if p.off % 16 = 8 then [.pad, .literal m] else [.literal m]

/-- The form of a lone move, by what is known when its line is assembled (03 R64). -/
def loneForm (m : AMove) (known : Env) (p : Place) : Except Err (List Form) :=
  match m.src with
  | .op _ => .ok [.pair m none]
  | .imm e =>
    if e.hasGaddr then .ok (literalAt m p)
    else
      match e.at_ known p with
      | .ok v =>
        if -2048 ≤ v ∧ v < 2048 then .ok [.pair m none]
        else if -(2 ^ 43) ≤ v ∧ v < 2 ^ 43 then .ok [.long m]
        else if -(2 ^ 63) ≤ v ∧ v < 2 ^ 64 then .ok (literalAt m p)
        else .error .range
      | .error (.undefined _) => .ok [.long m]
      | .error x => .error x

/-! ## Shorthand forms (03 R70, R71) -/

/-- The operation that a mnemonic stands for: its trigger, its first operand port and its result port. -/
def shorthand (m : String) : Option (Nat × Nat × Nat) :=
  let named : Option Nat :=
    match m with
    | "mul" => some 0x180 | "mulh" => some 0x181 | "mulhz" => some 0x182 | "mulhsz" => some 0x183 | "mulw" => some 0x184
    | "sll" => some 0x140 | "srl" => some 0x141 | "sra" => some 0x142 | "rotl" => some 0x143 | "rotr" => some 0x144
    | _ => (indexIn opNames ("alu." ++ m)).or ((indexIn opNames ("div." ++ m)).or (indexIn opNames ("cmp." ++ m)))
  named.bind (fun d =>
    if d < 0x140 then some (d, 0x40, 0x40) else if d < 0x180 then some (d, 0x41, 0x41) else if d < 0x1C0 then some (d, 0x43, 0x42)
    else if d < 0x200 then some (d, 0x44, 0x43) else some (d, 0x45, 0x44))

/-- A destination that a shorthand form may have: a register or a special register. -/
def formDst (o : Operand) : Except Err Unit :=
  match o with
  | .raw _ | .port _ => .error .directive
  | .name x => if (indexFrom 0 regNames x.toLower).isSome || (indexIn specialNames x.toLower).isSome then .ok () else .error (.notADestination x)

/-- A statement of one line. -/
inductive Stmt where
  | pair (a b : AMove)
  | lone (m : AMove)
  | nop (g : Guard)
  | mov (g : Guard) (d : Operand) (s : Source)
  | jmp (g : Guard) (x : String)
  | call (g : Guard) (x : String)
  | ret (g : Guard)
  | op (g : Guard) (m : String) (d : Operand) (a b : Source)
  deriving DecidableEq, Repr

/-- The forms of a statement at an offset. -/
def Stmt.forms (s : Stmt) (known : Env) (p : Place) : Except Err (List Form) :=
  match s with
  | .pair a b => .ok [.pair a (some b)]
  | .lone m => loneForm m known p
  | .nop g =>
    let m : AMove := ⟨g, .op (.port 0), .port 0⟩
    .ok [.pair m (g.map (fun _ => m))]
  | .mov g d a => loneForm ⟨g, a, d⟩ known p
  | .jmp g x => loneForm ⟨g, .imm (.rel x), .port 0x281⟩ known p
  | .call g x => loneForm ⟨g, .imm (.rel x), .port 0x283⟩ known p
  | .ret g => .ok [.pair ⟨g, .op (.port 30), .port 0x280⟩ none]
  | .op g m d a b =>
    match shorthand m.toLower with
    | none => .error (.notAName m)
    | some (t, o, r) => (formDst d).map (fun _ => [.pair ⟨g, a, .port o⟩ (some ⟨g, b, .port t⟩), .pair ⟨g, .op (.port r), d⟩ none])

/-! ## Command blocks (03 R69) -/

/-- The fields of a block: name, lowest bit and width, counted over the 64 bytes. A field of width 0 is one that the operation reserves: it is always zero. -/
abbrev Layout := List (String × Nat × Nat)

/-- The value of a field of a block; 0 where the layout has none of that name. -/
def Layout.get (l : Layout) (v : Nat) (x : String) : Nat :=
  match l.find? (fun f => f.1 == x) with
  | some (_, lo, w) => bitsOf v lo w
  | none => 0

/-- The fields that another field of the block reserves are zero (12 R294, 13 R326, R339). -/
def Layout.reservedZero (l : Layout) (v : Nat) : Bool :=
  let clear (xs : List String) : Bool := xs.all (fun x => l.get v x == 0)
  let table (x : String) : Bool := l.get v x == 7 || l.get v x == 8
  let scaled := l.any (fun f => f.1 == "scf" && f.2.2 != 0)
  (if l.get v "yimm" = 1 then clear ["yfmt", "yaddr", "ystride"] else clear ["imm"]) && (l.get v "gate" == 1 || clear ["gsem", "gstep"])
    && (l.get v "bpost" == 1 || clear ["bsem"]) && (l.get v "pan" == 0 || clear ["cluster"]) && (!scaled || table "xfmt" || table "dfmt" || clear ["tbl"])

/-- A layout in which an operation reserves some fields. -/
def Layout.reserve (l : Layout) (names : List String) : Layout := l.map (fun f => if names.contains f.1 then (f.1, f.2.1, 0) else f)

/-- 10 R245, R246. -/
def copyLayout : Nat → Layout
  | 1 => common ++ [("smap", 64, 0), ("dmap", 128, 64), ("valuel", 192, 64), ("valueh", 256, 64)]
  | 2 => common ++ [("smap", 64, 64), ("dmap", 128, 64), ("idx", 192, 64), ("count", 256, 25), ("iwidth", 288, 1)]
  | 3 => common ++ [("smap", 64, 64), ("dmap", 128, 64), ("idx", 192, 64), ("count", 256, 25), ("iwidth", 288, 1)]
  | 5 => common ++ [("smap", 64, 64), ("dmap", 128, 64), ("maskl", 192, 64), ("maskh", 256, 32)]
  | _ => common ++ [("smap", 64, 64), ("dmap", 128, 64)]
where
  common : Layout := [("op", 0, 8), ("arrive", 8, 1), ("serial", 9, 1), ("few", 10, 2), ("asem", 16, 10)]

/-- 11 R272: mx.mma reserves the grid origin. -/
def passLayout (op : Nat) : Layout :=
  Layout.reserve (names := if op = 0 then ["gc", "gr"] else [])
  [("op", 0, 8), ("rm", 8, 3), ("occen", 11, 1), ("afmt", 16, 4), ("bfmt", 20, 4), ("ascf", 24, 2), ("bscf", 26, 2), ("aax", 28, 1), ("bax", 29, 1), ("acc", 32, 4),
   ("tbla", 36, 2), ("tblb", 38, 2), ("gc", 40, 4), ("gr", 44, 4), ("m", 48, 10), ("n", 64, 10), ("k", 80, 20), ("asstride", 112, 16), ("aaddr", 128, 64),
   ("astride", 192, 32), ("boff", 224, 22), ("asc", 256, 64), ("bsc", 320, 64), ("occ", 384, 64), ("seed", 448, 32)]

/-- 11 R281, by operation. -/
def transferLayout (op : Nat) : Layout :=
  Layout.reserve (names := (if op = 2 then ["rm", "fmt", "acc", "m", "n", "addr", "stride"] else ["tiles"]) ++ if op = 4 then [] else ["sat", "few"])
  [("op", 0, 8), ("rm", 8, 3), ("sat", 11, 1), ("few", 12, 2), ("fmt", 16, 4), ("acc", 32, 4), ("tiles", 48, 16), ("m", 64, 7), ("n", 80, 7), ("trow", 96, 6),
   ("tcol", 104, 6), ("addr", 128, 64), ("stride", 192, 32), ("seed", 448, 32)]

/-- The fields that a vector operation does not use (12 R294), but for those that other fields of the block decide. -/
def vectorReserved (op : Nat) : List String :=
  let y := op ≤ 5 || op == 7 || op == 12 || op == 13
  let sc := op == 18 || op == 19
  let absent (b : Bool) (l : List String) : List String := if b then [] else l
  absent y ["yfmt", "yaddr", "ystride", "yimm", "imm"] ++ absent (op == 3 || op == 13) ["zfmt", "zaddr", "zstride"]
    ++ absent (op != 21) ["rm", "sat", "seed", "few", "dfmt", "daddr", "dstride"] ++ absent sc ["scf", "scaddr", "scstride"]
    ++ absent (op == 12) ["sub"] ++ absent (sc || 21 ≤ op) ["tbl"]

/-- 12 R293, by operation. -/
def vectorLayout (op : Nat) : Layout :=
  Layout.reserve (names := vectorReserved op)
  [("op", 0, 8), ("rm", 8, 3), ("sat", 11, 1), ("few", 12, 2), ("xfmt", 16, 4), ("yfmt", 20, 4), ("zfmt", 24, 4), ("dfmt", 28, 4), ("sub", 32, 4), ("tbl", 36, 2),
   ("scf", 38, 2), ("yimm", 40, 1), ("cols", 48, 16), ("rows", 64, 16), ("imm", 96, 32), ("xaddr", 128, 21), ("yaddr", 160, 21), ("zaddr", 192, 21),
   ("daddr", 224, 21), ("xstride", 256, 32), ("ystride", 288, 32), ("zstride", 320, 32), ("dstride", 352, 32), ("scaddr", 384, 21), ("scstride", 416, 32),
   ("seed", 448, 32)]

/-- 13 R326: fab.spawn reserves RING. -/
def messageLayout (op : Nat) : Layout :=
  Layout.reserve (names := if op = 4 then ["ring"] else [])
  [("op", 0, 8), ("ring", 8, 3), ("pan", 11, 1), ("dest", 16, 9), ("cluster", 32, 3), ("core", 40, 7), ("payload", 64, 64)]

/-- 13 R339, R345: only col.bcast has a ROOT. -/
def ringLayout (op : Nat) : Layout :=
  Layout.reserve (names := if op = 3 then [] else ["root"])
  [("op", 0, 8), ("dim", 8, 2), ("gate", 10, 1), ("bpost", 11, 1), ("fmt", 12, 4), ("root", 16, 3), ("tag", 32, 32), ("src", 64, 64), ("dst", 128, 64),
   ("count", 192, 40), ("bucket", 256, 32), ("gsem", 288, 10), ("bsem", 304, 10), ("gstep", 320, 32)]

def weightsLayout : Layout := [("op", 0, 8), ("cpyw", 8, 4), ("colw", 12, 4), ("strw", 16, 4)]

/-- The fields of the block of an operation that takes one. -/
def layoutOf (op : Nat) : Option Layout :=
  if 0x600 ≤ op ∧ op < 0x606 then some (copyLayout (op - 0x600))
  else if op = 0x640 ∨ op = 0x641 then some (passLayout (op - 0x640))
  else if 0x642 ≤ op ∧ op < 0x645 then some (transferLayout (op - 0x640))
  else if 0x680 ≤ op ∧ op < 0x698 then some (vectorLayout (op - 0x680))
  else if op = 0x6C3 ∨ op = 0x6C4 then some (messageLayout (op - 0x6C0))
  else if 0x700 ≤ op ∧ op < 0x704 then some (ringLayout (op - 0x700))
  else if op = 0x704 then some weightsLayout
  else none

/-- The fields that hold signed values (12 R293). -/
def signedFields : List String := ["xstride", "ystride", "zstride", "dstride", "scstride"]

/-- The block that field lines make: a field not written is 0; one written twice, out of its width, or reserved and not zero is an error. Field names are case-insensitive
(notes/assumptions/90.md). -/
def fieldsBlock (l : Layout) (env : Env) (p : Place) : List (String × Expr) → List String → Nat → Except Err Nat
  | [], _, acc => if l.reservedZero acc then .ok acc else .error (.field "reserved")
  | (x, e) :: r, seen, acc =>
    let x := x.toLower
    if seen.contains x then .error (.field x)
    else
      match l.find? (fun f => f.1 == x) with
      | none => .error (.field x)
      | some (_, lo, w) => (e.at_ env p).bind (fun v =>
          if (if signedFields.contains x && w != 0 then -(2 ^ (w - 1)) else 0) ≤ v ∧ v < 2 ^ w then fieldsBlock l env p r (x :: seen) (acc + (v % 2 ^ w).toNat * 2 ^ lo) else .error (.field x))

/-! ## Files: directives, layout and emission (03 R67, R68, R473) -/

inductive Item where
  | label (x : String)
  | stmt (s : Stmt)
  | text
  | data
  | segment (n : Nat)
  | align (n : Nat)
  | values (bytes : Nat) (es : List Expr)
  | lit (e : Expr)
  | cell (sems store spawn : Expr)
  | entry (x : String)
  | handler (x : String)
  | equ (x : String) (e : Expr)
  | global (x : String)
  | block (x : String) (op : String) (fields : List (String × Expr))
  deriving DecidableEq, Repr

/-- Something laid out, whose bytes are made when every symbol is known. -/
inductive Piece where
  | form (f : Form)
  | zeros (n : Nat)
  | value (bytes : Nat) (e : Expr)
  | raw (e : Expr)
  | block (l : Layout) (fields : List (String × Expr))
  deriving DecidableEq, Repr

/-- The layout of a file so far. cur is the current section; ends holds the next offset of each section that has begun. -/
structure File where
  seg : Nat
  cur : Option Bool
  ends : List ((Nat × Bool) × Nat × Nat)
  env : Env
  pieces : List (Place × Piece)
  attrs : Option (Place × Expr × Expr × Expr)
  entry : Option String
  handler : Option String
  globals : List String
  deriving DecidableEq, Repr

/-- Where sections start: those an option gives, and the data section of segment 7 (03 R473). -/
structure Starts where
  given : List ((Nat × Bool) × Nat)
  data7 : Nat
  deriving DecidableEq, Repr

def Starts.of (st : Starts) (seg : Nat) (code : Bool) : Nat :=
  match st.given.find? (fun e => e.1 == (seg, code)) with
  | some e => e.2
  | none => if seg = 7 && !code then st.data7 else 0

/-- The data section of segment 7 has a start that is known only at the end of the file. -/
def Starts.late (st : Starts) (p : Place) : Bool := p.seg == 7 && !p.code && !st.given.any (fun e => e.1 == (7, false))

/-- The current place. -/
def File.here (f : File) (st : Starts) : Except Err Place :=
  match f.cur with
  | none => .error .noSection
  | some code =>
    match f.ends.find? (fun e => e.1 == (f.seg, code)) with
    | some e => .ok ⟨f.seg, code, e.2.2⟩
    | none => .ok ⟨f.seg, code, st.of f.seg code⟩

/-- A piece of n bytes at the current place. -/
def File.put (f : File) (st : Starts) (n : Nat) (x : Piece) : Except Err File :=
  (f.here st).map (fun p =>
    let start := match f.ends.find? (fun e => e.1 == (p.seg, p.code)) with
      | some e => e.2.1
      | none => p.off
    { f with ends := f.ends.filter (fun e => e.1 != (p.seg, p.code)) ++ [((p.seg, p.code), start, p.off + n)], pieces := f.pieces ++ [(p, x)] })

/-- Pieces one after another. A dot in each is that piece's own offset: in a literal move the one after its pad, in a list of values each value's
(notes/assumptions/96.md). -/
def File.putAll (f : File) (st : Starts) : List (Nat × Piece) → Except Err File
  | [] => .ok f
  | (n, x) :: r => (f.put st n x).bind (fun g => g.putAll st r)

/-- A predefined name cannot be a symbol, and a symbol is defined once (03 R61). -/
def File.define (f : File) (x : String) (d : Def) : Except Err File :=
  if (nameDst x.toLower).isSome || (nameSrc x.toLower).isSome then .error (.notAName x)
  else if (f.env.find x).isSome then .error (.redefined x) else .ok { f with env := f.env ++ [(x, d)] }

/-- What is known of the symbols while a line is assembled (03 R64, R473): of a label of the data section of segment 7, its segment only. -/
def File.known (f : File) (st : Starts) : Env :=
  f.env.map (fun e => (e.1, match e.2 with
    | .label p => if st.late p then .late p else .label p
    | .equ p x => if st.late p && x.hasHere then .late p else .equ p x
    | .late p => .late p))

/-- Where an expression of a directive outside sections stands: a dot has a value only where a section is
current, and a rel is relative to offset 0 of the code section elsewhere (notes/assumptions/96.md). -/
def File.dot (f : File) (st : Starts) (es : List Expr) : Except Err Place :=
  if es.any Expr.hasHere then f.here st else .ok ((f.here st).toOption.getD ⟨f.seg, true, 0⟩)

/-- One line (03 R67). A statement stands in a code section at a multiple of 8 (notes/assumptions/90.md). -/
def File.line (st : Starts) (f : File) (x : Item) : Except Err File :=
  match x with
  | .label x => (f.here st).bind (fun p => f.define x (.label p))
  | .stmt s => (f.here st).bind (fun p =>
      if !p.code then .error .noSection
      else if p.off % 8 ≠ 0 then .error .alignment
      else (s.forms (f.known st) p).bind (fun fs => f.putAll st (fs.map (fun g => (g.bytes, Piece.form g)))))
  | .text => if f.seg = 7 then .ok { f with cur := some true } else .error .directive
  | .data => .ok { f with cur := some false }
  | .segment n => if n < 8 then .ok { f with seg := n, cur := none } else .error .directive
  | .align n =>
    if n ∈ (List.range 17).map (2 ^ ·) then (f.here st).bind (fun p => f.put st ((n - p.off % n) % n) (.zeros ((n - p.off % n) % n))) else .error .directive
  | .values k es => f.putAll st (es.map (fun e => (k, .value k e)))
  | .lit e => (f.here st).bind (fun p => if !p.code then .error .directive else if p.off % 8 ≠ 0 then .error .alignment else f.put st 8 (.raw e))
  | .cell a b c => if f.attrs.isSome then .error .directive else (f.dot st [a, b, c]).map (fun p => { f with attrs := some (p, a, b, c) })
  | .entry x => if f.entry.isSome then .error .entry else .ok { f with entry := some x }
  | .handler x => if f.handler.isSome then .error .directive else .ok { f with handler := some x }
  | .equ x e => (f.dot st [e]).bind (fun p => f.define x (.equ p e))
  | .global x => .ok { f with globals := f.globals ++ [x] }
  | .block x op fields =>
    match (indexIn opNames op.toLower).bind layoutOf with
    | none => .error (.notAName op)
    | some l => (f.here st).bind (fun p =>
        if p.code then .error .noSection
        else
          let pad := (64 - p.off % 64) % 64
          (f.put st pad (.zeros pad)).bind (fun f => (f.here st).bind (fun p =>
            (f.define x (.label p)).bind (fun f => f.put st 64 (.block l fields)))))

def File.lines (st : Starts) : List Item → File → Except Err File
  | [], f => .ok f
  | x :: r, f => (f.line st x).bind (fun f => File.lines st r f)

/-- The layout of a file: once to find where its code ends, and again with the data section of segment 7 after it (03 R473). -/
def File.layout (given : List ((Nat × Bool) × Nat)) (items : List Item) : Except Err File :=
  let start : File := ⟨7, none, [], [], [], none, none, none, []⟩
  if given.any (fun e => e.2 % 64 != 0) then .error .directive
  else
    (File.lines ⟨given, 0⟩ items start).bind (fun f =>
      let last := match f.ends.find? (fun e => e.1 == (7, true)) with
        | some e => e.2.2
        | none => 0
      File.lines ⟨given, (last + 63) / 64 * 64⟩ items start)

/-- n bytes of a number, the least significant first. -/
def numBytes (n v : Nat) : List Byte := (List.range n).map (fun k => BitVec.ofNat 8 (v / 256 ^ k))

/-- The bytes of a number of k bytes. A relocation fits one of 8 bytes only (03 R74). -/
def emitNumber (k : Nat) (e : Expr) (env : Env) (p : Place) : Except Err (Emitted Byte) :=
  if k = 8 then (e.field env p (-(2 ^ 63)) (2 ^ 64) ⟨0, .abs64, true, e⟩).map (fun v => ⟨numBytes 8 (v.1 % 2 ^ 64).toNat, false, v.2⟩)
  else (e.at_ env p).bind (fun v =>
    if -(2 ^ (8 * k - 1)) ≤ v ∧ v < 2 ^ (8 * k) then .ok ⟨numBytes k (v % 2 ^ (8 * k)).toNat, false, []⟩ else .error .range)

/-- The bytes of a piece. -/
def Piece.emit (x : Piece) (env : Env) (p : Place) : Except Err (Emitted Byte) :=
  match x with
  | .form f => (f.encode env p).map (fun w => ⟨w.data.flatMap (fun v => numBytes 8 v.toNat), w.warns, w.fixups⟩)
  | .zeros n => .ok ⟨List.replicate n 0, false, []⟩
  | .value k e => emitNumber k e env p
  | .raw e => emitNumber 8 e env p
  | .block l fields => (fieldsBlock l env p fields [] 0).map (fun v => ⟨numBytes 64 v, false, []⟩)

/-! ## Object files and the launch image (03 R72, R74, R473) -/

/-- A section of the image: segment, code or data, start, and contents. -/
structure Section where
  seg : Nat
  code : Bool
  start : Nat
  data : List Byte
  deriving DecidableEq, Repr

def emitAll (env : Env) : List (Place × Piece) → Except Err (List (Place × Emitted Byte))
  | [] => .ok []
  | (p, x) :: r => (x.emit env p).bind (fun b => (emitAll env r).map (fun l => (p, b) :: l))

/-- An object file: its sections, its relocations, its symbols and those it exports, what its directives name, and the places the assembler warned of. -/
structure Object where
  sections : List Section
  fixups : List (Place × Fixup)
  env : Env
  globals : List String
  attrs : Option (Place × Expr × Expr × Expr)
  entry : Option String
  handler : Option String
  warnings : List Place
  deriving DecidableEq, Repr

/-- Every .equ symbol has a value (03 R66); an assembler passes one that names a symbol of another file, a linker does not. -/
def equsOk (whole : Bool) (env : Env) : Env → Except Err Unit
  | [] => .ok ()
  | (x, .equ _ _) :: r =>
    match env.value (env.length + 1) x with
    | .error (.undefined y) => if whole then .error (.undefined y) else equsOk whole env r
    | .error e => .error e
    | .ok _ => equsOk whole env r
  | _ :: r => equsOk whole env r

/-- A laid-out file to its object. -/
def File.object (f : File) : Except Err Object :=
  (equsOk false f.env f.env).bind (fun _ => (emitAll f.env f.pieces).map (fun ps =>
    let here (e : (Nat × Bool) × Nat × Nat) (p : Place) : Bool := p.seg == e.1.1 && p.code == e.1.2
    ⟨f.ends.map (fun e => ⟨e.1.1, e.1.2, e.2.1, (ps.filter (fun x => here e x.1)).flatMap (·.2.data)⟩), ps.flatMap (fun x => x.2.fixups.map (fun k => (x.1, k))),
      f.env, f.globals, f.attrs, f.entry, f.handler, (ps.filter (·.2.warns)).map (·.1)⟩))

/-- An offset of code that .entry or .handler names. -/
def codeSymbol (env : Env) (x : String) : Except Err Nat :=
  (env.place x).bind (fun p => if p.seg = 7 ∧ p.code then .ok p.off else .error .entry)

/-- The header of R72. -/
def header (nsect entry : Nat) (handler : Option Nat) (sems store spawn : Nat) : List Byte :=
  numBytes 4 0x4D534C50 ++ numBytes 2 1 ++ numBytes 2 nsect ++ numBytes 8 entry ++ numBytes 8 (handler.getD (2 ^ 64 - 1)) ++ numBytes 2 sems
    ++ numBytes 1 (spawn + (if handler.isSome then 2 else 0)) ++ numBytes 5 0 ++ numBytes 8 store ++ numBytes 8 0 ++ numBytes 16 0

/-- The section table and the contents, each section's contents after those before it. -/
def table : Nat → List Section → List Byte × List Byte
  | _, [] => ([], [])
  | at_, s :: r =>
    let t := table (at_ + s.data.length) r
    (numBytes 1 s.seg ++ numBytes 1 (if s.code then 0 else 1) ++ numBytes 6 0 ++ numBytes 8 s.start ++ numBytes 8 s.data.length ++ numBytes 8 at_ ++ t.1,
      s.data ++ t.2)

/-- Sections of one segment that overlap are a link error (03 R473). -/
def meet (a b : Section) : Bool :=
  a.seg == b.seg && decide (a.start < b.start + b.data.length) && decide (b.start < a.start + a.data.length)

def anyMeet : List Section → Bool
  | [] => false
  | a :: r => r.any (meet a) || anyMeet r

/-- The name that a symbol of a file has among all the files. -/
def globalName (file : Nat) (x : String) : String := toString file ++ ":" ++ x

/-- What a name in a file stands for among all the files: its own symbol, else one that another file exports (03 R67). -/
def resolve (all : List Object) (file : Nat) (x : String) : String :=
  if ((all[file]?).map (fun o => (o.env.find x).isSome)).getD false then globalName file x
  else
    match all.findIdx? (fun o => o.globals.contains x && (o.env.find x).isSome) with
    | some k => globalName k x
    | none => x

/-- An object with every name resolved. -/
def Object.rename (o : Object) (all : List Object) (file : Nat) : Object :=
  let f := resolve all file
  { o with
    fixups := o.fixups.map (fun x => (x.1, { x.2 with e := x.2.e.rename f }))
    env := o.env.map (fun d => (globalName file d.1, match d.2 with
      | .equ p e => .equ p (e.rename f)
      | d => d))
    attrs := o.attrs.map (fun a => (a.1, a.2.1.rename f, a.2.2.1.rename f, a.2.2.2.rename f))
    entry := o.entry.map f
    handler := o.handler.map f }

/-- What a file exports and does not define, and a name that two files export (notes/assumptions/90.md). -/
def exportsOk (all : List Object) : Except Err Unit :=
  match all.flatMap (fun o => o.globals.filter (fun x => (o.env.find x).isNone)) with
  | x :: _ => .error (.undefined x)
  | [] =>
    match all.flatMap (fun o => o.globals.eraseDups) with
    | names => if names.length = names.eraseDups.length then .ok () else .error .directive

/-- n bytes of a section replaced from an offset of the segment on. -/
def Section.set (s : Section) (off : Nat) (l : List Byte) : Section :=
  { s with data := s.data.take (off - s.start) ++ l ++ s.data.drop (off - s.start + l.length) }

/-- The number that n bytes hold, the least significant first. -/
def bytesNum : List Byte → Nat
  | [] => 0
  | b :: r => b.toNat + 256 * bytesNum r

/-- One relocation, applied to the sections of its file. -/
def patch (env : Env) (x : Place × Fixup) : List Section → Except Err (List Section)
  | [] => .ok []
  | s :: r =>
    if s.seg = x.1.seg ∧ s.code = x.1.code then
      let off := x.1.off + x.2.off
      let w : Word := BitVec.ofNat 64 (bytesNum ((s.data.drop (off - s.start)).take 8))
      let v : Except Err Int := (x.2.e.at_ env x.1).map (fun v => if x.2.kind = .pcrel12 ∨ x.2.kind = .pcrel44 then v + off else v)
      (v.bind (fun v => x.2.kind.apply x.2.moveA w v off)).map (fun w => s.set off (numBytes 8 w.toNat) :: r)
    else (patch env x r).map (s :: ·)

def patchAll (env : Env) : List (Place × Fixup) → List Section → Except Err (List Section)
  | [], ss => .ok ss
  | x :: r, ss => (patch env x ss).bind (fun ss => patchAll env r ss)

/-- The sections of objects, with their relocations resolved. -/
def linkSections (env : Env) : List Object → Except Err (List Section)
  | [] => .ok []
  | o :: r => (patchAll env o.fixups o.sections).bind (fun s => (linkSections env r).map (fun t => s ++ t))

/-- The one that a directive names in all the files: at most one. -/
def onlyOne {α : Type} (l : List α) : Except Err (Option α) :=
  match l with
  | [] => .ok none
  | [a] => .ok (some a)
  | _ => .error .entry

/-- A constant of .cell in 0 to hi. -/
def constant (env : Env) (p : Place) (hi : Int) (e : Expr) : Except Err Nat :=
  (e.at_ env p).bind (fun v => if 0 ≤ v ∧ v ≤ hi then .ok v.toNat else .error .range)

/-- The attributes of .cell: SEMS, STORE and SPAWN, each 0 without one. -/
def attributes (env : Env) : Option (Place × Expr × Expr × Expr) → Except Err (Nat × Nat × Nat)
  | none => .ok (0, 0, 0)
  | some (p, a, b, c) =>
    (constant env p 1024 a).bind (fun x => (constant env p 0x180000 b).bind (fun y => (constant env p 1 c).map (fun z => (x, y, z))))

/-- The image of objects whose names are resolved: .entry stands in exactly one of them, .handler and .cell in at most one. -/
def image (env : Env) (os : List Object) (ss : List Section) : Except Err (List Byte) :=
  (onlyOne (os.filterMap (·.entry))).bind (fun e => (onlyOne (os.filterMap (·.handler))).bind (fun h => (onlyOne (os.filterMap (·.attrs))).bind (fun c =>
    match e with
    | none => .error .entry
    | some x =>
      let handler : Except Err (Option Nat) := match h with
        | none => .ok none
        | some y => (codeSymbol env y).map some
      (codeSymbol env x).bind (fun entry => handler.bind (fun handler => (attributes env c).map (fun a =>
        let t := table (64 + 32 * ss.length) ss
        header ss.length entry handler a.1 a.2.1 a.2.2 ++ t.1 ++ t.2))))))

/-- The linker: the image of object files. -/
def link (all : List Object) : Except Err (List Byte) :=
  (exportsOk all).bind (fun _ =>
    let os := (List.range all.length).zip all |>.map (fun o => o.2.rename all o.1)
    let env := os.flatMap (·.env)
    (equsOk true env env).bind (fun _ => (linkSections env os).bind (fun ss =>
      if anyMeet ss || decide (64 < ss.length) || ss.isEmpty then .error .directive else image env os ss)))

/-- The assembler: a source file's items to its object. -/
def assembleObject (given : List ((Nat × Bool) × Nat)) (items : List Item) : Except Err Object :=
  (File.layout given items).bind File.object

/-- One source file to its image. -/
def assemble (given : List ((Nat × Bool) × Nat)) (items : List Item) : Except Err (List Byte) :=
  (assembleObject given items).bind (fun o => link [o])

end Sys2Proof.Asm
end

