-- ==== Sys2Proof/Machine/AsmList.lean ====
section
/-! DEFINITION. The listing of an assembled file: location, word and statement, with the comments pad, raw and literal (03 R62, R75). -/

namespace Sys2Proof.Asm

/-- A line of a listing. -/
structure Line where
  off : Nat
  word : Word
  text : String
  note : Option String
  deriving DecidableEq, Repr

/-- n hexadecimal digits of a number, the highest first, in groups of four. -/
def hexText (n v : Nat) : String :=
  "0x" ++ String.ofList ((List.range n).flatMap (fun k =>
    let c := "0123456789ABCDEF".toList.getD (v / 16 ^ (n - 1 - k) % 16) '0'
    if k % 4 = 0 && k ≠ 0 then ['_', c] else [c]))

/-- A number in decimal. -/
def intText (v : Int) : String := if v < 0 then "-" ++ toString v.natAbs else toString v.natAbs

/-- The name at a number in lists with their bases. -/
def nameAt (t : List (Nat × List String)) (n : Nat) : Option String := t.findSome? (fun e => if n < e.1 then none else e.2[n - e.1]?)

/-- A destination as a listing shows it. A raw address is shown as a number. -/
def Operand.dstText : Operand → String
  | .name x => x
  | .raw n => hexText 4 n
  | .port n => (nameAt ([(0, regNames), (0x40, portNames)] ++ opNames ++ specialNames.map (fun e => (0x800 + e.1, e.2))) n).getD (hexText 4 n)

/-- A source as a listing shows it. -/
def Operand.srcText : Operand → String
  | .name x => x
  | .raw n => hexText 4 n
  | .port n => (nameAt ([(0, regNames), (0x40, resNames), (0x80, statusNames)] ++ specialNames.map (fun e => (0x100 + e.1, e.2))) n).getD (hexText 4 n)

def guardText : Guard → String
  | none => ""
  | some (inv, n) => (if inv then "?!g" else "?g") ++ toString n ++ " "

/-- The source of a move; the immediate of a literal pair is shown in hexadecimal (notes/assumptions/80.md). -/
def Source.text (s : Source) (env : Env) (p : Place) (wide : Bool) : Except Err String :=
  match s with
  | .op o => .ok o.srcText
  | .imm e => (e.at_ env p).map (fun v => "#" ++ if wide then hexText 16 (v % 2 ^ 64).toNat else intText v)

/-- A move as a listing shows it. The all-zero move that nop stands for is shown so. -/
def AMove.text (m : AMove) (env : Env) (p : Place) (wide : Bool) : Except Err String :=
  if m = ⟨none, .op (.port 0), .port 0⟩ then .ok "nop" else (m.src.text env p wide).map (fun s => guardText m.guard ++ s ++ " -> " ++ m.dst.dstText)

/-- A move names a raw address. -/
def AMove.isRaw (m : AMove) : Bool :=
  (match m.src with
    | .op (.raw _) => true
    | _ => false)
    || match m.dst with
      | .raw _ => true
      | _ => false

/-- The comment of a word that shows these moves. -/
def rawNote (ms : List AMove) : Option String := if ms.any AMove.isRaw then some "raw" else none

/-- The statement that one word shows, and its comment. -/
def Form.text (f : Form) (env : Env) (p : Place) : Except Err (String × Option String) :=
  match f with
  | .pad => .ok ("nop", some "pad")
  | .pair a none => (a.text env p false).map (fun x => (x, rawNote [a]))
  | .pair a (some b) => (a.text env p false).bind (fun x => (b.text env p false).map (fun y => (x ++ " || " ++ y, rawNote [a, b])))
  | .long m => (m.text env p false).map (fun x => (x, rawNote [m]))
  | .literal m => (m.text env p true).map (fun x => (x, rawNote [m]))

/-- The lines of a piece of a code section (03 R64, R67, R75). The no-op words that .align puts in are pads; bytes of .byte, .half, .word and .dword have no line
(notes/assumptions/80.md). -/
def Piece.listed (x : Piece) (env : Env) (p : Place) : Except Err (List Line) :=
  match x with
  | .form f => (f.encode env p).bind (fun w => (f.text env p).map (fun t =>
      match w.data with
      | a :: r => ⟨p.off, a, t.1, t.2⟩ :: r.map (fun b => ⟨p.off + 8, b, "", some "literal"⟩)
      | [] => []))
  | .zeros n =>
    let first := (p.off + 7) / 8 * 8
    .ok ((List.range ((p.off + n - first) / 8)).map (fun k => ⟨first + 8 * k, 0, "nop", some "pad"⟩))
  | .raw e => (e.at_ env p).map (fun v => [⟨p.off, BitVec.ofInt 64 v, ".lit " ++ hexText 16 (v % 2 ^ 64).toNat, none⟩])
  | .value _ _ => .ok []
  | .block _ _ => .ok []

/-- The listing of the code pieces, in order; data sections have no lines (notes/assumptions/80.md). -/
def listPieces (env : Env) : List (Place × Piece) → Except Err (List Line)
  | [] => .ok []
  | (p, x) :: r => (if p.code then x.listed env p else .ok []).bind (fun l => (listPieces env r).map (l ++ ·))

/-- The listing of a file, with the symbols of all the files. -/
def File.listed (f : File) (env : Env) : Except Err (List Line) := listPieces env f.pieces

/-- A line as text: the location as an 8-digit offset, the word in hexadecimal, the statement, and the comment (03 R75). -/
def Line.render (l : Line) : String :=
  hexText 8 l.off ++ "  " ++ hexText 16 l.word.toNat ++ "  " ++ l.text ++ (match l.note with
    | some n => (if l.text = "" then "// " else " // ") ++ n
    | none => "")

end Sys2Proof.Asm
end

