-- ==== Sys2Proof/Machine/AsmText.lean ====
section
/-! DEFINITION. The lines of an assembly source file: characters to tokens, tokens to items (03 R61, R63, R66, R67, R69, R70). -/

namespace Sys2Proof.Asm

inductive Token where
  | name (x : String)
  | num (n : Nat)
  | mark (x : String)
  deriving DecidableEq, Repr

def digitOf (c : Char) : Option Nat :=
  if '0' ≤ c ∧ c ≤ '9' then some (c.toNat - 48)
  else if 'a' ≤ c ∧ c ≤ 'f' then some (c.toNat - 87)
  else if 'A' ≤ c ∧ c ≤ 'F' then some (c.toNat - 55)
  else none

def nameStart (c : Char) : Bool := ('a' ≤ c && c ≤ 'z') || ('A' ≤ c && c ≤ 'Z') || c == '_'
def nameChar (c : Char) : Bool := nameStart c || ('0' ≤ c && c ≤ '9') || c == '.'

/-- The digits of a number; underscores stand between digits only and have no value, one between two digits (notes/assumptions/90.md). none where a digit is
not of the base. -/
def digits (base : Nat) : List Char → Option Nat → Bool → Option Nat
  | [], acc, gap => if gap then none else acc
  | c :: r, acc, gap =>
    if c = '_' then (if acc.isSome && !gap then digits base r acc true else none)
    else
      match digitOf c with
      | some d => if d < base then digits base r (some (acc.getD 0 * base + d)) false else none
      | none => none

/-- A number: decimal, 0x hexadecimal or 0b binary. -/
def numberOf : List Char → Option Nat
  | '0' :: 'x' :: r => digits 16 r none false
  | '0' :: 'b' :: r => digits 2 r none false
  | r => digits 10 r none false

/-- The longest run of characters of a kind, and the rest. -/
def spanOf (p : Char → Bool) : List Char → List Char × List Char
  | [] => ([], [])
  | c :: r => if p c then (c :: (spanOf p r).1, (spanOf p r).2) else ([], c :: r)

/-- The tokens of a line; a comment runs to its end. The number bounds the tokens. -/
def tokens : Nat → List Char → Option (List Token)
  | 0, _ => none
  | _, [] => some []
  | n + 1, c :: r =>
    if c = ' ' ∨ c = '\t' then tokens n r
    else if c = '/' ∧ r.head? = some '/' then some []
    else if nameStart c then (tokens n (spanOf nameChar r).2).map (Token.name (String.ofList (c :: (spanOf nameChar r).1)) :: ·)
    else if '0' ≤ c ∧ c ≤ '9' then
      (numberOf (c :: (spanOf nameChar r).1)).bind (fun v => (tokens n (spanOf nameChar r).2).map (Token.num v :: ·))
    else if c = '.' ∧ (r.head?.map nameStart).getD false then
      (tokens n (spanOf nameChar r).2).map (Token.mark (String.ofList (c :: (spanOf nameChar r).1)).toLower :: ·)
    else
      match c, r with
      | '|', '|' :: r => (tokens n r).map (Token.mark "||" :: ·)
      | '-', '>' :: r => (tokens n r).map (Token.mark "->" :: ·)
      | '<', '<' :: r => (tokens n r).map (Token.mark "<<" :: ·)
      | '>', '>' :: r => (tokens n r).map (Token.mark ">>" :: ·)
      | c, r =>
        if "?!#,:=+-*/%&|^~().".toList.contains c then (tokens n r).map (Token.mark (String.singleton c) :: ·) else none

/-! ## Expressions: operators by level, from the loosest (03 R66) -/

def levelOps : Nat → List (String × BinOp)
  | 0 => [("|", .or)]
  | 1 => [("^", .xor)]
  | 2 => [("&", .and)]
  | 3 => [("<<", .shl), (">>", .shr)]
  | 4 => [("+", .add), ("-", .sub)]
  | 5 => [("*", .mul), ("/", .div), ("%", .mod)]
  | _ => []

abbrev Parsed (α : Type) := Option (α × List Token)

/-- An expression from a level on. want: 0 to 5 a binary level, 6 a unary one; with a left operand, the rest of a level. The number bounds the depth. -/
def parseExpr : Nat → Nat → Option Expr → List Token → Parsed Expr
  | 0, _, _, _ => none
  | n + 1, want, left, ts =>
    match left with
    | some a =>
      match ts with
      | .mark x :: r =>
        match (levelOps want).find? (fun o => o.1 == x) with
        | some o => (parseExpr n (want + 1) none r).bind (fun b => parseExpr n want (some (.bin o.2 a b.1)) b.2)
        | none => some (a, ts)
      | _ => some (a, ts)
    | none =>
      if want < 6 then (parseExpr n (want + 1) none ts).bind (fun a => parseExpr n want (some a.1) a.2)
      else
        match ts with
        | .num v :: r => some (.num v, r)
        | .mark "-" :: r => (parseExpr n 6 none r).map (fun e => (.neg e.1, e.2))
        | .mark "+" :: r => (parseExpr n 6 none r).map (fun e => (.plus e.1, e.2))
        | .mark "~" :: r => (parseExpr n 6 none r).map (fun e => (.not e.1, e.2))
        | .mark "." :: r => some (.here, r)
        | .mark "(" :: r =>
          (parseExpr n 0 none r).bind (fun e =>
            match e.2 with
            | .mark ")" :: r => some (e.1, r)
            | _ => none)
        | .name f :: .mark "(" :: .name x :: .mark ")" :: r =>
          if f.toLower = "seg" then some (.seg x, r)
          else if f.toLower = "gaddr" then some (.gaddr x, r)
          else if f.toLower = "rel" then some (.rel x, r)
          else none
        | .name x :: r => some (.sym x, r)
        | _ => none

def expr (ts : List Token) : Parsed Expr := parseExpr (16 * (ts.length + 1)) 0 none ts

/-! ## Moves, statements and directives -/

/-- ?gN or ?!gN; the guard is absent where no mark is. -/
def parseGuard : List Token → Parsed Guard
  | .mark "?" :: .mark "!" :: .name g :: r => (indexFrom 0 (regNames.drop 32) g.toLower).map (fun n => (some (true, n), r))
  | .mark "?" :: .name g :: r => (indexFrom 0 (regNames.drop 32) g.toLower).map (fun n => (some (false, n), r))
  | .mark "?" :: _ => none
  | ts => some (none, ts)

def parseOperand : List Token → Parsed Operand
  | .name x :: r => some (.name x, r)
  | .num n :: r => some (.raw n, r)
  | _ => none

def parseSource : List Token → Parsed Source
  | .mark "#" :: r => (expr r).map (fun e => (.imm e.1, e.2))
  | ts => (parseOperand ts).map (fun o => (.op o.1, o.2))

def parseMove (ts : List Token) : Parsed AMove :=
  (parseGuard ts).bind (fun g => (parseSource g.2).bind (fun s =>
    match s.2 with
    | .mark "->" :: r => (parseOperand r).map (fun d => (⟨g.1, s.1, d.1⟩, d.2))
    | _ => none))

/-- All of a line. -/
def whole {α : Type} (p : Parsed α) : Option α := p.bind (fun x => if x.2.isEmpty then some x.1 else none)

/-- Expressions with commas between them. -/
def parseList : Nat → List Token → Option (List Expr)
  | 0, _ => none
  | n + 1, ts => (expr ts).bind (fun e =>
      match e.2 with
      | [] => some [e.1]
      | .mark "," :: r => (parseList n r).map (e.1 :: ·)
      | _ => none)

/-- A shorthand form after its guard. -/
def parseForm (g : Guard) (m : String) (ts : List Token) : Option Stmt :=
  match m.toLower, ts with
  | "nop", [] => some (.nop g)
  | "ret", [] => some (.ret g)
  | "jmp", [.name x] => some (.jmp g x)
  | "call", [.name x] => some (.call g x)
  | k, ts =>
    (parseOperand ts).bind (fun d =>
      match d.2 with
      | .mark "," :: r => (parseSource r).bind (fun a =>
          if k = "mov" then (if a.2.isEmpty then some (.mov g d.1 a.1) else none)
          else
            match a.2 with
            | .mark "," :: r => (whole (parseSource r)).map (fun b => .op g m d.1 a.1 b)
            | _ => none)
      | _ => none)

def parseStmt (ts : List Token) : Option Stmt :=
  match parseMove ts with
  | some (a, []) => some (.lone a)
  | some (a, .mark "||" :: r) => (whole (parseMove r)).map (fun b => .pair a b)
  | _ =>
    (parseGuard ts).bind (fun g =>
      match g.2 with
      | .name m :: r => parseForm g.1 m r
      | _ => none)

/-- The value of one attribute of .cell; its name is case-insensitive (notes/assumptions/90.md). -/
def parseAttr (x : String) : List Token → Parsed Expr
  | .name y :: .mark "=" :: r => if y.toLower = x then expr r else none
  | _ => none

def parseCell (ts : List Token) : Option Item :=
  (parseAttr "sems" ts).bind (fun a =>
    match a.2 with
    | .mark "," :: r => (parseAttr "store" r).bind (fun b =>
        match b.2 with
        | .mark "," :: r => (whole (parseAttr "spawn" r)).map (fun c => .cell a.1 b.1 c)
        | _ => none)
    | _ => none)

/-- A directive but for .cmdblock and .endblock. .seg and .align take a number (notes/assumptions/96.md). -/
def parseDirective (d : String) (ts : List Token) : Option Item :=
  let values (k : Nat) : Option Item := (parseList (ts.length + 1) ts).map (.values k)
  match d, ts with
  | ".text", [] => some .text
  | ".data", [] => some .data
  | ".seg", [.num n] => some (.segment n)
  | ".align", [.num n] => some (.align n)
  | ".byte", _ => values 1
  | ".half", _ => values 2
  | ".word", _ => values 4
  | ".dword", _ => values 8
  | ".lit", ts => (whole (expr ts)).map .lit
  | ".cell", ts => parseCell ts
  | ".entry", [.name x] => some (.entry x)
  | ".handler", [.name x] => some (.handler x)
  | ".equ", .name x :: .mark "," :: r => (whole (expr r)).map (.equ x)
  | ".global", [.name x] => some (.global x)
  | _, _ => none

/-- A block that is open: its name, its operation and its fields so far. -/
abbrev Open := Option (String × String × List (String × Expr))

/-- One line: what it adds, and the block that is open after it. -/
def parseLine (o : Open) (ts : List Token) : Option (List Item × Open) :=
  match o, ts with
  | o, [] => some ([], o)
  | some (x, op, fs), [.mark ".endblock"] => some ([.block x op fs], none)
  | some (x, op, fs), .name f :: .mark "=" :: r => (whole (expr r)).map (fun e => ([], some (x, op, fs ++ [(f, e)])))
  | some _, _ => none
  | none, .name l :: .mark ":" :: r => (statement r).map (fun y => (.label l :: y.1, y.2))
  | none, ts => statement ts
where
  statement (ts : List Token) : Option (List Item × Open) :=
    match ts with
    | [] => some ([], none)
    | [.mark ".cmdblock", .name x, .mark ",", .name op] => some ([], some (x, op, []))
    | .mark d :: r => if d.startsWith "." && d != "." then (parseDirective d r).map (fun i => ([i], none)) else (parseStmt ts).map (fun s => ([.stmt s], none))
    | ts => (parseStmt ts).map (fun s => ([.stmt s], none))

/-- The items of a file's lines. -/
def parseLines : Open → List (List Char) → Option (List Item)
  | o, [] => if o.isNone then some [] else none
  | o, l :: r => (tokens (l.length + 1) l).bind (fun ts => (parseLine o ts).bind (fun x => (parseLines x.2 r).map (x.1 ++ ·)))

/-- The lines of a text. -/
def linesOf : List Char → List Char → List (List Char)
  | [], cur => [cur.reverse]
  | '\n' :: r, cur => cur.reverse :: linesOf r []
  | c :: r, cur => linesOf r (c :: cur)

/-- A source text to its items. -/
def parse (text : String) : Option (List Item) := parseLines none (linesOf text.toList [])

end Sys2Proof.Asm
end

