-- ==== Sys2Proof/Tests/Slice0.lean ====
section
/-! SUPPORT. Tests: what WellFormed refuses, words written out from the spec, and a state that meets the hypotheses of each statement. -/

namespace Sys2Proof.Tests

/- One theorem at a time: each kernel evaluation waits for all that is before it. -/
set_option Elab.async false

open Sys2Proof Sys2Proof.Machine

/-! ## WellFormed refuses -/

/-- Destination 0x60 + 1 is unassigned (02 R35). -/
theorem test_wf_destination : (Instr.movePair ⟨0, 0x061, false, 1⟩ ⟨0, 2, false, 1⟩).wf = false := by decide
/-- Source address 0x28 is unassigned (02 R36). -/
theorem test_wf_source : (Instr.movePair ⟨0, 1, false, 0x028⟩ ⟨0, 2, false, 1⟩).wf = false := by decide
/-- Move B is checked as move A is (02 R37). -/
theorem test_wf_source_b : (Instr.movePair ⟨0, 1, false, 1⟩ ⟨0, 2, false, 0x0FF⟩).wf = false := by decide
/-- A lone alu.add is not a pair (03 R64). -/
theorem test_wf_lone_pair : (Instr.movePair ⟨0, 0x100, true, 5⟩ Move.nop).wf = false := by decide
/-- alu has 15 operations: 0x10F is unassigned (02 R43). -/
theorem test_wf_long : (Instr.moveLong 0 0x10F 0).wf = false := by decide
theorem test_wf_literal_pair : (Instr.moveLiteralPair 0 0x3FF 0).wf = false := by decide
/-- An operation's own source (02 R36). -/
theorem test_wf_lone_source : (Instr.aluAdd ⟨0, false, 0x0C0⟩).wf = false := by decide
/-- Special register 8 is unassigned; FMODE has its own form (02 R45). -/
theorem test_wf_special : (Instr.specialRegisterWrite 8 ⟨0, false, 1⟩).wf = false := by decide
theorem test_wf_special_fmode : (Instr.specialRegisterWrite 0x11 ⟨0, false, 1⟩).wf = false := by decide
theorem test_wf_segment : (Instr.segklWrite 3 ⟨0, false, 0x0C0⟩).wf = false := by decide

/-! ## Words written out from 02 R27, R28, R29, R35, R36 and R43: one for each family -/

theorem test_decode_moves : decodeTableWord 64 0x0000402000000000 = some (.movePair ⟨0, 4, false, 0x040⟩ Move.nop) := by decide
theorem test_decode_alu : decodeTableWord 64 0x0004000180201005 = some (.movePair ⟨0, 0x040, false, 3⟩ ⟨0, 0x100, true, 5⟩) := by decide
theorem test_decode_br : decodeTableWord 64 0x0000600258500005 = some (.movePair ⟨0, 6, false, 4⟩ ⟨0xB, 0x280, false, 5⟩) := by decide
theorem test_decode_lsu : decodeTableWord 64 0x0004D80000591005 = some (.movePair ⟨0, 0x04D, true, 0⟩ ⟨0, 0x2C8, true, 5⟩) := by decide
theorem test_decode_amo : decodeTableWord 64 0x0004F00A80601001 = some (.movePair ⟨0, 0x04F, false, 0x15⟩ ⟨0, 0x300, true, 1⟩) := by decide
theorem test_decode_flt : decodeTableWord 64 0x0034C00180000000 = some (.fltCvt ⟨0, false, 3⟩) := by decide
theorem test_decode_strand : decodeTableWord 64 0x0038081400000000 = some (.strandSpawn ⟨0, true, 0x28⟩) := by decide
theorem test_decode_sem : decodeTableWord 64 0x0005580280801001 = some (.movePair ⟨0, 0x055, true, 5⟩ ⟨0, 0x400, true, 1⟩) := by decide
theorem test_decode_bar : decodeTableWord 64 0x0005680180888007 = some (.movePair ⟨0, 0x056, true, 3⟩ ⟨0, 0x444, false, 7⟩) := by decide
theorem test_decode_ord : decodeTableWord 64 0x404800000000FFFF = some (.moveLong 0 0x480 0xFFFF) := by decide
theorem test_decode_sys : decodeTableWord 64 0x004C081500000000 = some (.sysTrap ⟨0, true, 0x2A⟩) := by decide
theorem test_decode_mnt : decodeTableWord 64 0x0050380180000000 = some (.mntSpare ⟨0, true, 3⟩) := by decide
theorem test_decode_cpy : decodeTableWord 64 0x0005A80180C01480 = some (.movePair ⟨0, 0x05A, true, 3⟩ ⟨0, 0x600, true, 0x480⟩) := by decide
theorem test_decode_mx : decodeTableWord 64 0x00640B2000000000 = some (.mxMma ⟨0, true, 0x640⟩) := by decide
theorem test_decode_vx : decodeTableWord 64 0x0005C80180D23400 = some (.movePair ⟨0, 0x05C, true, 3⟩ ⟨0, 0x691, true, 0x400⟩) := by decide
theorem test_decode_fab : decodeTableWord 64 0x006C100180000000 = some (.fabSt ⟨0, false, 3⟩) := by decide
theorem test_decode_pan : decodeTableWord 64 0x006C580080000000 = some (.panAttach ⟨0, true, 1⟩) := by decide
theorem test_decode_literal : decodeTableWord 128 0x12345678900000008000900000000000 = some (.moveLiteralPair 0 9 0x1234567890000000) := by decide
/-- Bits 63:62 of 0b11, and an unassigned trigger (02 R27, R37). -/
theorem test_decode_reserved : decodeTableWord 64 0xC000000000000000 = none := by decide
theorem test_decode_unassigned : decodeTableWord 64 0x003FF00000000000 = none := by decide

/-! ## States for the witnesses -/

/-- A lone move of x1. -/
def mR : Lone := ⟨0, false, 1⟩

/-- Strand i of core 0 in the pipeline, with t in x1. -/
def strand (i : Nat) (k : Core) (sl : Slot) (t : Word) : State :=
  { State.reset with
    cores := [(0, { k with slots := (i, { sl with
      st := .issued, step := false, stopReq := false, park := none, held := none, res := [], g := [], x := (1, t) :: sl.x }) :: k.slots })]
    current := some (0, i) }

/-- Its lone word is ready to run. -/
theorem strand_ready (i : Nat) (k : Core) (sl : Slot) (t : Word) : LoneReady (strand i k sl t) 0 i mR := by
  have h : (strand i k sl t).slot 0 i = { sl with
      st := .issued, step := false, stopReq := false, park := none, held := none, res := [], g := [], x := (1, t) :: sl.x } := by
    simp [strand, State.slot, State.core, Core.slot, Table.get]
  refine ⟨⟨rfl, ?_, ?_, ?_, ?_, ?_, ?_⟩, ?_⟩ <;> rw [h]
  · intro r; rfl
  · simp [Slot.readG, mR]

/-- Only the current strand and the cores matter to that. -/
theorem ready_of_cores {s u : State} {c i : Nat} {m : Lone} (h : LoneReady s c i m) (hc : u.current = s.current) (hk : u.cores = s.cores) :
    LoneReady u c i m := by
  have e : u.slot c i = s.slot c i := by simp [State.slot, State.core, hk]
  exact ⟨⟨hc.trans h.current, e ▸ h.issued, e ▸ h.ports, e ▸ h.unstepped, e ▸ h.unstopped, e ▸ h.unparked, e ▸ h.unheld⟩, e ▸ h.live⟩

/-- A device in which every slot that is listed holds no word holds none. -/
theorem no_held {s : State} (h : (s.cores.all fun e => e.2.slots.all fun x => x.2.held.isNone) = true) (d j : Nat) : (s.slot d j).held = none := by
  have tab {α : Type} (p : α → Bool) (df : α) (hd : p df = true) (l : Table α) (hl : (l.all fun x => p x.2) = true) (k : Nat) : p (l.get df k) = true := by
    induction l with
    | nil => exact hd
    | cons e r ih =>
      simp only [List.all_cons, Bool.and_eq_true] at hl
      simp only [Table.get]
      split <;> simp_all
  have := tab (fun k : Core => k.slots.all fun x => x.2.held.isNone) Core.idle rfl s.cores h d
  simpa [State.slot, State.core, Core.slot] using tab (fun x : Slot => x.held.isNone) Slot.free rfl _ this j

/-- Segment 0 of 1.5 MiB of the own core store with every right but EX. -/
def segCore : Word := BitVec.ofNat 64 (0x180000 + 1 * 2 ^ 48 + 0xB * 2 ^ 52)

def sl0 : Slot := { Slot.free with segH := [(0, segCore)], serial := 1 }

/-- A cell with 16 semaphores and every pool. -/
def cell0 : Cell := { Cell.vacant with sems := 16, cellinfo := BitVec.ofNat 64 (0xFFFF * 2 ^ 48), launch := 7 }

def k0 : Core := { Core.idle with cell := some cell0 }

/-- Slot 0 of core 0 runs with an operand port set. -/
def lone (t : Word) (opnd : Table Word) : State := strand 0 k0 { sl0 with opnd := opnd } t

/-- A command with nothing done. -/
def default_ : Cmd :=
  { seq := 0, op := 0x600, slot := 0, serial := 1, gsi := 0, core := 0, part := 0, loc := 0x100, blk := 0, port := 0x400, segL := [], segH := [(0, segCore)], rm := 0
    smap := 0, dmap := 0, tables := [], first := 0, last := 1, pend := [], woken := false, entry := [], transit := none, sleeping := [], wrote := [], active := false, finished := false
    matched := false, mask := [], flags := 0, fault := 0, dropped := 0, oob := 0, lost := [], parent := none, waiting := [], parts := 0, row0 := 0, col0 := 0, object := (0, 0, 0) }

/-- An event happens in a state. -/
def ev (e : Event) (s : State) : State := { s with event := some e }

/-! ## The spec's worked examples -/

/-- What a result port of slot 0 holds after a word. -/
def after (port : Nat) (o : Host.Outcome State Fault Refusal) : Option Word :=
  match o with
  | .next t => some ((t.slot 0 0).port port).val
  | _ => none

/-- The example after 04 R85. -/
theorem test_alu_adds : after rAlu (exec (.aluAdds mR) (lone 0x20 [(0x40, 0x7FFFFFFFFFFFFFF0)])) = some 0x7FFFFFFFFFFFFFFF := by decide +kernel
theorem test_alu_add : after rAlu (exec (.aluAdd mR) (lone 0x20 [(0x40, 0x7FFFFFFFFFFFFFF0)])) = some 0x8000000000000010 := by decide +kernel
theorem test_alu_addz : after rAlu (exec (.aluAddz mR) (lone 0x20 [(0x40, 0xFFFFFFFFFFFFFFF0)])) = some 0xFFFFFFFFFFFFFFFF := by decide +kernel

/-- The example after 04 R87: a field of 12 bits at bit 8. -/
theorem test_sh_ext : after rSh (exec (.shExt mR) (lone 0x0C08 [(0x41, 0xABCD00)])) = some 0xFFFFFFFFFFFFFBCD := by decide +kernel
theorem test_sh_ins : after rSh (exec (.shIns mR) (lone 0x0C08 [(0x41, 0xABCD00), (0x42, 0x123)])) = some 0xA12300 := by decide +kernel

/-- The example after 04 R88. -/
theorem test_mul_lo : after rMul (exec (.mulLo mR) (lone 5 [(0x43, -3)])) = some 0xFFFFFFFFFFFFFFF1 := by decide +kernel
theorem test_mul_hi : after rMul (exec (.mulHi mR) (lone 5 [(0x43, -3)])) = some 0xFFFFFFFFFFFFFFFF := by decide +kernel
theorem test_mul_hiz : after rMul (exec (.mulHiz mR) (lone 5 [(0x43, -3)])) = some 4 := by decide +kernel
theorem test_mul_hisz : after rMul (exec (.mulHisz mR) (lone 5 [(0x43, -3)])) = some 0xFFFFFFFFFFFFFFFF := by decide +kernel

/-- The example after 04 R90. -/
theorem test_div : after rDiv (exec (.divDiv mR) (lone 2 [(0x44, -7)])) = some 0xFFFFFFFFFFFFFFFD := by decide +kernel
theorem test_div_rem : after rDiv (exec (.divRem mR) (lone 2 [(0x44, -7)])) = some 0xFFFFFFFFFFFFFFFF := by decide +kernel
theorem test_div_divz : after rDiv (exec (.divDivz mR) (lone 2 [(0x44, 0xFFFFFFFFFFFFFFF9)])) = some 0x7FFFFFFFFFFFFFFC := by decide +kernel
theorem test_div_zero : after rDiv (exec (.divDiv mR) (lone 0 [(0x44, 5)])) = some 0xFFFFFFFFFFFFFFFF := by decide +kernel
theorem test_div_overflow : after rDiv (exec (.divDiv mR) (lone (-1) [(0x44, 0x8000000000000000)])) = some 0x8000000000000000 := by decide +kernel

/-- The example after 07 R168: the walk of VA 0x1234567890. -/
theorem test_walk :
    let s : State := { State.reset with
      parts := [(0, { Partition.fresh with root := some 0x100000 })]
      memory := ((Mem.blank.write 32 0x100240 8 0x200001).write 32 0x200D10 8 0x300401).write 32 0x3004B0 8 0x56789005B }
    (match s.walk 0 0x1234567890 with | .leaf e _ a => e == 0x56789005B && a == 0x3004B0 && pteFrame e + 0x7890 == 0x567897890 | _ => false) = true := by
  decide +kernel
theorem test_stack : stackOf 0x567897890 = 8 := by decide

/-- The example after 08 R202: the third arrival completes the generation. -/
theorem test_sem_generation :
    let x := (({ count := 0, arrival := true, target := 4096, gen := 0, waiters := [(2, 0)] } : Sem).post 1536).1
    let y := ((x.post 1536).1.post 2048).1
    x.count = 1536 ∧ y.count = 1024 ∧ y.gen = 1 ∧ y.waiters = [] := by decide +kernel

/-- The examples of 09: stochastic rounding to BF16, and 0.1 in E4M3. -/
theorem test_lfsr : lfsrStep 1 = 0x80200003 ∧ lfsrStep 0x80200003 = 0xC0300002 := by decide
theorem test_round_stochastic : (convert 0 3 4 false 0x80200003 0x3F80C000).code = 0x3F81 ∧ (convert 0 3 4 false 0xC0300002 0x3F80C000).code = 0x3F80 := by decide +kernel
theorem test_convert_e4m3 : (convert 0 5 0 true 0 0x3DCCCCCD).code = 0x1D ∧ (convert 0 5 0 true 0 0x3DCCCCCD).flags = NX := by decide +kernel

/-- The example of 11 R276: four products under two scales. -/
theorem test_block_value :
    let v (n : Nat) : FVal := Fmt.f32.value n
    let l := [(v 0x44800000, v 0x44800000), (v 0x3AA00000, v 0x3A800000), (v 0x3B400000, v 0x3B000000), (v 0xBA800000, v 0x3A800000)]
    let r := blockValue l (some (v 0x3D800000, 0)) (some (v 0x3F800000, 0))
    (fAdd Fmt.f32 0 false 0 (v 0x3F800000) (v r.1)).code = 0x47800080 ∧ r.2 = NX := by decide +kernel

/-- The examples after 06 R120 and 17 R423, R436. -/
theorem test_gsi : gsiOf 5 0 522 17 = 0x000050000000460A ∧ (gsiOf 5 0 522 17).setWidth 32 ^^^ (0x9E3779B9 : BitVec 32) = 0x9E373FB3 := by decide
theorem test_trace_header : traceHeader 1 5 522 3 0 = 0xA5158280C0000000 := by decide
theorem test_cellinfo :
    let g : Gang := { Gang.waiting 0x88 with origin := 4, pools := [0, 1] }
    let la : Launch := { Launch.new 0 0 0 0 [] false none 0 with gangs := [(0, g)] }
    cellinfoOf la (BitVec.ofNat 512 (1024 * 2 ^ 192 + 2 ^ 208 + 2 ^ 209)) g 522 0x1A = 0x00031C00001A052A ∧ geomOf la 0 g 522 = 0x0000000000368804 := by decide +kernel

/-- Words of the examples after 08 R195, 03 R64 and 09 R238. -/
theorem test_decode_examples : decodeTableWord 64 0x0005780100903000 = some (.movePair ⟨0, 0x057, true, 2⟩ ⟨0, 0x481, true, 0⟩)
    ∧ decodeTableWord 64 0x08007FFE80000000 = some (.movePair ⟨2, 7, true, 0xFFD⟩ Move.nop)
    ∧ decodeTableWord 64 0x4005400000004500 = some (.moveLong 0 0x54 0x4500) := by decide

/-! ## Witnesses: decoding and stepping -/

/-- Words of every form are well formed (EncodingRoundTrip). -/
theorem witness_round_trip : (Instr.aluAdd mR).isWord = true ∧ (Instr.aluAdd mR).wf = true ∧ (Instr.moveLong 15 0x060 7).wf = true
    ∧ (Instr.moveLiteralPair 0 0x82F 7).wf = true ∧ (Instr.movePair ⟨0, 1, true, 4095⟩ ⟨9, 2, false, 0x12F⟩).wf = true := by decide

/-- A fetched word, which decodes or does not (StepRunsDecodedWord, UndecodedWordTraps). -/
theorem witness_step :
    let s := State.reset.withFetchWord 64 0x0004000180201005
    let t := State.reset.withFetchWord 64 0xC000000000000000
    s.current = some (0, 0) ∧ s.breakAt 0 0 = none
      ∧ ((s.slot 0 0).fetch.map (fun u => decodeUnit true u.first u.second)) = some (.ok (.movePair ⟨0, 0x040, false, 3⟩ ⟨0, 0x100, true, 5⟩) 8)
      ∧ t.breakAt 0 0 = none ∧ ((t.slot 0 0).fetch.map (fun u => decodeUnit true u.first u.second)) = some (.illegal .reservedForm) := by decide

/-- An event that is due, and a device with nothing to do: both in recovery, where no core's clock counts (StepRunsEvent). -/
theorem witness_step_event :
    let s (l : List Event) : State := { State.reset with agenda := l, mgmt := { Mgmt.cold with service := 3 } }
    (s []).current = none ∧ (s [.getVersion]).candidates = [.getVersion]
      ∧ (s [.getVersion]).candidates[Config.schedule (s []).tick % (s [.getVersion]).candidates.length]? = some .getVersion ∧ (s []).candidates = [] := by
  refine ⟨rfl, rfl, ?_, rfl⟩
  show ([Event.getVersion] : List Event)[Config.schedule _ % 1]? = _
  rw [Nat.mod_one]; rfl

/-- An event of each part is being performed (CoreEventsComplete, FabricEventsComplete, MemoryEventsComplete, PlatformEventsComplete). -/
theorem witness_events : (ev (.pageWake 15 0) State.reset).event = some (.pageWake 15 0) ∧ (ev (.linkDown 5) State.reset).event = some (.linkDown 5)
    ∧ (ev (.laneSteer 11 7) State.reset).event = some (.laneSteer 11 7) ∧ (ev .fullService State.reset).event = some .fullService := ⟨rfl, rfl, rfl, rfl⟩

/-! ## Witnesses: the immediate units -/

/-- AluResults, MulResults, CmpResults, ShiftResults, AdrResults and SpecialWrites hold of every ready lone word; here a shift by 63, a
field that reaches beyond bit 63, and an address of segment 7. -/
theorem witness_immediate : LoneReady (lone 63 [(0x41, 1)]) 0 0 mR ∧ LoneReady (lone 0x7F3F [(0x41, -1), (0x42, 5)]) 0 0 mR
    ∧ LoneReady (lone 0x1FFFFF [(0x46, 7)]) 0 0 mR := ⟨strand_ready .., strand_ready .., strand_ready ..⟩

/-- DivResults: a zero divisor, one whose low half is zero, and neither. -/
theorem witness_div : LoneReady (lone 0 [(0x44, 9)]) 0 0 mR ∧ (lone 0 [(0x44, 9)]).loneValue 0 0 mR = 0
    ∧ ((lone 0x100000000 []).loneValue 0 0 mR).setWidth 32 = (0 : BitVec 32) ∧ (lone 0x100000000 []).loneValue 0 0 mR ≠ 0
    ∧ (lone (-1) []).loneValue 0 0 mR ≠ 0 := ⟨strand_ready .., by decide, by decide, by decide, by decide⟩

/-- BranchResults and BranchFaults: the highest target, the lowest one out of range, a target that is no multiple of 8, and br.loop's count. -/
theorem witness_branch : LoneReady (lone 0xFFFFFFFFF8 []) 0 0 mR ∧ (lone 0xFFFFFFFFF8 []).loneValue 0 0 mR = 0xFFFFFFFFF8
    ∧ (lone 0x10000000000 []).loneValue 0 0 mR = 0x10000000000 ∧ (lone 4 []).loneValue 0 0 mR = 4
    ∧ ((lone (-8) []).slot 0 0).pc = 0 ∧ (lone (-8) []).loneValue 0 0 mR = -8 ∧ (lone 0 []).loneValue 0 0 mR = 0
    ∧ ((lone 1 [(0x47, 16)]).slot 0 0).operand 0x47 = 16 := ⟨strand_ready .., by decide, by decide, by decide, by decide, by decide, by decide, by decide⟩

/-- FloatResults, FloatConversions and FloatIllegalFieldsTrap: a legal and an illegal rounding code, format code and conversion. -/
theorem witness_float : LoneReady (lone 0 [(0x54, 0x70)]) 0 0 mR
    ∧ (let q (s : State) := ((s.slot 0 0).operand 0x54).toNat
       q (lone 0 [(0x54, 0x71)]) % 16 ≤ 1 ∧ q (lone 0 [(0x54, 0x71)]) / 16 % 16 = 7
        ∧ q (lone 0 [(0x54, 0x50)]) / 16 % 16 = 5 ∧ 1 < q (lone 0 [(0x54, 2)]) % 16
        ∧ q (lone 0 [(0x54, 0x702)]) / 256 % 16 = 7 ∧ q (lone 0 [(0x54, 7)]) % 16 = 7 ∧ q (lone 0 [(0x54, 0x832)]) / 256 % 16 = 8) :=
  ⟨strand_ready .., by decide⟩

/-! ## Witnesses: moves and special registers -/

/-- PairMovesWrite: two moves to different registers, and two to x0. LiteralMovesWrite: the highest operand port. -/
theorem witness_moves : OnStage (lone 5 []) 0 0 ∧ (0x060 : BitVec 14).toNat < 0x61 ∧ ((0x021 : BitVec 14) ≠ 0x020) := ⟨(strand_ready ..).toOnStage, by decide, by decide⟩

/-- The committed slot of a pair in the state of a lone word, and what its resolving trigger gives: 0 where there is none, 1 done, 2 a fault, 3 a hold. -/
def pairGives (s : State) (a b : Move) : Option Nat :=
  let sl := s.slot 0 0
  let ms := ([DMove.ofMove a false, DMove.ofMove b true].filter sl.live).map (fun m => MoveVal.mk m.dst (s.source 0 0 m) m.isB)
  match s.commitSlot 0 0 ms sl.pc (sl.pc + 8) with
  | .error _ => none
  | .ok sl' =>
    match resolvingMove ms with
    | none => some 0
    | some m =>
      match resolve ⟨0, 0, m, sl.pc, sl.pc + 8, pairWord a b⟩ sl' s none with
      | .done u => if u.current = s.current ∧ (u.slot 0 0).st = .issued ∧ (u.slot 0 0).stopReq = false ∧ (u.slot 0 0).park = none then some 1 else none
      | .fault f => if f.code ≠ cDataLost then some 2 else none
      | .hold u _ _ _ => if u.current = s.current then some 3 else none

/-- PairOperations: an immediate trigger, one that faults, a load that completes, one that is misaligned, and a word that is held. -/
theorem witness_pairs : OnStage (lone 5 [(0x54, 0x77)]) 0 0 ∧ pairGives (lone 5 []) ⟨0, 0x040, false, 3⟩ ⟨0, 0x100, true, 5⟩ = some 0
    ∧ pairGives (lone 5 [(0x54, 0x77)]) ⟨0, 4, false, 3⟩ ⟨0, 0x340, true, 5⟩ = none ∧ pairGives (lone 5 []) ⟨0, 4, false, 1⟩ ⟨0, 0x2C6, true, 8⟩ = some 1
    ∧ pairGives (lone 5 []) ⟨0, 4, false, 1⟩ ⟨0, 0x2C6, true, 7⟩ = some 2 ∧ pairGives (lone 5 []) ⟨0, 4, false, 1⟩ ⟨0, 0x504, true, 7⟩ = some 3
    ∧ anyConflict [DMove.ofMove ⟨0, 4, false, 1⟩ false, DMove.ofMove ⟨0, 0x504, true, 7⟩ true] = false :=
  ⟨(strand_ready ..).toOnStage, by decide +kernel, by decide +kernel, by decide +kernel, by decide +kernel, by decide +kernel, by decide⟩

/-- SegmentWrites: a handler and another strand. HandlerOperationsTrap has the second. -/
theorem witness_segment : LoneReady (strand 255 k0 { sl0 with level := 1 } 5) 0 255 mR ∧ ((strand 255 k0 { sl0 with level := 1 } 5).slot 0 255).level = 1
    ∧ LoneReady (lone 5 []) 0 0 mR ∧ ((lone 5 []).slot 0 0).level ≠ 1 := ⟨strand_ready .., by decide, strand_ready .., by decide⟩

/-- ConflictingMovesTrap: one destination, one unit, and two resolving units. -/
theorem witness_conflict : OnStage (lone 5 []) 0 0
    ∧ ((lone 5 []).slot 0 0).live (DMove.ofMove ⟨0, 3, true, 1⟩ false) = true ∧ ((lone 5 []).slot 0 0).live (DMove.ofMove ⟨0, 3, true, 2⟩ true) = true
    ∧ needsHandler 3 = false ∧ triggersUnit 0x100 = true ∧ triggersUnit 0x10E = true ∧ (0x100 : BitVec 14).toNat / 64 = (0x10E : BitVec 14).toNat / 64
    ∧ isImmediate (0x2C0 / 64) = false ∧ isImmediate (0x680 / 64) = false ∧ triggersUnit 0x2C0 = true ∧ triggersUnit 0x680 = true :=
  ⟨(strand_ready ..).toOnStage, by decide, by decide, by decide, by decide, by decide, by decide, by decide, by decide, by decide, by decide⟩

/-- PendingPortWaits: div.res has not come. -/
theorem witness_pending :
    let s : State := { State.reset with
      cores := [(0, { k0 with slots := [(0, { sl0 with st := .issued, res := [(rDiv, ⟨1, true, 9, 0⟩)] })] })], current := some (0, 0) }
    s.current = some (0, 0) ∧ (s.slot 0 0).live (DMove.ofMove ⟨0, 2, false, 0x040 + BitVec.ofNat 12 rDiv⟩ false) = true
      ∧ ((s.slot 0 0).port rDiv).pending = true ∧ rDiv ≤ 0x15 := by decide

/-! ## Witnesses: loads, stores and atomics -/

/-- CoreLoads, CoreStores and AccessFaults: the last bytes of the store, one byte beyond, a misaligned address, and a segment that is off. -/
theorem witness_core_access :
    let s := lone 0x17FFF0 []
    LoneReady s 0 0 mR ∧ (s.slot 0 0).operand 0x4C = 0 ∧ s.watches = [] ∧ ((s.slot 0 0).seg 0).space = 1 ∧ ((s.slot 0 0).seg 0).rd = true
      ∧ ((s.slot 0 0).seg 0).wr = true ∧ ((s.slot 0 0).seg 0).cn = false ∧ 0x17FFF0 + 16 ≤ ((s.slot 0 0).seg 0).limit ∧ 0x17FFF0 % 16 = 0
      ∧ (s.core 0).logging = false ∧ (s.core 0).store.lost 8 0x17FFF0 16 = false ∧ ((s.slot 0 0).operand 0x4B + s.loneValue 0 0 mR) = 0x17FFF0
      ∧ ((s.slot 0 0).seg 0).limit < 0x17FFF8 + 16 ∧ 0x17FFF1 % 8 ≠ 0 ∧ ((s.slot 0 0).seg 1).space = 0 := by
  refine ⟨strand_ready .., ?_⟩; decide

/-- AccessFaults: an own-core segment whose limit reaches beyond the store. -/
theorem witness_store_end :
    let s := strand 0 k0 { sl0 with segH := [(0, BitVec.ofNat 64 (0x180100 + 1 * 2 ^ 48 + 0xB * 2 ^ 52))] } 0x180000
    LoneReady s 0 0 mR ∧ ((s.slot 0 0).seg 0).space = 1 ∧ 0x180000 + 8 ≤ ((s.slot 0 0).seg 0).limit
      ∧ 0x180000 < ((s.slot 0 0).seg 0).base + 0x180000 + 8 := by
  refine ⟨strand_ready .., ?_⟩; decide

/-- Segment 0 of device space. -/
def segDev : Word := BitVec.ofNat 64 (2 ^ 40 + 4 * 2 ^ 48 + 0xB * 2 ^ 52)

/-- One page of 64 KiB of partition 0 at address 0, by three tables in device memory; the entry is e. -/
def paged (e : Nat) (s : State) : State :=
  { s with parts := [(0, { Partition.fresh with root := some 0x10000 })]
           memory := ((s.memory.write 32 0x10000 8 0x20001).write 32 0x20000 8 0x30001).write 32 0x30000 8 e }

/-- A resident page at frame 0x40000 with every right. -/
def pteHere : Nat := 3 + 0x38 + 0x40 + 0x40000

/-- The stack of frame 0x40000 is being repaired there. -/
def fixing (s : State) : State := { s with hbm := [(11, { Stack.fresh with active := some (.frame 4 0) })] }

/-- DeviceLoads: a line that holds the word, a page that is resident, discarded, under repair, one that no entry maps, and one that is absent. -/
theorem witness_device :
    let line : CacheLine := { part := 0, va := 0, data := 0, valid := 1, dirty := 0, filled := true, cn := false, wok := false }
    let sl := { sl0 with segH := [(0, segDev)] }
    let s := strand 0 { k0 with lines := [line] } sl 0
    let u := strand 0 k0 sl 0
    LoneReady s 0 0 mR ∧ (s.core 0).findLine 0 0 = some line ∧ line.valid &&& wordMask 0 8 = wordMask 0 8 ∧ ((s.slot 0 0).seg 0).space = 4
      ∧ ((s.slot 0 0).seg 0).rd = true ∧ 8 ≤ ((s.slot 0 0).seg 0).limit ∧ LoneReady u 0 0 mR ∧ (u.core 0).findLine 0 0 = none
      ∧ ((paged pteHere u).translate 0 0 0 true false).2 = .ok 0x40000 false true ∧ (paged pteHere u).memory.lost 32 0x40000 8 = false
      ∧ ((paged pteHere u).translate 0 0 0 true false).1.heldAt 0x40000 = none
      ∧ ((fixing (paged pteHere u)).translate 0 0 0 true false).2 = .ok 0x40000 false true
      ∧ ((fixing (paged pteHere u)).translate 0 0 0 true false).1.heldAt 0x40000 = some 11
      ∧ (match ((paged (pteHere + 0x100) u).translate 0 0 0 true false).2 with | .ok _ d _ => d | _ => false) = true
      ∧ (u.translate 0 0 0 true false).2 = .fault 0x07 ∧ ((paged (pteHere - 0x40) u).translate 0 0 0 true false).2 = .park := by
  exact ⟨strand_ready .., rfl, by decide, by decide, by decide, by decide, strand_ready .., by decide, rfl, by decide, rfl, rfl, rfl, by decide, by decide, rfl⟩

/-- Segment 0 with atomic rights. -/
def sl1 : Slot := { Slot.free with segH := [(0, segCore)], serial := 1 }

/-- CoreAtomics: the last 4 and the last 8 bytes of the store. -/
theorem witness_atomic :
    let s := lone 5 [(0x4F, 0x17FFFC)]
    let u := lone 5 [(0x4F, 0x17FFF8), (0x50, 0x100)]
    LoneReady s 0 0 mR ∧ LoneReady u 0 0 mR ∧ ((s.slot 0 0).operand 0x50).toNat % 256 = 0 ∧ ((u.slot 0 0).operand 0x50).toNat % 256 = 0
      ∧ ((u.slot 0 0).operand 0x50).getLsbD 8 = true ∧ ((s.slot 0 0).seg 0).at_ = true ∧ ((s.slot 0 0).seg 0).rd = true
      ∧ 0x17FFFC + 4 ≤ ((s.slot 0 0).seg 0).limit ∧ (s.core 0).store.lost 8 0x17FFFC 4 = false := by
  refine ⟨strand_ready .., strand_ready .., ?_⟩; decide

/-- FullEmptyAccesses: a full and an empty word under each mode. -/
theorem witness_full_empty :
    let s := lone 64 [(0x4C, 1)]
    let u := strand 0 { k0 with store := Mem.blank.setFull 8 false } { sl0 with opnd := [(0x4C, 2)] } 64
    let v := strand 0 { k0 with store := Mem.blank.setFull 8 false } { sl0 with opnd := [(0x4C, 3)] } 64
    LoneReady s 0 0 mR ∧ LoneReady u 0 0 mR ∧ LoneReady v 0 0 mR ∧ (s.core 0).retry = Retry.empty ∧ (s.core 0).store.isFull 8 = true
      ∧ (u.core 0).store.isFull 8 = false ∧ (v.slot 0 0).operand 0x4C = 3 ∧ (u.slot 0 0).operand 0x4C = 2 ∧ (s.slot 0 0).operand 0x4C = 1 := by
  refine ⟨strand_ready .., strand_ready .., strand_ready .., ?_⟩; decide

/-! ## Witnesses: strands, messages, semaphores and barriers -/

set_option maxRecDepth 20000 in
/-- SpawnResults: a free slot, none, class 0, and the two bad offsets. -/
theorem witness_spawn :
    let s := lone 0xFFFFFFFFF8 [(0x49, 1)]
    let full := strand 0 { k0 with slots := (upFrom 1 254).map (fun i => (i, { Slot.free with st := .ready })) } { sl0 with opnd := [(0x49, 3)] } 8
    LoneReady s 0 0 mR ∧ ((s.slot 0 0).operand 0x49).toNat % 4 ≠ 0 ∧ ((s.setSlot 0 0 (s.stepped 0 0)).core 0).freeSlot = some 1
      ∧ LoneReady full 0 0 mR ∧ ((full.setSlot 0 0 (full.stepped 0 0)).core 0).freeSlot = none
      ∧ ((lone 8 []).slot 0 0).operand 0x49 = 0 ∧ 2 ^ 40 ≤ ((lone 0x10000000000 [(0x49, 1)]).loneValue 0 0 mR).toNat
      ∧ ((lone 0xFFFFFFFFFF [(0x49, 1)]).loneValue 0 0 mR).toNat % 8 ≠ 0 := by
  refine ⟨strand_ready .., by decide, by decide, strand_ready .., by decide, by decide, by decide, by decide⟩

/-- A second strand in slot 1 whose serial is 4, and an exit record of serial 3 in slot 2. -/
def kTwo (sl : Slot) : Core :=
  { k0 with slots := [(1, { sl with serial := 4 }), (2, { Slot.free with serial := 4, exitSerial := 3, exitValue := 9 })] }

/-- StrandResults: an ended, an overwritten, a stale and a current instance; sleeps of 0, all ones and another count; a sleeper, and one that is
awake; the own class and class 0. -/
theorem witness_strands :
    LoneReady (lone 5 []) 0 0 mR ∧ (kTwo Slot.free).named 0x0302 = .ended 9 ∧ (kTwo { Slot.free with st := .ready }).named 0x0301 = .overwritten
      ∧ (kTwo Slot.free).named 0x0901 = .stale ∧ (kTwo { Slot.free with st := .ready }).named 0x0401 = .current 1
      ∧ LoneReady (strand 0 (kTwo { Slot.free with st := .sleep, park := some (.sleep none) }) { sl0 with wake := true } 0x0401) 0 0 mR
      ∧ ((strand 0 (kTwo { Slot.free with st := .sleep, park := some (.sleep none) }) sl0 0x0401).slot 0 1).park = some (.sleep none)
      ∧ ((strand 0 (kTwo { Slot.free with st := .ready }) sl0 0x0401).slot 0 1).park = none
      ∧ ((lone 0 []).loneValue 0 0 mR).toNat % 2 ^ 32 = 0 ∧ ((lone 0xFFFFFFFF []).loneValue 0 0 mR).toNat % 2 ^ 32 = 2 ^ 32 - 1
      ∧ ((lone 3 [(0x48, 0x8000000000000000)]).slot 0 0).operand 0x48 = 0x8000000000000000 ∧ (3 : Nat) % 4 ≠ 0 ∧ ((lone 4 []).loneValue 0 0 mR).toNat % 4 = 0 := by
  refine ⟨strand_ready .., ?_, ?_, ?_, ?_, strand_ready .., ?_⟩ <;> decide

/-- ExitFreesSlot and KillEndsStrand: another strand, which joins slot 0 or waits for nothing; the handler's slot. -/
theorem witness_ends :
    let s := strand 0 (kTwo { Slot.free with st := .waitJoin, park := some (.join 0 1) }) { sl0 with held := none } 7
    let u := strand 0 (kTwo { Slot.free with st := .ready }) sl0 0x0401
    LoneReady s 0 0 mR ∧ slotsOnce s 0 ∧ (s.slot 0 0).held = none ∧ (s.slot 0 1).st ≠ .free ∧ 1 ∈ (s.core 0).slots.map (·.1)
      ∧ (s.slot 0 1).park = some (.join 0 (s.slot 0 0).serial.toNat) ∧ LoneReady u 0 0 mR ∧ slotsOnce u 0
      ∧ (u.core 0).named (u.loneValue 0 0 mR) = .current 1 ∧ (u.slot 0 1).held = none ∧ (u.slot 0 1).park = none
      ∧ ((lone 0x00FF []).loneValue 0 0 mR).toNat % 256 = 255 ∧ ((lone 0 []).core 0).named 0x0902 = .stale := by
  unfold slotsOnce
  refine ⟨strand_ready .., by decide, by decide, by decide, by decide, by decide, strand_ready .., ?_⟩; decide

/-- RingResults: a ring with an entry to claim, one to free, none of either, and one that is not configured. -/
theorem witness_rings :
    let g (h c t : BitVec 32) : Ring := { Ring.none with base := 64, size := 16, head := h, claim := c, tail := t }
    let s (t : Word) (r : Ring) := strand 0 { k0 with rings := [(7, r)] } { sl0 with opnd := [(0x4A, 3)] } t
    LoneReady (s 7 (g 1 2 3)) 0 0 mR ∧ ((s 7 (g 1 2 3)).core 0).ring 7 = g 1 2 3 ∧ (g 1 2 3).size ≠ 0 ∧ (g 1 2 3).claim ≠ (g 1 2 3).tail
      ∧ (g 1 2 3).head ≠ (g 1 2 3).claim ∧ (g 1 2 3).tail.toNat = (((s 7 (g 1 2 3)).slot 0 0).operand 0x4A).toNat % 2 ^ 32
      ∧ (g 2 2 2).claim = (g 2 2 2).tail ∧ (g 2 2 2).head = (g 2 2 2).claim ∧ ((s 15 (g 2 2 2)).loneValue 0 0 mR).getLsbD 3 = true
      ∧ ((s 6 (g 2 2 2)).core 0).ring 6 = Ring.none ∧ Ring.none.size = 0 := by
  refine ⟨strand_ready .., ?_⟩; decide

/-- AgentRequests: a pool that the gang owns and one that it does not; a declared generation and none. -/
theorem witness_agents :
    let s := lone 1 []
    let u : State := { s with launches := [(7, { Launch.new 0 0 0 0 [] false none 0 with detector := { Detector.fresh with gen := 1, declared := 1, everDeclared := true } })] }
    LoneReady s 0 0 mR ∧ (s.cell 0).cellinfo.getLsbD (48 + 15) = true ∧ Cell.vacant.cellinfo.getLsbD 48 = false ∧ LoneReady u 0 0 mR
      ∧ (u.quietDone (u.cell 0) 1).isSome = true ∧ s.quietDone (s.cell 0) 1 = none := by
  refine ⟨strand_ready .., by decide, by decide, ready_of_cores (strand_ready 0 k0 { sl0 with opnd := [] } 1) rfl rfl, by decide, by decide⟩

/-- SemaphoreResults: the highest semaphore, and one beyond; counts that cover the number, and that do not; both modes. -/
theorem witness_semaphores :
    let s (x : Sem) (t : Word) := strand 0 { k0 with sems := [(15, x)] } { sl0 with opnd := [(0x55, 15)] } t
    LoneReady (s ⟨3, false, 0, 0, []⟩ 3) 0 0 mR ∧ 15 < ((s ⟨3, false, 0, 0, []⟩ 3).cell 0).sems ∧ ((s ⟨3, false, 0, 0, []⟩ 3).core 0).sem 15 = ⟨3, false, 0, 0, []⟩
      ∧ ((s ⟨3, false, 0, 0, []⟩ 3).die 0).col.cmds = [] ∧ 3 ≤ (3 : Word).toNat ∧ (2 : Word).toNat < 3
      ∧ ((s ⟨3, true, 4, 1, []⟩ 1).core 0).sem 15 = ⟨3, true, 4, 1, []⟩ ∧ (1 : BitVec 32).toNat = 1 ∧ (2 : BitVec 32).toNat ≠ 1
      ∧ ((lone 1 [(0x55, 16)]).cell 0).sems ≤ (((lone 1 [(0x55, 16)]).slot 0 0).operand 0x55).toNat % 1024 := by
  refine ⟨strand_ready .., ?_⟩; decide

/-- PostReleasesWaiter: the strand of slot 1 waits for 3, and a post of 3 releases it. -/
theorem witness_post :
    let s := strand 0 { kTwo { Slot.free with st := .waitSem, park := some (.sem 0 false 3) } with sems := [(0, ⟨0, false, 0, 0, [(1, 3)]⟩)] } sl0 3
    LoneReady s 0 0 mR ∧ 0 < (s.cell 0).sems ∧ ((s.core 0).sem 0).waiters = [(1, 3)] ∧ ((s.core 0).sem 0).arrival = false
      ∧ 3 ≤ ((s.core 0).sem 0).count.toNat + (s.loneValue 0 0 mR).toNat % 2 ^ 32 := by
  refine ⟨strand_ready .., ?_⟩; decide

/-- The cluster of core 0 with channel 31 of its gang: members 0 and 1. -/
def withChannel (h : Channel) (s : State) : State := s.setCluster 0 { s.cluster 0 with channels := [(31, h)] }

/-- BarrierArrivals and LastArrivalCompletesPhase: an arrival that is not the last and one that is; a passed phase and the current one; another
owner, and a cell that is no member. -/
theorem witness_barriers :
    let own : Option (Nat × Nat) := some (7, 0)
    let h : Channel := { Channel.free with owner := own, mask := [0, 1], expect := 1 }
    let s := withChannel h (lone 5 [(0x56, 31)])
    let one : Channel := { Channel.free with owner := own, mask := [0], expect := 2, cnt := [(0, 1)] }
    LoneReady s 0 0 mR ∧ ((s.slot 0 0).operand 0x56).getLsbD 5 = false ∧ s.chan 0 false 31 = h ∧ h.owner = some ((s.cell 0).launch, (s.cell 0).gang)
      ∧ h.mask.contains 0 = true ∧ h.cnt.get 0 0 + 1 ≤ h.expect ∧ h.cnt.get 0 1 < h.expect ∧ one.early = [] ∧ isSnan32 5 = false
      ∧ ({ h with phase := 6 } : Channel).past 5 = true ∧ h.past 0 = false ∧ Channel.free.owner ≠ own ∧ ({ h with mask := [1] } : Channel).mask.contains 0 = false
      ∧ LoneReady (withChannel one (lone 5 [(0x56, 31)])) 0 0 mR ∧ one.cnt = [(0, one.expect - 1)] ∧ one.mask = [0]
      ∧ slotsOnce (withChannel one (lone 5 [(0x56, 31)])) 0 := by
  refine ⟨ready_of_cores (strand_ready 0 k0 { sl0 with opnd := [(0x56, 31)] } 5) rfl rfl, by decide, by decide, by decide, by decide, by decide, by decide,
    by decide, by decide, by decide, by decide, by decide, by decide, ready_of_cores (strand_ready 0 k0 { sl0 with opnd := [(0x56, 31)] } 5) rfl rfl, by decide, by decide, by unfold slotsOnce; decide⟩

/-- OrderingResults: scope 4 and scope 5; an empty fence, one whose engines are done, and one over the copy engine with a command. -/
theorem witness_order :
    let busy := strand 0 { k0 with cpy := { Engine.idle with cmds := [default_] } } { sl0 with opnd := [(0x57, 4)] } 0x0104
    LoneReady (lone 0 [(0x57, 4)]) 0 0 mR ∧ (4 : Word).toNat % 8 < 5 ∧ 5 ≤ ((5 : Word).toNat % 8) ∧ (lone 0x0101 []).predDone 0 0 1 = true
      ∧ LoneReady busy 0 0 mR ∧ busy.predDone 0 0 4 = false := by
  refine ⟨strand_ready .., by decide, by decide, by decide, strand_ready .., by decide⟩

/-! ## Witnesses: traps, handlers and debug -/

/-- TrapEntry: a strand of the highest slot that may trap by itself. TrapFrame: a cluster that does not trace. -/
theorem witness_trap : LoneReady (strand 254 k0 sl0 7) 0 254 mR ∧ ((strand 254 k0 sl0 7).cell 0).preempt ≠ .stopped
    ∧ ((strand 254 k0 sl0 7).cluster 0).trace.en = false := ⟨strand_ready .., by decide, rfl⟩

/-- The handler of core 0 at work on a record, with the strand of slot 0 in the state given. -/
def handler (st : SlotState) (opnd : Table Word) (t : Word) : State :=
  strand 255 { k0 with handling := some (BitVec.ofNat 512 (2 ^ 448)), slots := [(0, { sl0 with st := st })] }
    { Slot.free with level := 1, serial := 9, opnd := opnd } t

/-- HandlerResumesStrand: disposition 0 at address 0x40, in a cell whose launch runs. -/
theorem witness_handler_end :
    let la : Launch := { Launch.new 0 0 0 0 [] false none 0 with gangs := [(0, { Gang.waiting 0x11 with cluster := some 0, loaded := true, cores := [0] })] }
    let s : State := { handler .stopped [] 0x40 with launches := [(7, la)] }
    let r := BitVec.ofNat 512 (2 ^ 448)
    LoneReady s 0 255 mR ∧ slotsOnce s 0 ∧ (s.slot 0 255).held = none ∧ (s.core 0).handling = some r ∧ (s.core 0).cell = some cell0
      ∧ cell0.preempt = .running ∧ (s.core 0).intake = [] ∧ blkField r 0 1 = 0 ∧ blkField r 3 1 = 0
      ∧ 0 ∈ (s.core 0).slots.map (·.1) ∧ (s.slot 0 0).st = .stopped ∧ (s.slot 0 0).held = none ∧ (s.slot 0 0).park = none ∧ (s.slot 0 0).waitdesc = 0
      ∧ (s.slot 0 0).serial.toNat = blkField r 56 3 ∧ (s.loneValue 0 255 mR).toNat = 0x40 ∧ (s.core 0).store.lost 8 0x40 64 = false
      ∧ (s.core 0).store.block 0x40 = 0 ∧ s.launchAt cell0.launch = some la := by
  unfold slotsOnce
  exact ⟨ready_of_cores (strand_ready ..) rfl rfl, by decide, rfl, rfl, rfl, rfl, rfl, by decide, by decide, by decide, rfl, rfl, rfl, rfl, by decide, by decide, by decide, rfl, rfl⟩

/-- HandlerOperations: an item of a STOPPED slot, one that is no item, a strand that stops, is STOPPED, goes on or has ended, and a drain. -/
theorem witness_handler_operations :
    let s := handler .stopped [(0x58, 0x100)] 0x100
    let u := handler .ready [] 0x100
    let v := handler .ready [] 0x2FF
    LoneReady s 0 255 mR ∧ (s.slot 0 255).level = 1 ∧ slotsOnce s 0 ∧ ((s.slot 0 255).operand 0x58).getLsbD 18 = false
      ∧ (s.slot 0 0).st = .stopped ∧ slotItem 1 = true ∧ slotItem 0x3FF = false ∧ (s.core 0).named (s.loneValue 0 255 mR) = .current 0
      ∧ (s.slot 0 0).waitdesc = 0 ∧ panValid (s.cell 0).paninfo = false
      ∧ LoneReady u 0 255 mR ∧ (u.slot 0 0).st = .ready ∧ (u.slot 0 0).held = none ∧ (u.slot 0 0).park = none
      ∧ (u.core 0).named (u.loneValue 0 255 mR) = .current 0 ∧ LoneReady v 0 255 mR ∧ (v.loneValue 0 255 mR).toNat % 256 = 255
      ∧ (handler .ready [] 0x100).drained 0 1 = true ∧ (handler .ready [] 0x100).drainsFar 0 = false
      ∧ (strand 255 { k0 with cpy := { Engine.idle with cmds := [default_] } } { Slot.free with level := 1 } 1).drained 0 1 = false := by
  unfold slotsOnce
  refine ⟨strand_ready .., by decide, by decide, by decide, by decide, by decide, by decide, by decide, by decide, by decide, strand_ready .., by decide,
    by decide, by decide, by decide, strand_ready .., by decide, by decide, by decide, by decide⟩

/-- HandlerOperations: sys.go of a strand whose wait descriptor is of a kind that no wait has. -/
theorem witness_handler_go :
    let s := strand 255 { k0 with slots := [(0, { sl0 with st := .stopped, waitdesc := 15 })] } { Slot.free with level := 1 } 0x100
    LoneReady s 0 255 mR ∧ (s.slot 0 0).st = .stopped ∧ 8 ≤ (s.slot 0 0).waitdesc.toNat % 16 ∧ (s.core 0).named (s.loneValue 0 255 mR) = .current 0 := by
  refine ⟨strand_ready .., ?_⟩; decide

/-- DebugAndMaintenance: no trace; a strand that steps itself; the handler's handle; a page to discard, a length that is no page, and another segment. -/
theorem witness_debug :
    let d (len : Word) := strand 0 k0 { sl0 with segH := [(0, segDev)], opnd := [(0x59, len)] } 0x30000
    LoneReady (lone 0x100 []) 0 0 mR ∧ ((lone 0x100 []).cluster 0).trace.on 1 0 = false
      ∧ ((lone 0x100 []).core 0).named ((lone 0x100 []).loneValue 0 0 mR) = .current 0 ∧ ((lone 0xFF []).loneValue 0 0 mR).toNat % 256 = 255
      ∧ LoneReady (d 0x10000) 0 0 mR ∧ (((d 0x10000).slot 0 0).seg 0).space = 4 ∧ (((d 0x10000).slot 0 0).seg 0).wr = true
      ∧ (((d 0x10000).slot 0 0).seg 0).cn = false ∧ 0x30000 + 0x10000 ≤ (((d 0x10000).slot 0 0).seg 0).limit
      ∧ ((((d 0x10000).slot 0 0).seg 0).base + 0x30000) % 2 ^ 16 = 0 ∧ 0x10000 % 2 ^ 16 = 0 ∧ LoneReady (d 0x8000) 0 0 mR ∧ 0x8000 % 2 ^ 16 ≠ 0
      ∧ (((lone 0x100 []).slot 0 0).seg 0).space ≠ 4 := by
  refine ⟨strand_ready .., by decide, by decide, by decide, strand_ready .., by decide, by decide, by decide, by decide, by decide, by decide,
    strand_ready .., by decide, by decide⟩

/-! ## Witnesses: engine triggers -/

/-- Numbers at bit places, together. -/
def bits (l : List (Nat × Nat)) : Nat := (l.map (fun e => e.2 * 2 ^ e.1)).sum

/-- Slot 0 with x1 0x100, a block there, other blocks elsewhere, and a completion port without a post. -/
def stored (k : Core) (segs : Table Word) (port b : Nat) (more : List (Nat × Nat)) : State :=
  strand 0 { k with store := (more.foldl (fun m e => m.write 8 e.1 64 e.2) Mem.blank).write 8 0x100 64 b }
    { sl0 with segH := segs, opnd := [(port, 0x400)] } 0x100

/-- A trigger's block is read from 0x100. -/
def blockRead (s : State) (port b : Nat) : Bool :=
  match s.blockAt 0 (s.stepped 0 0) (s.loneValue 0 0 mR) ((s.stepped 0 0).operand port) with
  | .ok r => r.1 == 0x100 && r.2 == BitVec.ofNat 512 b
  | .error _ => false

/-- A map of two words of 8 bytes. -/
def map1 (base : Nat) : Nat := bits [(0, base), (64, 3), (67, 1), (128, 2), (152, 8)]

/-- The block of a copy operation. -/
def cpyB (k : Nat) : Nat := bits ([(0, k), (64, if k = 1 then 0 else 0x140), (128, 0x180)]
  ++ (if k = 2 ∨ k = 3 then [(192, 0x800), (256, 2)] else []) ++ (if k = 5 then [(192, 3)] else []))

/-- Segments of the own core, the cluster and the plane. -/
def segs3 : Table Word := [(0, segCore), (1, BitVec.ofNat 64 (0x180000 + 2 * 2 ^ 48 + 0xB * 2 ^ 52)), (2, BitVec.ofNat 64 (0x40000 + 6 * 2 ^ 48 + 0xB * 2 ^ 52))]

def cpyDst (k : Nat) : Nat := if k = 4 then 2 * 2 ^ 61 + 0x400 else if k = 5 then 2 ^ 61 + 0x400 else 0x400

def cpyS (k : Nat) : State := stored k0 segs3 0x5A (cpyB k) [(0x140, map1 0x300), (0x180, map1 (cpyDst k))]

/-- The hypotheses of an accepted copy operation k. -/
def cpyReady (k : Nat) : Bool :=
  let s := cpyS k
  let sl := s.stepped 0 0
  let b := BitVec.ofNat 512 (cpyB k)
  !s.mustWait 0 0 0 && blockRead s 0x5A (cpyB k) && cpyBlockOk k b && !cpyArrive b
    && match s.cpyFetch 0 k sl b with
      | (.ok u dmap, smap) => cpyMapsOk k sl b smap dmap && (u.cpyRanges 0 k sl b smap dmap).isNone && u.core 0 == { s.core 0 with maps := (u.core 0).maps }
          && u.current == s.current
      | _ => false

/-- CopyAcceptance: each operation. -/
theorem witness_copy : (∀ k, LoneReady (cpyS k) 0 0 mR) ∧ cpyReady 0 = true ∧ cpyReady 1 = true ∧ cpyReady 2 = true ∧ cpyReady 3 = true ∧ cpyReady 4 = true
    ∧ cpyReady 5 = true ∧ (lone (-1) []).loneValue 0 0 mR = -1 :=
  ⟨fun _ => strand_ready .., by decide +kernel, by decide +kernel, by decide +kernel, by decide +kernel, by decide +kernel, by decide +kernel, by decide⟩

/-- The block of a matrix operation: a pass of one part, or of two for the group, or a transfer of two by two. -/
def mxB (k : Nat) : Nat :=
  if k ≤ 1 then bits [(0, k), (48, if k = 1 then 128 else 2), (64, 2), (80, 8), (128, 0x400), (192, 64)]
  else if k = 2 then bits [(0, 2), (48, 1)] else bits [(0, k), (64, 2), (80, 2), (128, 0x400), (192, 64)]

def mxS (k : Nat) : State := stored { k0 with cell := some { cell0 with geom := 0x2200 } } [(0, segCore)] 0x5B (mxB k) []

/-- The hypotheses of an accepted matrix operation k. -/
def mxReady (k : Nat) : Bool :=
  let s := mxS k
  let sl := s.stepped 0 0
  let b := BitVec.ofNat 512 (mxB k)
  !s.mustWait 0 0 1 && blockRead s 0x5B (mxB k) && (if k ≤ 1 then passOk k (s.cell 0).geom b else transferOk k b)
    && (if k ≤ 1 then s.passRanges 0 sl b else s.transferRanges 0 sl k b).isNone
    && (k != 1 || (gridCores 0 (s.cell 0).geom (passOf b)).any (fun g => g.1 != 0))

/-- MatrixAcceptance: each operation; the group's grid has two cores. -/
theorem witness_matrix : (∀ k, LoneReady (mxS k) 0 0 mR) ∧ mxReady 0 = true ∧ mxReady 1 = true ∧ mxReady 2 = true ∧ mxReady 3 = true ∧ mxReady 4 = true :=
  ⟨fun _ => strand_ready .., by decide +kernel, by decide +kernel, by decide +kernel, by decide +kernel, by decide +kernel⟩

/-- The block of a vector operation of one row of two elements; of the 256 of a table for vx.tblset. -/
def vxB (k : Nat) : Nat :=
  bits ([(0, k), (48, if k = 21 then 256 else 2), (64, 1), (256, 1024), (16, if k = 19 then 0xA else if k = 21 then 2 else if k = 23 then 7 else 0),
      (24, if k = 13 then 0xA else 0), (28, if k = 12 ∨ k = 18 then 0xA else if k = 22 then 7 else 0)]
    ++ (if vxUsesY k then [(160, 0x800), (288, 1024)] else []) ++ (if vxUsesZ k then [(192, 0xC00), (320, 1024)] else [])
    ++ (if vxUsesD k then [(224, 0x1000), (352, 1024)] else []) ++ (if vxUsesSc k then [(38, 1), (384, 0x1400), (416, 64)] else []))

def vxS (k : Nat) : State := stored k0 [(0, segCore)] 0x5C (vxB k) []

/-- The hypotheses of an accepted vector operation k. -/
def vxReady (k : Nat) : Bool :=
  let s := vxS k
  let b := BitVec.ofNat 512 (vxB k)
  !s.mustWait 0 0 2 && blockRead s 0x5C (vxB k) && vxBlockOk k b && (s.vxRanges 0 k b).isNone && (k != 21 || !(s.core 0).store.lost 8 (vecOf b).x.addr 1024)

/-- VectorAcceptance: each operation. -/
theorem witness_vector : (∀ k, LoneReady (vxS k) 0 0 mR) ∧ (List.range 24).all vxReady = true := ⟨fun _ => strand_ready .., by decide +kernel⟩

/-- The block of a collective operation over one bucket, or new weights. -/
def colB (k : Nat) : Nat :=
  if k = 4 then bits [(0, 4), (8, 1), (12, 2), (16, 3)] else bits [(0, k), (64, 2 ^ 61), (128, 2 ^ 61 + 0x10000), (192, 96), (256, 96)]

def colS (k : Nat) : State :=
  { stored k0 [(0, segCore), (1, segDev)] 0x60 (colB k) [] with parts := [(0, { Partition.fresh with weights := true })] }

/-- The hypotheses of an accepted collective operation k. -/
def colReady (k : Nat) : Bool :=
  let s := colS k
  let b := BitVec.ofNat 512 (colB k)
  let u := s.cleanLines 0 (fun _ => true)
  !s.mustWait 0 0 4 && blockRead s 0x60 (colB k) && blockRead u 0x60 (colB k) && (if k = 4 then weightsOk b else collBlockOk k (s.stepped 0 0) b)
    && (k == 4 || (u.collRanges 0 (s.stepped 0 0) b).isNone) && (s.part (s.cell 0).part).weights

/-- CollectiveAcceptance: each operation, a die with no waiting command, every device reachable, and a partition that may set weights. -/
theorem witness_collective : (∀ k, LoneReady (colS k) 0 0 mR) ∧ (List.range 5).all colReady = true
    ∧ (∀ k, (((colS k).cleanLines 0 (fun _ => true)).die 0).asks = [] ∧ (colS k).device.toNat < 288 ∧ (colS k).router.unreachable = []) :=
  ⟨fun _ => ready_of_cores (strand_ready ..) rfl rfl, by decide +kernel, fun _ => ⟨rfl, by show (0 : Nat) < 288; decide, rfl⟩⟩

/-- RemoteAccessesLeave: a domain segment that starts in device 3. -/
theorem witness_remote :
    let dom : Word := BitVec.ofNat 64 (2 ^ 40 + 5 * 2 ^ 48 + 0xB * 2 ^ 52)
    let s : State := { strand 0 k0 { sl0 with segH := [(0, dom)], segL := [(0, BitVec.ofNat 64 (3 * 2 ^ 42))], opnd := [(0x5E, 0x300)] } 8 with
      parts := [(0, { Partition.fresh with bind := [(3, 0)] })] }
    let g := (s.slot 0 0).seg 0
    LoneReady s 0 0 mR ∧ s.watches = [] ∧ s.mustWait 0 0 3 = false ∧ (s.slot 0 0).operand 0x5E = 0x300 ∧ (s.slot 0 0).operand 0x5D + s.loneValue 0 0 mR = 8
      ∧ g.space = 5 ∧ g.rd = true ∧ g.wr = true ∧ g.at_ = true ∧ g.cn = false ∧ 8 + 8 ≤ g.limit ∧ g.base / 2 ^ 42 % 512 = 3 ∧ g.base % 2 ^ 42 = 0
      ∧ 3 ≠ s.device.toNat ∧ s.router.unreachable.contains 3 = false ∧ (s.part (s.cell 0).part).bind.has 3 = true := by
  refine ⟨ready_of_cores (strand_ready 0 k0 { sl0 with
    segH := [(0, _)], segL := [(0, BitVec.ofNat 64 (3 * 2 ^ 42))], opnd := [(0x5E, 0x300)] } 8) rfl rfl, ?_⟩
  decide

/-- The block of a message to device 5, with its payload at 0x400. -/
def msgB (k : Nat) : Nat := bits [(0, k), (16, 5), (64, 0x400)]

def msgS (k : Nat) : State := stored k0 [(0, segCore)] 0x5E (msgB k) [(0x400, 2 ^ 64)]

/-- MessagesAccepted: a message, and a remote spawn whose payload names a class. -/
theorem witness_message : (∀ k, LoneReady (msgS k) 0 0 mR ∧ ((msgS k).slot 0 0).held = none)
    ∧ [3, 4].all (fun k => !(msgS k).mustWait 0 0 3 && blockRead (msgS k) 0x5E (msgB k) && msgBlockOk k ((msgS k).cell 0).paninfo (BitVec.ofNat 512 (msgB k))
        && blkWord (BitVec.ofNat 512 (msgB k)) 8 == 0x400 && blkBits (((msgS k).core 0).store.block 0x400) 64 2 != 0
        && !((msgS k).core 0).store.lost 8 0x400 64) = true :=
  ⟨fun _ => ⟨strand_ready .., rfl⟩, by decide +kernel⟩

/-- The cell of core 0 is member 1 of five of panorama 2, whose record of member n is given. -/
def inPanorama (n state : Nat) (t : Word) : State :=
  { strand 0 { k0 with cell := some { cell0 with paninfo := BitVec.ofNat 64 (1 + 4 * 2 ^ 9 + 2 ^ 27 + 2 * 2 ^ 32) } } sl0 t with
    pans := [(2, { Panorama.asked 0 0 0 0 0 [] with members := [(n, ⟨0, state, [], none, 0, 0⟩)] })] }

/-- PanoramaOperations: an ACTIVE member other than the own, the own, the highest member that there may be, and a cell of no panorama. -/
theorem witness_panorama :
    let q (n : Nat) : Panorama := { Panorama.asked 0 0 0 0 0 [] with members := [(n, ⟨0, 1, [], none, 0, 0⟩)] }
    let s := inPanorama 4 1 4
    let u := inPanorama 1 1 1
    LoneReady s 0 0 mR ∧ LoneReady u 0 0 mR ∧ panValid (s.cell 0).paninfo = true ∧ panId (s.cell 0).paninfo = 2 ∧ panMember (s.cell 0).paninfo = 1
      ∧ 4 ≤ panMembers (s.cell 0).paninfo ∧ (s.loneValue 0 0 mR).toNat % 512 = 4 ∧ (u.loneValue 0 0 mR).toNat % 512 = 1 ∧ s.pans = [(2, q 4)] ∧ u.pans = [(2, q 1)]
      ∧ (q 4).attached = [] ∧ (0 : Nat) = s.device.toNat ∧ s.router.unreachable.contains 0 = false ∧ (s.loneValue 0 0 mR).getLsbD 63 = false
      ∧ panValid ((lone 0 []).cell 0).paninfo = false :=
  ⟨ready_of_cores (strand_ready ..) rfl rfl, ready_of_cores (strand_ready ..) rfl rfl, by decide, by decide, by decide, by decide, by decide, by decide, rfl, rfl, rfl,
    by decide, by decide, by decide, by decide⟩

/-! ## Witnesses: a core's turns and late results -/

/-- Core 0 with one slot and no word in the pipeline. -/
def one (e : Event) (k : Core) (sl : Slot) : State := { State.reset with cores := [(0, { k with slots := (0, sl) :: k.slots })], event := some e }

/-- A unit of two words without effect. -/
def nopUnit : FetchUnit := ⟨0, 0, 0⟩

/-- Selection: no word may issue; one of two may, and ranks first. -/
theorem witness_selection :
    let a := { sl0 with st := .ready, base := 1, fetch := some nopUnit }
    let b := { sl0 with st := .ready, base := 3, fetch := some nopUnit }
    let none_ := one (.shutterSelect 0) k0 { sl0 with st := .ready }
    let s := one (.shutterSelect 0) { k0 with slots := [(1, b)] } a
    none_.event = some (.shutterSelect 0) ∧ none_.current = none ∧ (∀ e ∈ (none_.core 0).slots, e.2.eligible 1 = false)
      ∧ s.current = none ∧ (0, a) ∈ (s.core 0).slots ∧ slotsOnce s 0 ∧ a.eligible ((s.core 0).cycles + 1) = true
      ∧ (∀ e ∈ (s.core 0).slots, e.2.inPipe = false ∧ s.waitsForPort 0 e.1 = false)
      ∧ (∀ e ∈ (s.core 0).slots, e.1 ≠ 0 → e.2.eligible ((s.core 0).cycles + 1) = true → ranksBefore (0, a) e = true) := by
  unfold slotsOnce; decide

/-- Selection: a word that reads div.res, and a word one, two and seven cycles after its issue. -/
theorem witness_pipeline :
    let a := { sl0 with st := .ready, base := 1, fetch := some nopUnit }
    let w := { a with fetch := some ⟨0, pairWord ⟨0, 2, false, 0x040 + BitVec.ofNat 12 rDiv⟩ Move.nop, 0⟩, res := [(rDiv, ⟨1, true, 9, 0⟩)] }
    let p (n : Nat) : Slot := { a with st := .issued, issuedAt := n }
    let s (sl : Slot) := one (.shutterSelect 0) { k0 with cycles := 6 } sl
    w.inPipe = false ∧ w.eligible 7 = true ∧ (s w).waitsForPort 0 0 = true ∧ (0, w) ∈ ((s w).core 0).slots ∧ slotsOnce (s w) 0
      ∧ (∀ e ∈ ((s w).core 0).slots, e.1 ≠ 0 → e.2.inPipe = false) ∧ (p 6).inPipe = true ∧ (p 6).issuedAt + 1 = ((s (p 6)).core 0).cycles + 1
      ∧ (p 5).issuedAt + 2 = 7 ∧ (s (p 5)).usesBank 0 0 = false ∧ (p 0).issuedAt + 7 = 7 ∧ (0, p 0) ∈ ((s (p 0)).core 0).slots
      ∧ (∀ e ∈ ((s (p 0)).core 0).slots, e.1 ≠ 0 → e.2.inPipe = false) := by
  unfold slotsOnce; decide

/-- Fetches: the last unit of the store, and the three faults; a miss of the cluster instruction cache. -/
theorem witness_fetch :
    let code (base limit rights : Nat) : Slot := { Slot.free with st := .ready, segL := [(7, BitVec.ofNat 64 base)], segH := [(7, BitVec.ofNat 64 (limit + rights))] }
    let ex := 1 * 2 ^ 48 + 5 * 2 ^ 52
    let s (sl : Slot) := one (.fetchArrival 0 0) k0 sl
    let a := s (code 0x17FFF0 16 ex)
    (a.slot 0 0).st = .ready ∧ (a.slot 0 0).fetch = none ∧ ((a.slot 0 0).seg 7).space = 1 ∧ ((a.slot 0 0).seg 7).ex = true ∧ 0 + 16 ≤ ((a.slot 0 0).seg 7).limit
      ∧ ((a.slot 0 0).seg 7).base + 0 + 16 ≤ 0x180000 ∧ (a.core 0).store.bad = [] ∧ (a.core 0).code = [] ∧ (a.slot 0 0).units = [] ∧ a.breaks = []
      ∧ (((s (code 0 16 0)).slot 0 0).seg 7).space = 0 ∧ (((s (code 0 16 (2 ^ 48))).slot 0 0).seg 7).ex = false
      ∧ (((s (code 0 0 ex)).slot 0 0).seg 7).limit < 0 + 8 ∧ (((s (code 0 0 ex)).slot 0 0).seg 7).ex = true
      ∧ (ev (.clusterIcacheReply 0 0 0) (paged pteHere State.reset)).lineHeld 0 0 = none
      ∧ (ev (.clusterIcacheReply 0 0 0) (fixing (paged pteHere State.reset))).lineHeld 0 0 = some 11 := by decide +kernel

/-- LateResults: div.res comes to a strand that waits for it, and a sleep has run out. -/
theorem witness_late :
    let s := one (.divResult 0 0) k0 { sl0 with st := .waitPort, res := [(rDiv, ⟨1, true, 9, 0⟩)] }
    let u := one (.sleepTimeout 0 0) k0 { sl0 with st := .sleep, park := some (.sleep (some 0)) }
    s.event = some (.divResult 0 0) ∧ ((s.slot 0 0).port rDiv).pending = true ∧ (s.slot 0 0).st = .waitPort
      ∧ u.event = some (.sleepTimeout 0 0) ∧ (u.slot 0 0).park = some (.sleep (some 0)) ∧ 0 ≤ (u.core 0).cycles := by decide

/-- Slot 0 of core 0 holds a word whose live move is a trigger. -/
def heldS (e : Event) (k : Core) (d : BitVec 14) (v : Word) (why : Hold) (sl : Slot) : State :=
  one e k { sl with st := .issued, step := false, stopReq := false, park := none, held := some ⟨why, [⟨d, v, false⟩], 0, 8, 0, none, []⟩ }

/-- That word. -/
def heldW (d : BitVec 14) (v : Word) (why : Hold) : HeldWord := ⟨why, [⟨d, v, false⟩], 0, 8, 0, none, []⟩

/-- It stands there. -/
theorem held_ready (e : Event) (k : Core) (d : BitVec 14) (v : Word) (why : Hold) (sl : Slot) :
    HeldLone (heldS e k d v why sl) 0 0 d v why 8 ∧ ((heldS e k d v why sl).slot 0 0).held = some (heldW d v why) := by
  have h : (heldS e k d v why sl).slot 0 0 = { sl with
      st := .issued, step := false, stopReq := false, park := none, held := some (heldW d v why) } := by
    simp [heldS, heldW, one, State.slot, State.core, Core.slot, Table.get]
  exact ⟨⟨⟨heldW d v why, by rw [h], rfl, rfl, rfl⟩, by rw [h], by rw [h], by rw [h]⟩, by rw [h]⟩

/-- Only the cores matter to that. -/
theorem held_of_cores {s u : State} {c i : Nat} {d : BitVec 14} {v next : Word} {why : Hold} (h : HeldLone s c i d v why next) (hk : u.cores = s.cores) :
    HeldLone u c i d v why next := by
  have e : u.slot c i = s.slot c i := by simp [State.slot, State.core, hk]
  exact ⟨e ▸ h.held, e ▸ h.unstepped, e ▸ h.unstopped, e ▸ h.unparked⟩

/-- WaitingAccesses: an access that was NACKed, a ticket held at a core and at a stack, and a stop of a waiting access. -/
theorem witness_waiting :
    let w : Waiter := ⟨⟨.load, 64, 8, 1, 0, 0⟩, .strand 0 0⟩
    let s := one (.feRetryResend 0 0) k0 { sl0 with st := .waitFe, held := some ⟨.feAt (.core 1), [], 0, 8, 0, some (.nack 3), []⟩ }
    let u := one (.ticketHoldExpiry (.core 0)) { k0 with retry := ⟨[], 2, [0, 1]⟩ } sl0
    let v : State := { one (.ticketHoldExpiry (.stack 11)) k0 sl0 with hbm := [(11, { Stack.fresh with retry := ⟨[], 2, [0, 1]⟩ })] }
    let x := one (.feWithdraw 0 0) { k0 with retry := ⟨[w], 0, []⟩ }
      { sl0 with st := .waitFe, stopReq := true, park := none, held := some ⟨.feLocal 8, [⟨0x2C6, 64, false⟩], 0, 8, 0, none, []⟩ }
    s.event = some (.feRetryResend 0 0) ∧ (s.slot 0 0).held = some ⟨.feAt (.core 1), [], 0, 8, 0, some (.nack 3), []⟩
      ∧ (u.core 0).retry.outstanding = 0 :: [1] ∧ (v.stack 11).retry.outstanding = 0 :: [1]
      ∧ (x.slot 0 0).held = some ⟨.feLocal 8, [⟨0x2C6, 64, false⟩], 0, 8, 0, none, []⟩ ∧ (x.slot 0 0).stopReq = true ∧ (x.slot 0 0).park = none
      ∧ (x.core 0).retry.entries = [w] ∧ w.who = .strand 0 0 := by decide

/-- PagesAndLogs: an absent leaf, a resident one with a word that waits for it, and one entry of a log to merge. -/
theorem witness_pages :
    let s := paged (pteHere - 0x40) { State.reset with event := some (.pageWake 0 0) }
    let u := paged pteHere (one (.pageWake 0 0) k0 { sl0 with st := .waitPage, held := some ⟨.page 0, [], 0, 8, 0, none, []⟩ })
    let v := paged pteHere (one (.logMerge 0) { k0 with logCount := 1 } { sl0 with held := none })
    (∀ d j, (s.slot d j).held = none) ∧ (∀ d j, (v.slot d j).held = none) ∧
    (∃ e size a, s.walk 0 0 = .leaf e size a ∧ pteP e = false ∧ pteDisc e = false ∧ pteLost e = false) ∧ s.asleep = []
      ∧ (∃ e size a, u.walk 0 0 = .leaf e size a ∧ pteP e = true) ∧ u.asleep = [] ∧ (u.slot 0 0).held = some ⟨.page 0, [], 0, 8, 0, none, []⟩
      ∧ (u.cell 0).part = 0 ∧ u.cores = [(0, u.core 0)] ∧ (u.core 0).slots = [(0, u.slot 0 0)]
      ∧ v.event = some (.logMerge 0) ∧ (v.core 0).logCount = (v.core 0).logMerged + 1 ∧ (v.core 0).store.read (0x17F000 + 8 * ((v.core 0).logMerged % 512)) 8 = 0
      ∧ (∃ e size a, v.walk (bitsOf 0 28 4) (bitsOf 0 0 26 * 2 ^ 16) = .leaf e size a) := by
  refine ⟨no_held rfl, no_held rfl, ⟨_, _, _, rfl, rfl, rfl, rfl⟩, rfl, ⟨_, _, _, rfl, rfl⟩, rfl, rfl, rfl, rfl, rfl, rfl, rfl, rfl, ⟨_, _, _, rfl⟩⟩

/-! ## Witnesses: the engines -/

/-- SlotGrant: one strand in line, and a free slot. -/
theorem witness_slot_grant :
    let k := { k0 with store := Mem.blank.write 8 0x100 64 (vxB 0), slotWait := [(0, 2)] }
    let s := heldS (.engineSlotGrant 0 2) k 0x680 0x100 (.engine 2) { sl0 with opnd := [(0x5C, 0x400)] }
    let b := BitVec.ofNat 512 (vxB 0)
    HeldLone s 0 0 0x680 0x100 (.engine 2) 8 ∧ s.event = some (.engineSlotGrant 0 2) ∧ (s.core 0).slotWait = [(0, 2)] ∧ s.freeSlots 0 2 ≠ 0
      ∧ (match s.blockAt 0 { s.slot 0 0 with pc := 8 } 0x100 ((s.slot 0 0).operand 0x5C) with | .ok r => r.1 == 0x100 && r.2 == b | .error _ => false) = true
      ∧ vxBlockOk 0 b = true ∧ (s.vxRanges 0 0 b).isNone = true := by
  refine ⟨(held_ready ..).1, rfl, rfl, by decide, by decide +kernel, by decide +kernel, by decide +kernel⟩

/-- CopyEngine: a command that may start; a fill and a copy of the last word of the store; a completion, with a post and without. -/
theorem witness_copy_engine :
    let one8 (a : Nat) : Block := BitVec.ofNat 512 (bits [(0, a), (64, 3), (67, 1), (128, 1), (152, 8)])
    let m : Cmd := { default_ with active := true, smap := one8 0x300, dmap := one8 0x17FFF8 }
    let f : Cmd := { m with op := 0x601 }
    let d (p : Word) : Cmd := { default_ with finished := true, port := p }
    let s (e : Event) (m : Cmd) := one e { k0 with cpy := { Engine.idle with cmds := [m] } } { sl0 with held := none }
    (∀ e m d j, ((s e m).slot d j).held = none) ∧ (s (.cpyActivate 0) default_).event = some (.cpyActivate 0)
      ∧ (((s (.cpyActivate 0) default_).core 0).cpy.cmds.filter (fun m => m.active && !m.finished)).length < 8
      ∧ nextStart ((s (.cpyActivate 0) default_).core 0).cpy.cmds true = some default_
      ∧ ((s (.cpyPiece 0) m).core 0).cpy.cmds = [m] ∧ m.core = 0 ∧ m.sleeping = [] ∧ m.first = 0 ∧ m.pend = [] ∧ cpyFew m.blk = 0 ∧ cpyArrive m.blk = false ∧ mapSize m.dmap = 8 ∧ (m.seg (segNo (mapBase m.dmap))).space = 1
      ∧ (mapOffset m.dmap 0).toNat = 0x17FFF8 ∧ (m.seg 0).base = 0 ∧ opOf m.op = 0 ∧ opOf f.op = 1 ∧ (mapOffset m.smap 0).toNat = 0x300
      ∧ (((s (.cpyCompletion 0 0) (d 0)).core 0).cpy.cmds.find? (fun x => x.seq == 0 && x.finished)) = some (d 0) ∧ (k0.cell.all fun c => !c.ended) = true
      ∧ portNoPost (d 0).port = false ∧ portSem (d 0).port < cell0.sems ∧ portNoPost (d 0x400).port = true := by
  refine ⟨fun e m => no_held rfl, rfl, ?_⟩
  repeat' apply And.intro
  all_goals decide +kernel

/-- MatrixEngine: a part that core 12 takes; a pass of one element; a clear; a completion. -/
theorem witness_matrix_engine :
    let g : Cmd := { default_ with op := 0x641, waiting := [12] }
    let p : Cmd := { default_ with op := 0x640, blk := BitVec.ofNat 512 (bits [(16, 2), (20, 2), (48, 1), (64, 1), (80, 1), (128, 0x400)]) }
    let z : Cmd := { default_ with op := 0x642, blk := BitVec.ofNat 512 (mxB 2) }
    let d : Cmd := { default_ with finished := true }
    let s (e : Event) (m : Cmd) := one e { k0 with mx := { Engine.idle with cmds := [m] } } { sl0 with held := none }
    let w : State := { s (.mxPartAccept 0 0 12) g with cores := (12, k0) :: (s (.mxPartAccept 0 0 12) g).cores }
    (∀ e m d j, ((s e m).slot d j).held = none) ∧ w.event = some (.mxPartAccept 0 0 12) ∧ w.mxCmd 0 0 = some g ∧ g.waiting.contains 12 = true
      ∧ (w.core 12).cell = some cell0 ∧ cell0.launch = (w.cell 0).launch ∧ cell0.gang = (w.cell 0).gang ∧ cell0.ended = false ∧ w.freeSlots 12 1 ≠ 0
      ∧ ((s (.mxPassStart 0) p).core 0).mx.cmds = [p] ∧ opOf p.op = 0
      ∧ (let v := passOf p.blk
         v.op = 0 ∧ v.m = 1 ∧ v.n = 1 ∧ v.k = 1 ∧ v.nb = 1 ∧ v.ascf = 0 ∧ v.bscf = 0 ∧ v.occen = false ∧ v.afmt = 2 ∧ v.bfmt = 2 ∧ (p.seg (segNo v.aaddr)).space = 1
          ∧ (p.seg (segNo v.aaddr)).base + offOf v.aaddr + 4 ≤ 0x180000)
      ∧ k0.store.bad = [] ∧ k0.plane.bad = [] ∧ k0.accBad = [] ∧ opOf z.op = 2 ∧ z.first < z.last ∧ bitsOf (transferOf z.blk).tiles 0 1 = 1
      ∧ ((s (.mxCompletion 0 0) d).core 0).mx.cmds = [d] ∧ d.parent = none ∧ portNoPost d.port = true := by
  refine ⟨fun e m => no_held rfl, rfl, ?_⟩
  repeat' apply And.intro
  all_goals decide +kernel

/-- VectorEngine: a command that starts, vx.tblset that starts, a chunk of one element, and a completion. -/
theorem witness_vector_engine :
    let m : Cmd := { default_ with op := 0x680, blk := BitVec.ofNat 512 (bits [(48, 1), (64, 1), (160, 0x800), (224, 0x1000)]) }
    let s (e : Event) (m : Cmd) := one e { k0 with vx := { Engine.idle with cmds := [m] } } { sl0 with held := none }
    let v := vecOf m.blk
    (∀ e m d j, ((s e m).slot d j).held = none) ∧ (s (.vxChunk 0) m).event = some (.vxChunk 0) ∧ ((s (.vxChunk 0) m).core 0).vx.cmds = [m] ∧ m.active = false ∧ v.op ≠ 21
      ∧ (vecOf (BitVec.ofNat 512 (vxB 21))).op = 21 ∧ v.shape = (1, 1) ∧ v.few = 0 ∧ v.d.fmt = 0 ∧ v.d.addr % 4 = 0
      ∧ ({ m with active := true }.vxElem ((s (.vxChunk 0) m).core 0) v 0 0).bad = [] ∧ m.core = 0 ∧ m.first = 0 ∧ m.last = 1 ∧ portNoPost m.port = true := by
  refine ⟨fun e m => no_held rfl, rfl, ?_⟩
  repeat' apply And.intro
  all_goals decide +kernel

/-! ## Witnesses: replies -/

/-- RemoteReplies: a fab.ld word that waits for device 3. -/
theorem witness_remote_reply (rep : Reply) :
    let s := heldS (.remoteAccessReply 0 0 rep) k0 0x6C0 8 (.remote 3) { sl0 with opnd := [(0x5E, 0x300)] }
    s.event = some (.remoteAccessReply 0 0 rep) ∧ HeldLone s 0 0 0x6C0 8 (.remote 3) 8 ∧ (s.slot 0 0).held = some (heldW 0x6C0 8 (.remote 3))
      ∧ (s.slot 0 0).operand 0x5E = 0x300 := ⟨rfl, (held_ready ..).1, (held_ready ..).2, rfl⟩

/-- The pool controller of core 0's cluster has pool 15 as given. -/
def withPool (p : Pool) (s : State) : State := s.setCluster 0 { s.cluster 0 with pools := [(15, p)] }

/-- AgentReplies: a pool with room, a full one, a closed one, one with an item, and a detector to arm. -/
theorem witness_agent_replies :
    let put := heldS (.poolReply 0 0) k0 0x3C2 15 .pool { sl0 with opnd := [(0x4A, 15)] }
    let take := heldS (.poolReply 0 0) k0 0x3C3 15 .pool sl0
    let close := heldS (.poolReply 0 0) k0 0x3C4 15 .pool sl0
    let full : Pool := { Pool.free with items := List.replicate 2048 5 }
    let some_ : Pool := { Pool.free with items := [5, 6] }
    let shut : Pool := { Pool.free with isOpen := false }
    let arm : State := { heldS (.detectorReply 0 0) k0 0x3C5 0 .detector sl0 with launches := [(7, Launch.new 0 0 0 0 [] false none 0)] }
    HeldLone (withPool Pool.free put) 0 0 0x3C2 15 .pool 8 ∧ (((withPool Pool.free put).slot 0 0).operand 0x4A).toNat % 16 = 15
      ∧ ((withPool Pool.free put).pool 0 15).isOpen = true ∧ ((withPool Pool.free put).pool 0 15).takers = [] ∧ ((withPool Pool.free put).pool 0 15).items.length < 2048
      ∧ 2048 ≤ ((withPool full put).pool 0 15).items.length ∧ ((withPool full put).pool 0 15).isOpen = true ∧ ((withPool shut put).pool 0 15).isOpen = false
      ∧ HeldLone (withPool some_ take) 0 0 0x3C3 15 .pool 8 ∧ ((withPool some_ take).pool 0 15).items = 5 :: [6]
      ∧ HeldLone (withPool full close) 0 0 0x3C4 15 .pool 8 ∧ ((withPool full close).pool 0 15).takers = []
      ∧ HeldLone arm 0 0 0x3C5 0 .detector 8 ∧ (arm.cell 0).launch = 7 ∧ arm.launches = [(7, Launch.new 0 0 0 0 [] false none 0)] := by
  refine ⟨held_of_cores (held_ready (.poolReply 0 0) .. : HeldLone (heldS (.poolReply 0 0) k0 0x3C2 15 .pool { sl0 with opnd := [(0x4A, 15)] }) _ _ _ _ _ _ ∧ _).1 rfl, by decide, rfl, rfl, by decide,
    Nat.le_of_eq (List.length_replicate (n := 2048) (a := (5 : Word))).symm, rfl, rfl, held_of_cores (held_ready (.poolReply 0 0) .. : HeldLone (heldS (.poolReply 0 0) k0 0x3C3 15 .pool sl0) _ _ _ _ _ _ ∧ _).1 rfl, rfl, held_of_cores (held_ready (.poolReply 0 0) .. : HeldLone (heldS (.poolReply 0 0) k0 0x3C4 15 .pool sl0) _ _ _ _ _ _ ∧ _).1 rfl, rfl, held_of_cores (held_ready (.detectorReply 0 0) .. : HeldLone (heldS (.detectorReply 0 0) k0 0x3C5 0 .detector sl0) _ _ _ _ _ _ ∧ _).1 rfl, rfl, rfl⟩

/-- MaintenanceReplies: stack 11 and stack 12, the core's own counts, and a range of device memory that no page maps. -/
theorem witness_maintenance :
    let s (d : BitVec 14) (v : Word) := heldS (.mntReply 0 0) k0 d v .mnt { sl0 with segH := [(0, segDev)], opnd := [(0x59, 0x10000)] }
    HeldLone (s 0x503 11) 0 0 0x503 11 .mnt 8 ∧ HeldLone (s 0x503 12) 0 0 0x503 12 .mnt 8 ∧ HeldLone (s 0x504 1) 0 0 0x504 1 .mnt 8
      ∧ HeldLone (s 0x505 0x800000000000000B) 0 0 0x505 0x800000000000000B .mnt 8 ∧ (0x800000000000000B : Word).getLsbD 63 = true
      ∧ HeldLone (s 0x506 0x30000) 0 0 0x506 0x30000 .mnt 8 ∧ (match discardRange ((s 0x506 0x30000).slot 0 0) 0x30000 with | .ok r => r == (0x30000, 0x10000) | _ => false) = true
      ∧ ((s 0x506 0x30000).part ((s 0x506 0x30000).cell 0).part).root = none :=
  ⟨(held_ready ..).1, (held_ready ..).1, (held_ready ..).1, (held_ready ..).1, by decide, (held_ready ..).1, by decide, rfl⟩

/-- QuiescenceSamples: a generation that is declared, and one that is not. -/
theorem witness_quiescence :
    let d : Detector := { Detector.fresh with gen := 1, armed := true, lastIdle := true }
    let la : Launch := { Launch.new 0 0 0 0 [] false none 0 with detector := d }
    let s : State := { State.reset with launches := [(7, la)], event := some (.quiescenceSample false 7) }
    s.event = some (.quiescenceSample false 7) ∧ s.launches = [(7, la)] ∧ la.pan = none ∧ s.launchIdle 7 = true ∧ d.activity = false ∧ d.lastIdle = true ∧ d.armed = true
      ∧ la.allOut = true ∧ ({ d with armed := false } : Detector).armed = false := ⟨rfl, rfl, rfl, by decide, rfl, rfl, rfl, by decide, rfl⟩

/-! ## Witnesses: the fabric -/

/-- A message from device 3 to ring 7 of core 0. -/
def msg0 : Msg := { srcDev := 3, srcCore := 1, srcSeq := 4, srcPart := 0, srcGsi := 9, panid := 0, pan := false, dest := 0, core := 0, ring := some 7, object := (7, 0, 0), payload := 1 }

/-- A cell that takes spawns. -/
def cellS : Cell := { cell0 with spawn := true }

/-- Core 0 with ring 7 as given and a cell that takes spawns, of a partition bound to device 3. -/
def ringed (e : Event) (g : Ring) : State :=
  { one e { k0 with cell := some cellS, rings := [(7, g)] } sl0 with parts := [(0, { Partition.fresh with bind := [(3, 0)] })] }

/-- Arrivals: a ring with room, one that is full, and none; an intake with room; an entry to deliver; a post to a cell that runs and to one that is
stopped; a domain arrival that completes its phase, and one that does not. -/
theorem witness_arrivals :
    let room : Ring := { Ring.none with base := 64, size := 16, tail := 15 }
    let fullR : Ring := { Ring.none with base := 64, size := 16, tail := 16 }
    let s := ringed (.messageArrival msg0) room
    let u := ringed (.spawnIntakeArrival { msg0 with ring := none }) room
    let d := one (.intakeDelivery 0) { k0 with cell := some cellS, intake := [{ msg0 with ring := none }] } sl0
    let ch : Channel := { Channel.free with mask := [1], expect := 1 }
    let away : State := { s with cores := [], launches := [(7, { Launch.new 0 0 0 0 [] false none 0 with
      gangs := [(0, { Gang.waiting 0x11 with saved := [(0, { k0 with cell := some cellS, rings := [(7, room)] })] })] })] }
    let b (h : Channel) : State := { State.reset with domain := [(3, h)], event := some (.domainBarrierArrival 2 3 0 1 0 5) }
    (s.core 0).cell = some cellS ∧ msg0.core = 0 ∧ msg0.pan = false ∧ s.objectFor 0 3 0 0 0 false (some 7) = true ∧ cellS.preempt = .running
      ∧ (room.tail - room.head).toNat < room.size ∧ fullR.size ≤ (fullR.tail - fullR.head).toNat ∧ (ringed (.messageArrival msg0) fullR).objectFor 0 3 0 0 0 false (some 7) = true
      ∧ s.objectFor 0 4 0 0 0 false (some 7) = false ∧ u.objectFor 0 3 0 0 0 false none = true ∧ cellS.intakeOpen = true ∧ (u.core 0).intake.length < 64
      ∧ (d.core 0).intake = { msg0 with ring := none } :: [] ∧ (d.core 0).intakeInto = some 0 ∧ (d.core 0).intakeAt ≠ (d.core 0).cycles + 1 ∧ s.targetCore false 0 0 0 = 0
      ∧ s.objectSaved 0 3 0 0 0 false (some 7) = false ∧ away.objectFor 0 3 0 0 0 false (some 7) = false ∧ away.objectSaved 0 3 0 0 0 false (some 7) = true ∧ cellS.ended = false ∧ 15 < cellS.sems
      ∧ ({ cellS with preempt := .stopped } : Cell).preempt ≠ .running
      ∧ ((b ch).domain.get Channel.free 3).arrive (0 * 128 + 1) 0 5 = some ({ ch with cnt := [(1, 1)], acc0 := ch.acc0.combine 0 5 }, 0)
      ∧ ({ ch with cnt := [(1, 1)], acc0 := ch.acc0.combine 0 5 } : Channel).ready = true
      ∧ ({ ch with cnt := [(1, 1)], acc0 := ch.acc0.combine 0 5 } : Channel).complete.ready = false
      ∧ ({ ch with mask := [1, 2], cnt := [(1, 1)] } : Channel).ready = false := by
  repeat' apply And.intro
  all_goals decide +kernel

/-- A load of 8 bytes by core 1 of device 3. -/
def req0 : RemoteReq := { srcDev := 3, srcCore := 1, srcSlot := 2, srcPart := 0, panid := 2, srcMember := 1, space := 5, member := 0, core := 0
                          acc := ⟨.load, 0, 8, 0, 0, 0⟩, ticket := none, post := none }

/-- RequestsAtTarget: bound memory, resident and absent; an unbound partition; a member that is not here; a member's core; attaching to an ACTIVE
and to a DEPARTED member. -/
theorem witness_targets :
    let tlb (e : Nat) : TlbEntry := { part := 0, va := 0, size := 65536, entry := BitVec.ofNat 64 e }
    let s (e : Nat) : State := ({ paged e State.reset with event := some (.remoteRequest req0) }).setCluster 0 { State.reset.cluster 0 with tlb := [tlb e] }
    let bound : State := { s pteHere with parts := [(0, { Partition.fresh with root := some 0x10000, bind := [(3, 0)] })] }
    let q : Panorama := { Panorama.asked 0 0 0 0 0 [] with members := [(0, ⟨0, 1, [], none, 0, 0⟩), (1, ⟨0, 3, [], none, 0, 0⟩)] }
    let c : Cell := { cell0 with paninfo := BitVec.ofNat 64 (2 ^ 27 + 2 * 2 ^ 32) }
    let pan : State := { one (.remoteRequest { req0 with space := 3, acc := ⟨.store, 0x17FFF8, 8, 0, 7, 0⟩ }) { k0 with cell := some c } sl0 with pans := [(2, q)] }
    (s pteHere).event = some (.remoteRequest req0) ∧ ((s pteHere).part 0).bind.has 3 = false ∧ (bound.part 0).bind.has 3 = true ∧ (bound.part 0).bind.get 0 3 = 0
      ∧ tlbFind ((s pteHere).cluster 0).tlb 0 0 = some (tlb pteHere) ∧ tlbFind ((s (pteHere - 0x40)).cluster 0).tlb 0 0 = some (tlb (pteHere - 0x40))
      ∧ pteLost (tlb pteHere).entry = false ∧ pteRd (tlb pteHere).entry = true ∧ pteP (tlb pteHere).entry = true ∧ pteDisc (tlb pteHere).entry = false
      ∧ pteP (tlb (pteHere - 0x40)).entry = false ∧ pteRd (tlb (pteHere - 0x40)).entry = true ∧ bound.memory.bad = []
      ∧ bound.heldAt 0x40000 = none ∧ req0.post = none ∧ (match bound.walk 0 0 with | .leaf w _ _ => !pteDisc w | _ => false) = true
      ∧ pan.member 2 5 = none ∧ pan.member 2 0 = some ⟨0, 1, [], none, 0, 0⟩ ∧ pan.member 2 1 = some ⟨0, 3, [], none, 0, 0⟩ ∧ pan.frozenPan 2 = false
      ∧ (pan.core 0).cell = some c ∧ panValid c.paninfo = true ∧ panId c.paninfo = 2 ∧ panMember c.paninfo = 0 := by
  repeat' apply And.intro
  all_goals decide +kernel

/-- Reservations: an object with room and without, no object; credits released, refused and returned; a message that asks again; an idle credit. -/
theorem witness_reservations :
    let r : ReserveReq := { srcDev := 3, srcCore := 0, srcSeq := 4, srcPart := 0, panid := 0, pan := false, dest := 0, dstDev := 0, core := 0, ring := some 7
                            object := (7, 0, 0), credits := 8, ticket := none }
    let room : Ring := { Ring.none with base := 64, size := 16, tail := 15 }
    let fullR : Ring := { room with tail := 16 }
    let s := ringed (.reserveRequest r) room
    let e : Credit := ⟨1, 3, 0, some 7, (7, 0, 0), 2⟩
    let m : Cmd := { default_ with op := 0x6C3, blk := BitVec.ofNat 512 (msgB 3 - 2 * 2 ^ 16) }
    let u : State := { one (.reserveResend 0 0) { k0 with fab := { Engine.idle with cmds := [m] }, credits := [e] } sl0 with
      parts := [(0, { Partition.fresh with bind := [(3, 0)] })] }
    s.event = some (.reserveRequest r) ∧ s.targetCore false 0 0 0 = 0 ∧ s.objectSaved 0 4 0 0 0 false (some 7) = false ∧ s.objectFor 0 3 0 0 0 false (some 7) = true ∧ (s.core 0).freeFor (some 7) ≠ 0 ∧ ((s.core 0).tickets (some 7)).2 = []
      ∧ ((ringed (.reserveRequest r) fullR).core 0).freeFor (some 7) = 0 ∧ s.objectFor 0 4 0 0 0 false (some 7) = false
      ∧ ({ r with ticket := some 1 } : ReserveReq).credits ≠ 0 ∧ ({ r with ticket := some 1, credits := 0 } : ReserveReq).credits = 0
      ∧ (ringed (.creditReturn { r with dstDev := 3 }) room).event = some (.creditReturn { r with dstDev := 3 })
      ∧ ((one (.creditReturn { r with dstDev := 3 }) { k0 with credits := [e] } sl0).core 0).credits = e :: [] ∧ e.device = 3 ∧ e.core = 0 ∧ e.ring = some 7 ∧ k0.fab.cmds = []
      ∧ u.fabCmd 0 0 = some m ∧ m.first = 0 ∧ (match u.msgTarget m with | .ok x => x == (3, 0) | _ => false) = true ∧ 3 ≠ u.device.toNat
      ∧ (u.core 0).credits[0]? = some e ∧ e.credits ≠ 0 := by
  repeat' apply And.intro
  all_goals decide +kernel

/-- MessageEnds: an acknowledgement without a fault, and a refusal that is tried again, here and at device 3. -/
theorem witness_message_ends :
    let m : Cmd := { default_ with op := 0x6C3, first := 2, blk := BitVec.ofNat 512 (msgB 3 - 2 * 2 ^ 16) }
    let n : Cmd := { m with blk := BitVec.ofNat 512 (msgB 3 - 5 * 2 ^ 16) }
    let s (e : Event) (m : Cmd) : State := { one e { k0 with fab := { Engine.idle with cmds := [m] } } { sl0 with held := none } with
      parts := [(0, { Partition.fresh with bind := [(3, 0)] })] }
    (∀ e m d j, ((s e m).slot d j).held = none) ∧ (s (.messageAcknowledge 0 0 0) m).event = some (.messageAcknowledge 0 0 0)
      ∧ ((s (.messageAcknowledge 0 0 0) m).core 0).fab.cmds = [m] ∧ m.core = 0 ∧ m.seq < 2 ^ 32 ∧ m.fault = 0 ∧ portNoPost m.port = true ∧ m.first = 2
      ∧ msgPan m.blk = false ∧ (match (s (.refusedArrivalRetry 0 0) m).msgTarget m with | .ok x => x == (3, 0) | _ => false) = true
      ∧ (match (s (.refusedArrivalRetry 0 0) n).msgTarget n with | .ok x => x == (0, 0) | _ => false) = true := by
  refine ⟨fun e m => no_held rfl, rfl, ?_⟩
  repeat' apply And.intro
  all_goals decide +kernel

/-- Departures: a hold to take away, a member that departs, and one that is held. -/
theorem witness_departures :
    let q (h : List Nat) : Panorama := { Panorama.asked 0 0 0 0 0 [] with members := [(1, ⟨0, 2, h, none, 0, 0⟩)] }
    let s (e : Event) (h : List Nat) : State := { State.reset with
      pans := [(2, q h)], launches := [(7, Launch.new 0 0 0 0 [] false (some 2) 1)], event := some e }
    (s (.detachRemoval 2 1 5) [5]).panAt 2 = some (q [5]) ∧ (s (.detachRemoval 2 1 5) [5]).member 2 1 = some ⟨0, 2, [5], none, 0, 0⟩
      ∧ (s (.detachRemoval 2 1 5) [5]).stillAsking 2 1 5 = false ∧ (s (.memberDeparture 2 1) []).member 2 1 = some ⟨0, 2, [], none, 0, 0⟩
      ∧ (s (.detachRemoval 2 1 5) [5]).outstanding 2 5 1 = false ∧ (s (.memberDeparture 2 1) []).memberCores 2 1 = [] ∧ (0 : Nat) = (s (.memberDeparture 2 1) []).device.toNat
      ∧ (∃ e ∈ (s (.memberDeparture 2 1) []).launches, e.2.pan = some 2) ∧ [5] ≠ ([] : List Nat) :=
  ⟨rfl, rfl, by decide, rfl, by decide, by decide, by decide, ⟨_, List.mem_singleton.2 rfl, rfl⟩, by decide⟩

/-- The waiting command of position n of the ring of 0 along X, like the one of colB. -/
def ask (n : Nat) : ColAsk :=
  let v := collOf (BitVec.ofNat 512 (colB 0))
  { device := n, seq := 0, part := 0, tag := v.tag, dim := v.dim, op := v.op, fmt := v.fmt, root := v.root, count := v.count, bucket := v.bucket }

/-- CollectiveEngine: a match, a mismatch and an abort of a command, one bucket of 96 words read, and a completion. -/
theorem witness_collective_engine :
    let m : Cmd := { default_ with op := 0x700, blk := BitVec.ofNat 512 (colB 0), segH := [(0, segCore), (1, segDev)], active := true }
    let s (e : Event) (m : Cmd) : State :=
      (paged pteHere (one e k0 { sl0 with held := none })).setDie 0 { State.reset.die 0 with col := { Engine.idle with cmds := [m] } }
    let c : Cmd := { m with active := false }
    let rung (part : Nat) : State := { (s (.colMatch 0 (ask 5)) c).setDie 0 { (s (.colMatch 0 (ask 5)) c).die 0 with asks := (upFrom 1 4).map ask } with
      parts := [(0, { Partition.fresh with root := some 0x10000, bind := (upFrom 1 5).map (fun n => (n, part)) })] }
    (∀ e m d j, ((s e m).slot d j).held = none) ∧ ((s (.colMatch 0 (ask 1)) default_).die 0).col.cmds = [default_] ∧ default_.finished = false ∧ default_.active = false
      ∧ default_.matched = false ∧ (ringOthers 0 0).length = 5 ∧ ((rung 0).setDie 0 { (rung 0).die 0 with asks := ((rung 0).die 0).asks ++ [ask 5] }).colFits 0 c = (upFrom 1 5).map ask
      ∧ (rung 0).colVerdict c ((upFrom 1 5).map ask) = 0 ∧ (rung 1).colVerdict c ((upFrom 1 5).map ask) ≠ 0 ∧ ((rung 0).die 0).col.cmds = [c]
      ∧ m.first < m.last ∧ m.parts < 4 ∧ (collOf m.blk).gate = false
      ∧ (match ((s (.colBucket 0 0 []) m).taken.bucketRead m (elemBits (collOf m.blk).fmt / 8) (upFrom (m.first * (collOf m.blk).bucket) (collOf m.blk).bucket)).2 with
          | .ok _ l => l.isEmpty | _ => false) = true
      ∧ portNoPost { default_ with finished := true }.port = true := by
  refine ⟨fun e m => no_held rfl, rfl, ?_⟩
  repeat' apply And.intro
  all_goals decide +kernel

/-- RouterSlots: a flit of the highest class, one for this device, and one for a neighbour; a port that is asked for, and an injector that has waited 255 slots. -/
theorem witness_router :
    let f (cls : BitVec 3) (dest : BitVec 9) : Flit := { dest := dest, src := 3, age := 255, cls := cls, opc := 0, tag := 0, dcore := 0, score := 0, len := 0, part := 0, addr := 0, payload := 0 }
    let s (g : Flit) : State := { State.reset with event := some (.routerLinkSlot [(5, g)] []) }
    let full : State := { State.reset with
      event := some (.routerLinkSlot ((List.range 6).map (fun p => (p, f 1 1))) []), router := { Router.fresh with inject := [f 0 1], waited := 255 } }
    (s (f 7 1)).event = some (.routerLinkSlot [(5, f 7 1)] []) ∧ (s (f 7 1)).router.inject = [] ∧ (s (f 7 1)).router.asked = [] ∧ 5 ∈ (s (f 7 1)).router.working
      ∧ 4 ≤ (f 7 1).cls.toNat ∧ (f 3 0).cls.toNat < 4 ∧ 1 ≤ (f 1 0).cls.toNat ∧ (f 0 0).cls = 0 ∧ (f 3 0).dest.toNat = (s (f 3 0)).device.toNat
      ∧ (f 3 1).dest.toNat ≠ (s (f 3 1)).device.toNat ∧ (ev (.routerLinkSlot [] [5]) State.reset).router.working.contains 5 = true ∧ full.router.inject ≠ []
      ∧ (full.router.arrivals ((List.range 6).map (fun p => (p, f 1 1)))).length = full.router.working.length ∧ full.router.waited = 255 := by
  repeat' apply And.intro
  all_goals decide +kernel

/-- LinksAndLosses: a replay that is not the 16th and one that is, a link that goes down, and a lost device that a word waits for. -/
theorem witness_links :
    let f : Flit := { dest := 1, src := 0, age := 0, cls := 1, opc := 0, tag := 0, dcore := 0, score := 0, len := 0, part := 0, addr := 0, payload := 0 }
    let s (n : Nat) : State := { State.reset with event := some (.linkReplay 5), router := { Router.fresh with outgoing := [(5, f)], replays := [(5, n)] } }
    let w := heldS (.fabricUnreachable 3) k0 0x6C0 8 (.remote 3) sl0
    (s 14).router.outgoing.find? (fun e => e.1 == 5) = some (5, f) ∧ (s 14).router.down.contains 5 = false ∧ (s 14).router.replays.get 0 5 < 15
      ∧ 15 ≤ (s 15).router.replays.get 0 5 ∧ w.event = some (.fabricUnreachable 3) ∧ 3 ≠ w.device.toNat ∧ w.router.unreachable.contains 3 = false
      ∧ w.cores = [(0, w.core 0)] ∧ (w.core 0).slots = [(0, w.slot 0 0)] ∧ (w.cell 0).preempt ≠ .stopped ∧ (w.slot 0 0).held = some (heldW 0x6C0 8 (.remote 3))
      ∧ isTrigger 0x6C0 = true ∧ blockOf 0x6C0 = 0x1B ∧ (w.core 0).cpy.cmds = [] ∧ (w.core 0).fab.cmds = [] :=
  ⟨by decide +kernel, by decide, by decide, by decide, rfl, by decide, by decide, rfl, rfl, by decide, rfl, by decide, by decide, rfl, rfl⟩

/-! ## Witnesses: traps and pre-emption -/

/-- TrapDisposals: a record to write; one of the handler, one that a debugger claims, one that the handler covers, one that nothing covers; a handler
that starts. -/
theorem witness_disposals :
    let r : Block := BitVec.ofNat 512 (bits [(8, 5)])
    let trapped (e : Event) (k : Core) : State := one e { k with faults := [(0, 5)] } { sl0 with st := .trapped, trap := some r, serial := 0 }
    let mail (i : Nat) (s : State) : State := s.setCluster 0 { s.cluster 0 with mailbox := [⟨0, i, r, false, false⟩] }
    let s (i : Nat) (k : Core) : State := mail i (trapped (.trapDisposal 0 0 i) k)
    let kh : Core := { k0 with cell := some { cell0 with handler := true, hmask := 0x20 } }
    let claimed : State := { s 0 k0 with parts := [(0, { Partition.fresh with attached := true, claims := 0x20 })] }
    let h := mail 0 (trapped (.handlerStart 0) kh)
    ((trapped (.mailboxRecordWrite 0 0) k0).core 0).faults.head? = some (0, 5) ∧ ((trapped (.mailboxRecordWrite 0 0) k0).slot 0 0).trap = some r
      ∧ (((trapped (.mailboxRecordWrite 0 0) k0).cluster 0).mailbox.filter (fun m => m.core == 0)).length < 4
      ∧ ((s 255 k0).cluster 0).mailbox = [⟨0, 255, r, false, false⟩] ∧ ((s 254 k0).cluster 0).mailbox = [⟨0, 254, r, false, false⟩] ∧ blkField r 1 1 = 5
      ∧ (claimed.part 0).attached = true ∧ (claimed.part 0).claims.getLsbD 5 = true ∧ (claimed.slot 0 0).st = .trapped
      ∧ ((s 0 kh).part 0).attached = false ∧ ((s 0 kh).cell 0).handler = true ∧ ((s 0 kh).cell 0).hmask.getLsbD 5 = true ∧ ((s 0 k0).cell 0).handler = false
      ∧ (h.cluster 0).mailbox = [⟨0, 0, r, false, false⟩] ∧ (h.core 0).handling = none ∧ (h.slot 0 255).st = .free ∧ (h.cell 0).preempt = .running
      ∧ (h.cell 0).ended = false ∧ (h.cell 0).handler = true ∧ (h.cell 0).hmask.getLsbD 5 = true ∧ (h.part 0).attached = false ∧ (h.slot 0 0).st = .trapped := by
  repeat' apply And.intro
  all_goals decide +kernel

/-- Preemption: a gang with one cell that runs, whose handler is busy, that has stopped, is saved, or is slow to save. -/
theorem witness_preemption :
    let cell (p : Preempt) : Cell := { cell0 with handler := true, savesz := 64, preempt := p }
    let ga (p : Preempt) : Gang := { Gang.waiting 0x11 with cluster := some 0, loaded := true, cores := [0], preempt := p }
    let la (p : Preempt) : Launch := { Launch.new 0 0 0 0 [] false none 0 with gangs := [(0, ga p)] }
    let s (e : Event) (g p : Preempt) (st : SlotState) (h : Option Block) : State := { one e { k0 with cell := some (cell p), handling := h } { sl0 with st := st } with
      launches := [(7, la g)] }
    let run := s (.preemptRequest 7 0) .running .running .ready none
    run.launches = [(7, la .running)] ∧ (la .running).gangs = [(0, ga .running)] ∧ (la .running).pan = none ∧ (la .running).ending = none ∧ run.cores = [(0, run.core 0)]
      ∧ (run.core 0).cell = some (cell .running) ∧ (cell .running).launch = 7 ∧ (cell .running).gang = 0 ∧ (cell .running).ended = false ∧ (cell .running).handler = true
      ∧ (cell .running).savesz ≠ 0 ∧ (run.core 0).handlerBusy = false ∧ (run.core 0).slots = [(0, run.slot 0 0)] ∧ (run.slot 0 0).st = .ready ∧ (run.slot 0 0).held = none
      ∧ (run.slot 0 0).park = none ∧ run.current = none ∧ ((s (.preemptRequest 7 0) .running .running .ready (some 0)).core 0).handlerBusy = true
      ∧ (∀ e ∈ ((s (.saveHandlerStart 7 0) .stopped .stopped .stopped none).core 0).slots, e.2.st = .free ∨ e.2.st = .stopped)
      ∧ (ga .stopped).preempt = .stopped ∧ (cell .saved).preempt = .saved ∧ ((s (.saveComplete 7 0) .saving .saved .stopped none).core 0).lines = [] ∧ (ga .saving).preempt = .saving
      ∧ ((s (.preemptLimitExpiry 7 0) .saving .saving .stopped none).slot 0 0).waitdesc = 0 ∧ ((s (.preemptLimitExpiry 7 0) .saving .saving .stopped none).core 0).posts = [] := by
  refine ⟨rfl, rfl, rfl, rfl, rfl, rfl, rfl, rfl, rfl, rfl, ?_⟩
  repeat' apply And.intro
  all_goals decide +kernel

/-- Restores: a saved gang of one cell whose image has a section of 8 bytes, with room for it in cluster 6; the same where the image lies in a frame under repair. -/
theorem witness_restores :
    let cell : Cell := { cell0 with handler := true, savesz := 64, preempt := .saved, cellinfo := BitVec.ofNat 64 (95 + 0xFFFF * 2 ^ 48) }
    let old : Core := { k0 with cell := some cell }
    let ga : Gang := { Gang.waiting 0x11 with preempt := .saved, saved := [(0, old)] }
    let d : BitVec 2048 := BitVec.ofNat 2048 (2 ^ (8 * 78) + 0x180000 * 2 ^ (8 * 72))
    let la : Launch := { Launch.new 0 0 0 d [] false none 0 with gangs := [(0, ga)], imageOk := true, sections := [BitVec.ofNat 256 (2 ^ 131 + 2 ^ 198)] }
    let u : State := paged pteHere { State.reset with launches := [(7, la)], event := some (.restorePlacement 7 0 6) }
    u.launches = [(7, la)] ∧ la.gangs = [(0, ga)] ∧ la.pan = none ∧ ga.preempt = .saved ∧ ga.saved = [(0, old)] ∧ old.cell = some cell ∧ ga.channels = [] ∧ ga.pools = []
      ∧ (u.cluster 6).inService = true ∧ (u.cluster 6).powered = true ∧ u.coreFree (6 * 96 + bitsOf cell.cellinfo.toNat 0 7) = true ∧ la.sections.length = 1
      ∧ (match (State.coreImage la la.sections Mem.blank u.taken).2 with | .ok m => m == Mem.blank | .error _ => false) = true
      ∧ (match (State.coreImage la la.sections Mem.blank (fixing u).taken).2 with | .error n => n == 0 | .ok _ => false) = true := by
  refine ⟨rfl, rfl, rfl, rfl, rfl, rfl, rfl, rfl, ?_⟩
  repeat' apply And.intro
  all_goals decide +kernel

/-- Restores: gang 0 of a launch that is a member of panorama 2, at member 0's device and at another's, running, with a handler that runs, unable to stop, and stopped. -/
theorem witness_panorama_phases :
    let cell : Cell := { cell0 with handler := true, savesz := 64 }
    let ga (p : Preempt) : Gang := { Gang.waiting 0x11 with cluster := some 0, loaded := true, cores := [0], preempt := p }
    let la (p : Preempt) : Launch := { Launch.new 0 0 0 0 [] false (some 2) 0 with gangs := [(0, ga p)] }
    let q (n : Nat) : Panorama := { Panorama.asked 0 0 0 0 0 [] with
      committed := true, panid := 2, reported := [], members := [(n, ⟨0, 1, [], some 7, 0, 0⟩), (1 - n, ⟨3, 1, [], none, 0, 0⟩)] }
    let s (n : Nat) (p : Preempt) (k : Cell) (h : Option Block) (e : PanPhase) : State := { State.reset with
      launches := [(7, la p)], pans := [(2, q n)], cores := [(0, { k0 with cell := some k, handling := h })], event := some (.panoramaPreempt e) }
    let here := s 0 .running cell none (.prepare 7 none)
    let far := s 1 .running cell none (.prepare 7 (some 4))
    let stopped := s 0 .stopped { cell with preempt := .stopped } none (.reported 7 1 0 true)
    here.leads (q 0) = true ∧ (q 0).abroad = true ∧ here.mayStop 7 0 = true ∧ (here.gangCores 7 0).any (fun c => (here.core c).handlerBusy) = false
      ∧ far.leads (q 1) = false ∧ far.mayStop 7 0 = true ∧ (s 1 .running { cell with savesz := 0 } none (.prepare 7 (some 4))).mayStop 7 0 = false
      ∧ ((s 1 .running cell (some 0) (.prepare 7 (some 4))).gangCores 7 0).any (fun c => ((s 1 .running cell (some 0) (.prepare 7 (some 4))).core c).handlerBusy) = true
      ∧ here.panAt 2 = some (q 0) ∧ far.panAt 2 = some (q 1) ∧ (q 0).launches = [7] ∧ (q 1).launches = [7] ∧ (q 0).round = 0 ∧ (la .running).pan = some 2
      ∧ stopped.gangStopped 7 0 = true ∧ (∀ e ∈ (q 0).members, e.2.launch.isSome = true ∨ e.1 = 1 ∨ e.1 ∈ (q 0).reported) := by
  repeat' apply And.intro
  all_goals decide +kernel

/-! ## Witnesses: packets -/

/-- Queue 5 of partition 0 runs with packet p fetched, over one page of device memory. mask is OPMASK. -/
def queued (e : Event) (mask : Nat) (cb : List (Nat × Nat)) (p : Option Block) : State :=
  paged pteHere { State.reset with
    event := some e
    blockCache := [5]
    queues := [(5, { Queue.none with
      cb := BitVec.ofNat 512 (bits ([(64, 4), (80, 1), (96, mask), (192, 2 ^ 26 + 2 ^ 52)] ++ cb)), part := some 0, fetched := p })] }

/-- Its page is resident. -/
theorem paged_at (s : State) (hp : s.parts = [(0, { Partition.fresh with root := some 0x10000 })])
    (hm : s.memory = (paged pteHere State.reset).memory) (rd wr : Bool) : pageAt s 0 0 0x40000 rd wr := by
  refine ⟨by decide, BitVec.ofNat 64 pteHere, 65536, 0x30000, ?_, by decide, by decide, by decide, fun _ => by decide, fun _ => by decide, by decide⟩
  have : ∀ u : State, u.parts = s.parts → u.memory = s.memory → u.walk 0 0 = s.walk 0 0 := by
    intro u h1 h2; simp [State.walk, State.part, h1, h2]
  rw [← this (paged pteHere State.reset) hp.symm hm.symm]
  rfl

/-- PlainPackets: a packet of each of the four kinds; a trace that takes packets of partition 0 and one that does not. -/
theorem witness_plain_packets :
    let p : Block := BitVec.ofNat 512 (bits [(32, 9)])
    let s := queued (.mark 5 p) 0xFFF [] (some p)
    let tr : Trace := { (State.reset.cluster 0).trace with en := true, kinden := 0xF, parts := 1, log2w := 12 }
    let u := s.setCluster 7 { s.cluster 7 with trace := tr }
    s.mayIssue 5 p ∧ u.mayIssue 5 p ∧ (s.evchan 0 (cbEvch (s.queueAt 5).cb)).configured = false ∧ (s.cluster 7).trace.on 2 0 = false ∧ (u.cluster 7).trace.on 2 0 = true
      ∧ tr.dropped = 0 ∧ (tr.wr - tr.rd).toNat + 4 ≤ 2 ^ tr.log2w := by
  refine ⟨⟨by decide +kernel, rfl, rfl⟩, ⟨by decide +kernel, rfl, rfl⟩, ?_⟩
  repeat' apply And.intro
  all_goals decide +kernel

/-- SignalPackets: signals in a resident page; a condition that holds and one that does not. -/
theorem witness_signal_packets :
    let p (v : Nat) : Block := BitVec.ofNat 512 (bits [(128, v)])
    let c : Block := BitVec.ofNat 512 (bits [(192, 64)])
    let s := queued (.signal 5 (p 1)) 0xFFF [] (some (p 1))
    s.mayIssue 5 (p 1) ∧ pageAt s 0 (pk8 (p 1) 8) 0x40000 true true ∧ pageAt s 0 (pk8 (p 1) 8) 0x40000 true false ∧ pageAt s 0 (pk8 c 16) 0x40000 false true
      ∧ s.memory.bad = [] ∧ (s.cluster 0).tlb = [] ∧ (s.die 0).tlb = [] ∧ waitHolds (p 0) 0 = true ∧ waitHolds (p 1) 0 = false ∧ pk8 c 24 = 64
      ∧ (s.stack (stackOf 0x40000)).retry.entries = [] ∧ s.heldAt 0x40000 = none ∧ ((fixing s).heldAt 0x40000).isSome = true := by
  have h1 : pk8 (BitVec.ofNat 512 (bits [(128, 1)])) 8 = 0 := by decide +kernel
  have h2 : pk8 (BitVec.ofNat 512 (bits [(192, 64)])) 16 = 0 := by decide +kernel
  refine ⟨⟨by decide +kernel, rfl, rfl⟩, ?_, ?_, ?_, rfl, rfl, rfl, by decide +kernel, by decide +kernel, by decide +kernel, by decide +kernel, by decide +kernel, by decide +kernel⟩
  · rw [h1]; exact paged_at _ rfl rfl _ _
  · rw [h1]; exact paged_at _ rfl rfl _ _
  · rw [h2]; exact paged_at _ rfl rfl _ _

/-- What firmware reads with every queue as it was. -/
def fwReads (s : State) (va n v : Nat) : Bool :=
  match s.taken.fwRead 0 va n with
  | (u, .ok w) => w == v && u.queues == s.queues
  | _ => false

/-- ConfigPackets: what each kind reads or names, and a queue of another partition. -/
theorem witness_config_packets :
    let p : Block := BitVec.ofNat 512 (bits [(128, 5)])
    let far : Block := BitVec.ofNat 512 (bits [(128, 6)])
    let s := queued (.configQset 5 p) 0xFFF [] (some p)
    let cb : Nat := bits [(64, 4)]
    let rd (n v : Nat) : State := { s with memory := s.memory.write 32 0x40000 n v }
    let two : State := { s with queues := s.queues ++ [(6, { Queue.none with cb := BitVec.ofNat 512 (bits [(64, 4), (80, 2)]), part := some 0 })] }
    let log : State := { s with cores := [(0, k0)] }
    s.mayIssue 5 p ∧ s.bells = [] ∧ fwReads (rd 16 cb) 0 64 cb = true ∧ cbOk (BitVec.ofNat 512 cb) = true ∧ s.sameOwner 5 (pk8 p 16) = true ∧ (s.queueAt 5).issued = []
      ∧ (s.queueAt 5).part = some (cbPart (BitVec.ofNat 512 cb)) ∧ s.sameOwner 5 (pk8 far 16) = false ∧ (s.evchan 0 (cbEvch (s.queueAt 5).cb)).configured = false
      ∧ (match (s.taken.issue 5 p 0).fwPut 0 (pk8 p 24) 64 ((s.taken.issue 5 p 0).queueAt 5).cb.toNat true with | (_, .ok ()) => true | _ => false) = true
      ∧ two.sameOwner 5 6 = true ∧ cbState (two.queueAt 6).cb = 2 ∧ log.partCores 0 = [0] ∧ (log.cell 0).storeDecl ≤ 0x17F000 ∧ log.logQuiet 0 = true ∧ (log.core 0).retry.entries = []
      ∧ (log.core 0).logging = false ∧ fwReads s 0 288 0 = true ∧ fwReads (rd 32 (2 ^ 122 + 2 ^ 128)) 0 32 (2 ^ 122 + 2 ^ 128) = true
      ∧ evOk (BitVec.ofNat 256 (2 ^ 122 + 2 ^ 128)) = true
      ∧ (s.taken.discardPages 0 (0 + 2 ^ 16) 0 1 0 0).1.queues = s.queues := by
  refine ⟨⟨by decide +kernel, rfl, rfl⟩, rfl, ?_⟩
  repeat' apply And.intro
  all_goals decide +kernel

/-- ConfigPackets: no slot of a device with one idle core holds a word. -/
theorem witness_config_held (d j : Nat) : (({ queued (.configLog 5 0) 0xFFF [] none with cores := [(0, k0)] } : State).slot d j).held = none := no_held rfl d j

/-- TablePackets: a valid entry, an entry that is not, and a free frame. -/
theorem witness_table_packets :
    let p : Block := BitVec.ofNat 512 (bits [(192, 2 ^ 16)])
    let s := queued (.tableMap 5 p) 0xFFF [] (some p)
    let u : State := { s with memory := s.memory.write 32 0x30000 8 0 }
    s.mayIssue 5 p ∧ s.cores = [] ∧ blkField p 10 1 = 0 ∧ pk8 p 24 = 2 ^ 16 ∧ (s.part 0).root = some 0x10000
      ∧ (∀ make, State.entryFor make (pk8 p 16) 3 3 1 0x10000 s.taken = (s.taken, .at_ 0x30000)) ∧ pteValid 3 (s.tableWord 0x30000) = true ∧ pteOwns (s.tableWord 0x30000) = true
      ∧ pteValid 3 (u.tableWord 0x30000) = false ∧ u.freeFrame (2 ^ 16) = some 0 ∧ (s.evchan 0 (cbEvch (s.queueAt 5).cb)).configured = false := by
  refine ⟨⟨by decide +kernel, rfl, rfl⟩, rfl, by decide +kernel, by decide +kernel, rfl, fun make => by cases make <;> decide +kernel, ?_⟩
  repeat' apply And.intro
  all_goals decide +kernel

/-- A CONFIG packet that sets event channel 0 by the zero bytes at 0, which are no channel's configuration. -/
def badBlock : Block := BitVec.ofNat 512 (bits [(0, 8), (64, 5)])

/-- QueueEvents: a packet to fetch, one whose block is malformed, one that OPMASK does not admit, one that completes; doorbells on a bad pair, too long, held, and with room to the last
place; a block that is in the cache, one that finds a way, and one whose set is pinned. -/
theorem witness_queue_events :
    let s := queued (.packetFetch 5) 0xFFF [(160, 1)] none
    let m := queued (.packetFetch 5) 0 [(160, 1)] none
    let d : DoorbellSend := ⟨3, BitVec.ofNat 512 (bits [(0, 5), (32, 1), (40, 15)]), [], 64, 0, .send⟩
    let b (h : HostPort) : State := { queued (.doorbell d) 0xFFF [(160, 1)] none with host := h }
    let ok : HostPort := { State.reset.host with gated := false, qpPart := [(3, 0)] }
    let others := (List.range 8).map (fun n => 517 + 512 * n)
    let full : State := { b ok with blockCache := others, queues := (b ok).queues ++ others.map (fun n => (n, { Queue.none with fetched := some 0 })) }
    cbState (s.queueAt 5).cb = 1 ∧ cbPending (s.queueAt 5).cb ≠ 0 ∧ fwReads s (cbSlot (s.queueAt 5).cb (cbRdidx (s.queueAt 5).cb)) 64 0 = true
      ∧ validate (s.queueAt 5).cb 0 (s.ownPacket 5 0) = none ∧ validate (m.queueAt 5).cb 0 (m.ownPacket 5 0) = some 1 ∧ pkEvent 0 = false
      ∧ (match s.taken.blockCheck 5 0 with | (w, .ok v) => v && w.queues == s.queues | _ => false) = true
      ∧ (match s.taken.blockCheck 5 badBlock with | (w, .ok v) => !v && w.queues == s.queues | _ => false) = true ∧ validate (s.queueAt 5).cb badBlock (s.ownPacket 5 badBlock) = none
      ∧ (b { ok with qpError := [3] }).host.qpError.contains 3 = true ∧ (b ok).host.qpError.contains 3 = false
      ∧ sendLengthOk d = true ∧ sendLengthOk { d with length := 4160, packets := List.replicate 64 0 } = false ∧ (b { ok with gated := true }).host.gated = true ∧ d.kind = .send
      ∧ d.priority = ok.priority ∧ ¬(({ d with priority := 1 } : DoorbellSend).priority = ok.priority ∨ 2 ^ 21 - 63 + d.length ≤ 2 ^ 21) ∧ ok.held = []
      ∧ dbQueue d.header = 5 ∧ (b ok).host.qpPart.has 3 = true ∧ ((b ok).queueAt 5).part = some ((b ok).host.qpPart.get 0 3) ∧ dbOk d = true ∧ dbMode d.header = 1
      ∧ cbPending ((b ok).queueAt 5).cb + dbCount d.header ≤ 2 ^ cbLog2 ((b ok).queueAt 5).cb ∧ (b ok).bells = [] ∧ ((b ok).blockCache.filter (sameSet 5)).length < 8
      ∧ s.taken.bells = [] ∧ full.blockCache.contains 5 = false ∧ 8 ≤ (full.blockCache.filter (sameSet 5)).length
      ∧ (∀ x ∈ full.blockCache, sameSet 5 x = true → full.blockPinned x = true) := by
  repeat' apply And.intro
  all_goals decide +kernel

/-! ## Witnesses: memory repair -/

/-- MemoryPatrol: a step to the limit, a granule that is uncorrectable for the first time, a corrected and a sound one; a write-back of a core. -/
theorem witness_patrol :
    let s : State := { State.reset with event := some (.patrolRead (stackOf 0) 0 .sound), memory := { Mem.blank with bad := [0] } }
    let u : State := { State.reset with hbm := [(11, { Stack.fresh with phase := [(5, 32)] })], event := some (.phaseTrackStep 11 5 true) }
    s.memory.bad.contains 0 = true ∧ s.memory.found.contains 0 = false ∧ stackOf (32 * 0) = stackOf 0 ∧ State.reset.memory.bad.contains 0 = false
      ∧ (ev (.patrolRead 0 0 .corrected) State.reset).event = some (.patrolRead 0 0 .corrected) ∧ (ev (.patrolRead 0 0 .uncorrectable) State.reset).memory.found.contains 0 = false
      ∧ (ev (.eccWriteback (.core 767)) State.reset).event = some (.eccWriteback (.core 767))
      ∧ (u.stack 11).phase.get 0 5 = 32 ∧ 28 ≤ (max (-32) (min 32 ((u.stack 11).phase.get 0 5 + 1)) : Int).natAbs
      ∧ (max (-32) (min 32 ((State.reset.stack 11).phase.get 0 5 + -1)) : Int).natAbs < 28 := by
  repeat' apply And.intro
  all_goals decide +kernel

/-- Repairs: spares left and none, and an attempt of each kind. -/
theorem witness_repairs :
    let s (k : Stack) : State := { State.reset with hbm := [(11, k)], event := some (.repairAttemptComplete 11) }
    (State.reset.stack 11).active = none ∧ (State.reset.stack 11).waiting = [] ∧ (State.reset.stack 11).rows ≠ 0 ∧ (State.reset.stack 11).banks ≠ 0
      ∧ ((s { Stack.fresh with rows := 0 }).stack 11).rows = 0 ∧ (State.reset.stack 11).degraded.contains 5 = false ∧ (State.reset.stack 11).laneMap.contains 5 = false
      ∧ ((s { Stack.fresh with active := some (.row 1 2 3) }).stack 11).active = some (.row 1 2 3)
      ∧ ((s { Stack.fresh with active := some (.lane 5) }).stack 11).active = some (.lane 5)
      ∧ ((s { Stack.fresh with active := some (.retrain 5) }).stack 11).active = some (.retrain 5) ∧ (s Stack.fresh).memory.bad = []
      ∧ ((s Stack.fresh).stack 11).delayed = [] ∧ (∀ e ∈ (s Stack.fresh).hbm, e.2.retry.entries = []) := by
  repeat' apply And.intro
  all_goals decide +kernel

/-- PagesRetired: a frame that no page maps, and a resident page. -/
theorem witness_retired :
    let s : State := { State.reset with hbm := [(11, { Stack.fresh with toRetire := [5] })], event := some (.pageRetirement 11 5) }
    let u := paged pteHere { State.reset with event := some (.pageMadeNonResident 0 0) }
    s.migrating 11 5 = false ∧ (s.stack 11).toRetire = [5] ∧ s.retired.contains 5 = false ∧ s.mapsOf 5 = [] ∧ u.cores = []
      ∧ (∃ e size a, u.walk 0 0 = .leaf e size a ∧ pteP e = true ∧ pteLost e = false) :=
  ⟨by decide +kernel, rfl, rfl, by decide +kernel, rfl, _, _, _, rfl, rfl, rfl⟩

/-! ## Witnesses: launches and panoramas -/

/-- A descriptor of one gang of one strand of class 1, its image at 0 and its code in segment 7 of the own store. -/
def desc1 : Nat := bits [(64, 1), (80, 1), (88, 1), (8 * 184 + 48, 1), (8 * 184 + 52, 4)]

/-- One gang of one cell. -/
def gang1 : Gang := Gang.waiting 0x11

/-- Launch 7 with gang 0 as given. -/
def launch1 (g : Gang) : Launch := { Launch.new 5 0 0 0 [] false none 0 with gangs := [(0, g)] }

def launched (e : Event) (la : Launch) : State := { State.reset with launches := [(7, la)], event := some e }

/-- Launches: a descriptor that passes, one that does not; a gang that fits nowhere, in a cluster that is off and in one that is on; a gang to load; a launch
that is over, by itself and by firmware, and one to end. -/
theorem witness_launches :
    let p : Block := BitVec.ofNat 512 (bits [(0, 1)])
    let s := queued (.launch 5 p) 0xFFF [] (some p)
    let ok : State := { s with memory := (s.memory.write 32 0x40000 256 desc1).write 32 0x40100 8 0x11 }
    let read (s : State) (v : Bool) : Bool := match s.taken.readDesc 0 0 with
      | (u, .ok (d, gs)) => u.queues == s.queues && (descOk d gs && inRange (s.queueAt 5).cb 0 (256 + 8 * gs.length) false && inRange (s.queueAt 5).cb (ldImage d) 64 false) == v
      | _ => false
    let wide : Gang := Gang.waiting 0x1D
    let odd : Gang := Gang.waiting (BitVec.ofNat 64 (0x11 + 2 ^ 9))
    let dispatch (g : Gang) := launched .dispatchDecision (launch1 g)
    let full : State := { dispatch odd with clusters := [(1, { Cluster.cold false with inService := true })] }
    let placed : Gang := { gang1 with cluster := some 0, cores := [0] }
    let load := launched (.gangLoad 7 0) { launch1 placed with imageOk := true }
    let done (e : Option (Nat × Word × Word)) : State := { launched (.launchCompletion 7) { launch1 { gang1 with ended := true } with ending := e } with
      blockCache := [5], queues := [(5, { Queue.none with issued := [⟨0, 0, 0, 0, 0⟩] })] }
    s.mayIssue 5 p ∧ read ok true = true ∧ read s false = true ∧ (dispatch wide).findPlace (launch1 wide).desc wide.shape = none
      ∧ full.findPlace (launch1 odd).desc odd.shape = some (1, 0) ∧ (full.cluster 1).powered = false
      ∧ (dispatch gang1).findPlace (launch1 gang1).desc gang1.shape = some (0, 0) ∧ ((dispatch gang1).cluster 0).powered = true
      ∧ gang1.cluster = none ∧ gang1.loaded = false ∧ gang1.ended = false ∧ placed.cluster = some 0 ∧ placed.cores.Nodup
      ∧ (match load.taken.loadImage 7 { launch1 placed with imageOk := true } with | (w, .ok _) => w.device == load.device && w.clusters == load.clusters | _ => false) = true
      ∧ (done none).blockCache.contains 5 = true
      ∧ (launch1 { gang1 with ended := true }).over = true ∧ ((done none).queueAt 5).issued = [⟨0, 0, 0, 0, 0⟩] ∧ (launch1 gang1).index = 0 ∧ pkEvent 0 = false
      ∧ (done none).bells = [] ∧ s.taken.bells = [] ∧ ((done none).evchan (cbPart ((done none).queueAt 5).cb) (cbEvch ((done none).queueAt 5).cb)).configured = false ∧ pk8 0 16 = 0
      ∧ (launched (.launchEnd 7 255 0 0) (launch1 gang1)).coresOf 7 = [] := by
  refine ⟨⟨by decide +kernel, rfl, rfl⟩, ?_⟩
  repeat' apply And.intro
  all_goals decide +kernel

/-- Launches: no cluster of the reset device traces. -/
theorem witness_no_trace (x : Nat) : (State.reset.cluster x).trace.en = false := by
  have h : ∀ l : Table Cluster, (l.all fun e => !e.2.trace.en) = true → (l.get (Cluster.cold false) x).trace.en = false := by
    intro l hl
    induction l with
    | nil => rfl
    | cons e r ih =>
      simp only [List.all_cons, Bool.and_eq_true] at hl
      simp only [Table.get]
      split <;> simp_all
  exact h State.reset.clusters (by decide)

/-- Panoramas: a descriptor of two members; a question that cannot be met; the last answer, and one that is not ready; commits at a member's device and at the
coordinator's. -/
theorem witness_panoramas :
    let p : Block := BitVec.ofNat 512 (bits [(0, 2)])
    let s := queued (.panlaunch 5 p) 0xFFF [] (some p)
    let ok : State := { s with memory := s.memory.write 32 0x40000 8 2 }
    let ask : PanAsk := { key := 2 ^ 17, attempt := 0, srcDev := 3, srcPart := 0, domch := 0, domexp := 0, members := [(0, 0, 0), (3, 0, 0)] }
    let q (n : Nat) (m : List (Nat × Nat × Nat)) : Panorama := { Panorama.asked n 0 0 0 0 m with preparing := true }
    let u (e : Event) (q : Panorama) : State := { State.reset with pans := [(2 ^ 17, q)], event := some e }
    let a := u (.panAdmissionPrepare (.answer (2 ^ 17) 3 0 true [] [])) (q 5 [(0, 0, 0), (3, 0, 0)])
    s.mayIssue 5 p ∧ fwReads ok 0 64 2 = true ∧ (match (ok.taken.fwRead 0 0 64).1.fwRead 0 64 32 with | (w, .ok v) => v == 0 && w.queues == ok.queues | _ => false) = true
      ∧ panDescOk (2 + 0 * 2 ^ 512) s.device.toNat = true ∧ inRange (s.queueAt 5).cb 0 (64 + 16 * 2) false = true
      ∧ (∃ m ∈ ask.members, m.1 = State.reset.device.toNat) ∧ (a.panAt (2 ^ 17)).isSome = true ∧ a.farDevices (q 5 [(0, 0, 0), (3, 0, 0)]) = [3]
      ∧ (q noQueue []).queue = noQueue ∧ (q noQueue []).committed = false ∧ (q 5 []).queue ≠ noQueue ∧ (q 5 []).domch = 0 ∧ a.nextPanid.isSome = true := by
  refine ⟨⟨by decide +kernel, rfl, rfl⟩, ?_⟩
  repeat' apply And.intro
  all_goals decide +kernel

/-! ## Witnesses: the host and management -/

/-- EventChannels: a ring with room for one of two records, records that are not acknowledged, and a packet boundary. -/
theorem witness_event_channels :
    let cfg : BitVec 256 := BitVec.ofNat 256 (bits [(120, 4), (128, 1)])
    let h : EventChan := { EventChan.none with cfg := cfg, configured := true, pending := [1, 2], written := 15 }
    let s (e : Event) (h : EventChan) : State := { paged pteHere State.reset with
      parts := [(0, { Partition.fresh with root := some 0x10000, channels := [(15, h)] })], event := some e }
    let u := s (.eventRingSpace 0 15) h
    (match u.taken.fwRead 0 (evCidx (u.evchan 0 15).cfg) 4 with | (w, .ok v) => v == 0 && w.parts == u.parts && w.host == u.host | _ => false) = true
      ∧ u.host.qpError.contains (evQpn (u.evchan 0 15).cfg) = false ∧ (u.evchan 0 15).lost = 0 ∧ 2 ^ evLog2n cfg - (h.written + 2 ^ 32 - 0) % 2 ^ 32 = 1
      ∧ ((s (.eventRetransmit 0 15) { h with unacked := [1] }).evchan 0 15).unacked ≠ [] ∧ ((s (.eventRetransmit 0 15) { h with unacked := [1], retries := 7 }).evchan 0 15).retries = 7
      ∧ State.reset.atBoundary = true ∧ (queued .liveUpdateTakeover 0xFFF [] (some 0)).atBoundary = false ∧ State.reset.mgmt.pendingActivation = [] := by
  repeat' apply And.intro
  all_goals decide +kernel

/-- HostLink: a queue pair in the error state; a region that covers a write and a read and one that does not; a gated front end; strands that a debugger may act on
and may not. -/
theorem witness_host_link :
    let host : HostPort := { State.reset.host with qpPart := [(3, 0)] }
    let r : Region := { base := 0, len := 65536, rkey := 9, rd := true, wr := true }
    let s : State := { paged pteHere State.reset with parts := [(0, { Partition.fresh with root := some 0x10000, regions := [(0, r)] })], host := host }
    let k := one (.debugRequest 3 (.read 0 0x1FE)) { k0 with slots := [(254, { sl0 with st := .stopped })] } sl0
    ({ host with qpError := [3] } : HostPort).qpError.contains 3 = true ∧ host.qpError.contains 3 = false ∧ host.qpPart.has 3 = true ∧ host.gated = false
      ∧ s.regionFor 0 9 65528 8 true = true ∧ s.regionFor 0 9 65529 8 true = false ∧ s.regionFor 0 9 0 8 false = true ∧ s.regionFor 0 8 0 8 false = false
      ∧ (match s.taken.fwWrite 0 65528 8 7 true with | (_, .ok ()) => true | _ => false) = true ∧ fwReads s 0 8 0 = true
      ∧ ({ host with qpDebug := [3] } : HostPort).qpDebug.contains 3 = true ∧ host.qpDebug.contains 3 = false ∧ k.mayDebug 0 0 254 = true ∧ (k.slot 0 254).st = .stopped
      ∧ k.mayDebug 1 0 254 = false ∧ host.held = [] ∧ 2 ≠ host.link := by
  repeat' apply And.intro
  all_goals decide +kernel

/-- Management: sensors at the ends of their range, an image that verifies, staged images of components 1, 3 and 5, a version at the minimum, a block to
assign, the one record of a filmstrip, and a trace whose buffer fits and one that meets a page. -/
theorem witness_management :
    let m : Mgmt := { State.reset.mgmt with staged := [1, 3, 5] }
    let r : FilmRec := ⟨4096, 0, 0, 0, 0, 0⟩
    let tr : Trace := (State.reset.cluster 0).trace
    (65 : Nat) < 66 ∧ 1 ≤ 65 ∧ stateSensor 20 = true ∧ (1 : Nat) = 1 - State.reset.mgmt.bank 5 ∧ State.reset.mgmt.minimums.get 0 5 ≤ 0 ∧ 1 ∉ State.reset.mgmt.staged
      ∧ 1 ∈ m.staged ∧ 3 ∈ m.staged ∧ 5 ∈ m.staged ∧ m.switched = [] ∧ (0 : Nat) = (State.reset.mgmt.active 5).1 ∧ cbOk (BitVec.ofNat 512 (bits [(64, 16), (80, 1)])) = true
      ∧ (r.seq + 4095) % 4096 = 4095 ∧ ({ m with temps := [(15, 151)] } : Mgmt).temps.has (18 - 3) = true
      ∧ State.reset.traceFits (tr.put (.enable true 15)) = true ∧ ({ State.reset with frames := [(0, 2 ^ 16)] } : State).traceFits (tr.put (.enable true 15)) = false
      ∧ State.reset.blockCache.contains 5 = false := by
  repeat' apply And.intro
  all_goals decide +kernel

/-- PowerAndGating: full service and safelight mode, readings at each threshold, an idle core, and idle and used clusters. -/
theorem witness_power :
    let m : Mgmt := { State.reset.mgmt with service := 1, cap := 600 }
    let k := one (.coreClockGate 0) { Core.idle with idleFor := 1024 } Slot.free
    1 ≤ m.service ∧ m.service ≤ 2 ∧ m.cap < 601 ∧ 600 ≤ m.cap ∧ m.hot = false ∧ ({ m with temps := [(3, 101)] } : Mgmt).hot = true ∧ (k.core 0).gateable = true
      ∧ 1024 ≤ (k.core 0).idleFor ∧ (State.reset.core 0).idleFor < 1024 ∧ State.reset.clusterIdle 0 = true ∧ (one .fullService k0 sl0).clusterIdle 0 = false
      ∧ (State.reset.cluster 0).inService = true ∧ State.reset.mgmt.service = 0 := by
  repeat' apply And.intro
  all_goals decide +kernel

/-! ## Witnesses: resets -/

/-- SmallResets: a cell, an engine, a gang, a cluster and a die to reset, a reset that a pending one covers, and a contact sheet that is on. -/
theorem witness_resets :
    let m : Cmd := { default_ with op := 0x680 }
    let s := one (.cellReset 0) k0 { sl0 with st := .ready }
    let e := one (.engineReset 0 2) { k0 with vx := { Engine.idle with cmds := [m] } } { sl0 with held := none }
    let g : State := { one (.gangReset 7 0) k0 { sl0 with st := .ready } with launches := [(7, launch1 { gang1 with cluster := some 0, loaded := true, cores := [0] })] }
    let c : State := { State.reset with agenda := [.packageWarmReset], event := some (.cellReset 0) }
    let f : State := { State.reset with clusters := [(7, { Cluster.cold true with sheetInterval := 1, sheetBase := 0x10000 })] }
    (∀ d j, (e.slot d j).held = none) ∧ (∀ x ∈ s.agenda, resetLevel x = 0) ∧ (s.core 0).cell = some cell0 ∧ cell0.ended = false
      ∧ (s.core 0).slots = [(0, { sl0 with st := .ready })] ∧ sl0.held = none ∧ sl0.park = none ∧ sl0.trap = none ∧ .packageWarmReset ∈ c.agenda
      ∧ c.covers .packageWarmReset (.cellReset 0) = true ∧ (e.core 0).vx.cmds = [m] ∧ portNoPost m.port = true ∧ g.gangCores 7 0 = [0] ∧ panValid cell0.paninfo = false
      ∧ State.reset.launchesOn 7 = [] ∧ State.reset.pans = [] ∧ (f.cluster 7).sheetInterval ≠ 0 ∧ (State.reset.cluster 7).sheetInterval = 0 := by
  refine ⟨no_held rfl, ?_⟩
  repeat' apply And.intro
  all_goals decide +kernel

/-- PackageResets: no reset is pending in the reset state, nor in one with a queue. -/
theorem witness_package_resets : (∀ e ∈ ({ State.reset with event := some .coldReset } : State).agenda, resetLevel e = 0)
    ∧ (queued .packageWarmReset 0xFFF [] none).queues.has 5 = true ∧ (∀ e ∈ (queued .packageWarmReset 0xFFF [] none).agenda, resetLevel e = 0) := by decide +kernel

/-- MemoriesStayCanonical: a state with listed memory, whose next word runs. -/
theorem witness_canonical :
    let s : State := { State.reset.withFetchWord 64 0x0004000180201005 with memory := (Mem.blank.write 32 64 8 7).write 32 72 1 9 }
    memoriesWf s ∧ s.memory.byte 72 = 9 ∧ ∃ t, step s = .next t := by
  refine ⟨?_, by decide +kernel, _, rfl⟩
  unfold memoriesWf coreWf
  decide +kernel

/-! ## Witnesses: lines, atomics, retries and panoramas across devices -/

/-- heldApart holds where no word is held. -/
theorem apart_of_no_held {s : State} (h : (s.cores.all fun e => e.2.slots.all fun x => x.2.held.isNone) = true) : heldApart s :=
  fun c i hh => absurd (no_held h c i) hh

/-- LineStores: a line that may be written, a page that may be written, one that no entry maps and one that is absent, and a log that is full. -/
theorem witness_line_stores :
    let line : CacheLine := { part := 0, va := 0, data := 0, valid := 255, dirty := 0, filled := true, cn := false, wok := true }
    let sl := { sl0 with segH := [(0, segDev)] }
    let s := strand 0 { k0 with lines := [line] } sl 0
    let u := strand 0 k0 sl 56
    let full := strand 0 { k0 with logging := true, logCount := 512 } sl 0
    LoneReady s 0 0 mR ∧ (s.slot 0 0).operand 0x4C = 0 ∧ s.watches = [] ∧ ((s.slot 0 0).operand 0x4B + s.loneValue 0 0 mR) = 0 ∧ ((s.slot 0 0).seg 0).space = 4
      ∧ ((s.slot 0 0).seg 0).wr = true ∧ ((s.slot 0 0).seg 0).cn = false ∧ 56 + 8 ≤ ((s.slot 0 0).seg 0).limit ∧ 56 + 8 ≤ 2 ^ 42 ∧ 56 % 8 = 0
      ∧ (s.core 0).findLine 0 0 = some line ∧ (s.core 0).logRoom 0 = true ∧ LoneReady full 0 0 mR ∧ (full.core 0).logRoom 0 = false
      ∧ LoneReady (paged pteHere u) 0 0 mR ∧ (u.core 0).findLine 0 56 = none ∧ ((paged pteHere u).translate 0 0 56 false true).2 = .ok 0x40038 false true
      ∧ ((paged pteHere u).translate 0 0 56 false true).1.heldFor 0 56 8 = none ∧ (paged pteHere u).memory.lost 32 0x40000 64 = false
      ∧ (match (paged pteHere u).walk 0 56 with | .leaf e _ _ => !pteDisc e | .invalid => false) = true
      ∧ (u.translate 0 0 56 false true).2 = .fault 0x07 ∧ ((paged (pteHere - 0x40) u).translate 0 0 56 false true).2 = .park := by
  refine ⟨strand_ready .., ?_, ?_, ?_, ?_, ?_, ?_, ?_, ?_, ?_, ?_, ?_, strand_ready .., ?_, ready_of_cores (strand_ready ..) rfl rfl, ?_⟩
  all_goals (repeat' apply And.intro)
  all_goals decide +kernel

/-- FarAtomics: 8 bytes of a page, of a page that no entry maps and of an absent one; the last 8 bytes of core 1's store, with a cell of the launch and with none. -/
theorem witness_far_atomics :
    let seg (space : Nat) : Word := BitVec.ofNat 64 (2 ^ 29 + space * 2 ^ 48 + 0xB * 2 ^ 52)
    let dev := { sl0 with segH := [(0, seg 4)], opnd := [(0x4F, 64), (0x50, 0x100)] }
    let clu := { sl0 with segH := [(0, seg 2)], opnd := [(0x4F, 0x37FFF8), (0x50, 0x100)] }
    let u := strand 0 k0 dev 5
    let s : State := { strand 0 k0 clu 5 with cores := (strand 0 k0 clu 5).cores ++ [(1, k0)] }
    LoneReady (paged pteHere u) 0 0 mR ∧ ((u.slot 0 0).operand 0x50).toNat % 2 ^ 8 = 0 ∧ ((u.slot 0 0).operand 0x50).getLsbD 8 = true ∧ u.watches = []
      ∧ ((u.slot 0 0).seg 0).rd = true ∧ ((u.slot 0 0).seg 0).wr = true ∧ ((u.slot 0 0).seg 0).at_ = true ∧ ((u.slot 0 0).seg 0).cn = false
      ∧ ((u.slot 0 0).seg 0).space = 4 ∧ (u.core 0).findLine 0 64 = none ∧ (u.core 0).logRoom 64 = true
      ∧ ((paged pteHere u).translate 0 0 64 true true).2 = .ok 0x40040 false true ∧ ((paged pteHere u).translate 0 0 64 true true).1.heldAt 0x40040 = none
      ∧ (paged pteHere u).memory.lost 32 0x40040 8 = false ∧ (match (paged pteHere u).walk 0 64 with | .leaf e _ _ => !pteDisc e | .invalid => false) = true
      ∧ (u.translate 0 0 64 true true).2 = .fault 0x07 ∧ ((paged (pteHere - 0x40) u).translate 0 0 64 true true).2 = .park
      ∧ ((s.slot 0 0).seg 0).space = 2 ∧ 0x37FFF8 + 8 ≤ ((s.slot 0 0).seg 0).limit ∧ 0x37FFF8 / 2 ^ 21 = 1 ∧ 0x37FFF8 % 2 ^ 21 + 8 = 0x180000
      ∧ (s.core 1).cell.map (·.launch) = some (s.cell 0).launch ∧ (s.core 1).logging = false ∧ (s.core 1).store.lost 8 0x17FFF8 8 = false
      ∧ (u.core 1).cell.map (·.launch) ≠ some (u.cell 0).launch := by
  refine ⟨ready_of_cores (strand_ready ..) rfl rfl, ?_⟩
  repeat' apply And.intro
  all_goals decide +kernel

/-- AgentRequests: the detector instance of a panorama whose member 0 is on device 3, and of a launch. -/
theorem witness_armed :
    let c : Cell := { cell0 with paninfo := BitVec.ofNat 64 (1 + 2 ^ 9 + 2 ^ 27 + 2 * 2 ^ 32) }
    let s : State := { strand 0 { k0 with cell := some c } sl0 1 with
      pans := [(2, { Panorama.asked 0 0 0 0 0 [] with committed := true, panid := 2, members := [(0, ⟨3, 1, [], none, 0, 0⟩), (1, ⟨0, 1, [], none, 0, 0⟩)] })] }
    LoneReady s 0 0 mR ∧ (s.armedAt (s.cell 0) 1).isSome = true ∧ (lone 1 []).armedAt ((lone 1 []).cell 0) 1 = none := by
  refine ⟨ready_of_cores (strand_ready ..) rfl rfl, ?_⟩
  repeat' apply And.intro
  all_goals decide +kernel

/-- The words of these witnesses hold nothing (ExitFreesSlot, PostReleasesWaiter, LastArrivalCompletesPhase, MessagesAccepted). -/
theorem witness_apart :
    heldApart (strand 0 (kTwo { Slot.free with st := .waitJoin, park := some (.join 0 1) }) { sl0 with held := none } 7)
      ∧ heldApart (strand 0 { kTwo { Slot.free with st := .waitSem, park := some (.sem 0 false 3) } with sems := [(0, ⟨0, false, 0, 0, [(1, 3)]⟩)] } sl0 3)
      ∧ heldApart (lone 5 [(0x56, 31)]) ∧ (∀ k, heldApart (msgS k)) ∧ ∀ k, ((msgS k).core 0).fab.cmds = [] :=
  ⟨apart_of_no_held rfl, apart_of_no_held rfl, apart_of_no_held rfl, fun _ => apart_of_no_held rfl, fun _ => rfl⟩

/-- DebugAndMaintenance: a trace that takes marks and has room, and one that is full; a handler and a strand that step another, and a handle of none. -/
theorem witness_debug_other :
    let tr : Trace := { (State.reset.cluster 0).trace with en := true, kinden := 1, parts := 1, log2w := 9, wr := 507 }
    let u := (lone 0x100 []).setCluster 0 { (lone 0x100 []).cluster 0 with trace := tr }
    let s := strand 0 (kTwo { Slot.free with st := .ready }) sl0 0x0401
    let h := handler .ready [] 0x100
    LoneReady u 0 0 mR ∧ tr.on 1 (u.cell 0).part = true ∧ (u.cluster 0).trace = tr ∧ 5 + (tr.wr - tr.rd).toNat ≤ 2 ^ tr.log2w ∧ tr.dropped = 0
      ∧ 2 ^ tr.log2w < 5 + (({ tr with wr := 508 } : Trace).wr - tr.rd).toNat
      ∧ LoneReady s 0 0 mR ∧ (s.loneValue 0 0 mR).toNat % 256 ≠ 255 ∧ (s.core 0).named (s.loneValue 0 0 mR) = .current 1
      ∧ LoneReady h 0 255 mR ∧ (h.loneValue 0 255 mR).toNat % 256 ≠ 255 ∧ (h.core 0).named (h.loneValue 0 255 mR) = .current 0
      ∧ (kTwo Slot.free).named 0x0902 = .stale := by
  refine ⟨ready_of_cores (strand_ready ..) rfl rfl, ?_, ?_, ?_, ?_, ?_, strand_ready .., ?_, ?_, strand_ready .., ?_⟩
  all_goals (repeat' apply And.intro)
  all_goals decide +kernel

/-- Selection: a load of the last word of the own store in stage 5, a misaligned one in stage 7, and a word in stage 8. -/
theorem witness_word_due :
    let w (v : BitVec 12) (n : Nat) : Slot := { sl0 with st := .issued, base := 1, issuedAt := n, fetch := some ⟨0, pairWord ⟨0, 0x2C6, true, v⟩ Move.nop, 0⟩ }
    let s (sl : Slot) := one (.shutterSelect 0) { k0 with cycles := 10 } sl
    (w 8 6).inPipe = true ∧ (s (w 8 6)).taken.ownAccess 0 0 = true ∧ (s (w 8 6)).taken.wouldFault 0 0 = false ∧ (w 8 6).step = false
      ∧ (s (w 8 6)).taken.wordDue 0 = some 0 ∧ (s (w 7 4)).taken.wouldFault 0 0 = true ∧ (s (w 7 4)).taken.wordDue 0 = some 0
      ∧ (s (w 8 4)).taken.wordDue 0 = none ∧ (w 8 4).issuedAt + 7 = 10 + 1 := by
  repeat' apply And.intro
  all_goals decide +kernel

/-- Fetches: a fetch whose bank the word of slot 1 in stage 3 accesses, and one that meets none. -/
theorem witness_fetch_loses :
    let code : Slot := { Slot.free with st := .ready, segH := [(7, BitVec.ofNat 64 (0x180000 + 2 ^ 48 + 5 * 2 ^ 52))] }
    let w : Slot := { sl0 with st := .issued, issuedAt := 8, fetch := some ⟨0, pairWord ⟨0, 0x2C6, true, 8⟩ Move.nop, 0⟩ }
    let s := one (.fetchArrival 0 0) { k0 with cycles := 10, slots := [(1, w)] } code
    s.taken.fetchLoses 0 (unitsOf ((code.seg 7).base + 0) 8) = true ∧ (s.slot 0 0).fetchLost = 0 ∧ (code.seg 7).space = 1 ∧ (code.seg 7).ex = true
      ∧ (∀ e ∈ ((one (.fetchArrival 0 0) k0 code).core 0).slots, e.2.inPipe = false) := by
  repeat' apply And.intro
  all_goals decide +kernel

/-- WaitingAccesses: a wait-full load of the last word of core 1's store, NACKed with ticket 3, where the word is full and where it is empty, and one whose strand has been
asked to stop. -/
theorem witness_resend :
    let clu : Word := BitVec.ofNat 64 (2 ^ 29 + 2 * 2 ^ 48 + 0xB * 2 ^ 52)
    let h : HeldWord := ⟨.feAt (.core 1), [⟨0x2C6, 0x37FFF8, false⟩], 0, 8, 0, some (.nack 3), []⟩
    let sl : Slot := { sl0 with st := .waitFe, stopReq := false, step := false, park := none, segH := [(0, clu)], opnd := [(0x4C, 1)], held := some h }
    let s (m : Mem) : State := { one (.feRetryResend 0 0) k0 sl with cores := [(0, { k0 with slots := [(0, sl)] }), (1, { k0 with store := m, retry := ⟨[], 4, [3]⟩ })] }
    let e : Mem := Mem.blank.setFull (0x17FFF8 / 8) false
    ((s e).slot 0 0).held = some h ∧ h.reply = some (.nack 3) ∧ h.moves = [⟨0x2C6, 0x37FFF8, false⟩] ∧ ((s e).slot 0 0).operand 0x4C = 1 ∧ (s e).watches = []
      ∧ (((s e).slot 0 0).seg 0).space = 2 ∧ (((s e).slot 0 0).seg 0).rd = true ∧ 0x37FFF8 + 8 ≤ (((s e).slot 0 0).seg 0).limit ∧ (((s e).slot 0 0).seg 0).base = 0
      ∧ 0x37FFF8 / 2 ^ 21 = 1 ∧ 0x37FFF8 % 2 ^ 21 + 8 = 0x180000 ∧ ((s e).core 1).cell.map (·.launch) = some ((s e).cell 0).launch ∧ ((s e).core 1).logging = false
      ∧ ((s e).core 1).store.lost 8 0x17FFF8 8 = false ∧ ((s e).core 1).retry = ⟨[], 4, [3]⟩ ∧ 3 ∈ [3] ∧ e.isFull (0x17FFF8 / 8) = false
      ∧ Mem.blank.isFull (0x17FFF8 / 8) = true ∧ ({ sl with stopReq := true } : Slot).stopReq = true := by
  repeat' apply And.intro
  all_goals decide +kernel

/-- PagesAndLogs: no write of a line cache waits for a page in these states. -/
theorem witness_no_backs : (paged (pteHere - 0x40) State.reset).backs = [] := rfl

/-- AgentReplies and QuiescenceSamples: a panorama whose only member is here, its instance armed, idle twice, and disarmed. -/
theorem witness_panorama_detector :
    let c : Cell := { cell0 with paninfo := BitVec.ofNat 64 (2 ^ 27 + 2 * 2 ^ 32) }
    let d : Detector := { Detector.fresh with gen := 1, armed := true, lastIdle := true }
    let q : Panorama := { Panorama.asked 0 0 0 0 0 [] with committed := true, panid := 2, members := [(0, ⟨0, 1, [], some 7, 0, 0⟩)], detector := d }
    let la : Launch := { Launch.new 0 0 0 0 [] false (some 2) 0 with gangs := [(0, { Gang.waiting 0x11 with cluster := some 0, loaded := true, cores := [0] })] }
    let s : State := { heldS (.detectorReply 0 0) { k0 with cell := some c } 0x3C5 1 .detector sl0 with pans := [(2, q)], launches := [(7, la)] }
    let u : State := { State.reset with pans := [(2, q)], launches := [(7, la)], event := some (.quiescenceSample true 2) }
    HeldLone s 0 0 0x3C5 1 .detector 8 ∧ heldApart s ∧ (1 : Word).getLsbD 0 = true ∧ panValid (s.cell 0).paninfo = true ∧ panId (s.cell 0).paninfo = 2 ∧ s.panAt 2 = some q
      ∧ u.event = some (.quiescenceSample true 2) ∧ u.panAt 2 = some q ∧ q.abroad = false ∧ q.launches.all u.launchIdle = true
      ∧ q.launches.all (fun l => (u.launchAt l).elim true (·.allOut)) = true ∧ ({ d with armed := false } : Detector).armed = false := by
  refine ⟨held_of_cores (held_ready (.detectorReply 0 0) .. : HeldLone (heldS (.detectorReply 0 0) { k0 with cell := some _ } 0x3C5 1 .detector sl0) _ _ _ _ _ _ ∧ _).1 rfl,
    ?_, ?_⟩
  · intro c i hh
    by_cases hc : c = 0 <;> by_cases hi : i = 0
    · subst hc; subst hi; rfl
    · subst hc; exact absurd (by simp [State.slot, State.core, heldS, one, Core.slot, Table.get, k0, Core.idle, Slot.free, hi]) hh
    · exact absurd (by simp [State.slot, State.core, heldS, one, Core.slot, Table.get, k0, Core.idle, Slot.free, hc]) hh
    · exact absurd (by simp [State.slot, State.core, heldS, one, Core.slot, Table.get, k0, Core.idle, Slot.free, hc]) hh
  repeat' apply And.intro
  all_goals decide +kernel

/-- Arrivals: a domain channel of panorama 2, and an arrival before that panorama is committed. -/
theorem witness_domain_arrivals :
    let ch : Channel := { Channel.free with owner := some (2, 0), mask := [1], expect := 1 }
    let b (h : Channel) : State := { State.reset with domain := [(3, h)], event := some (.domainBarrierArrival 2 3 0 1 0 5) }
    ((b ch).domain.get Channel.free 3).owner = some (2, 0) ∧ ((b ch).domain.get Channel.free 3).arrive (0 * 128 + 1) 0 5 ≠ none
      ∧ ((b Channel.free).domain.get Channel.free 3).owner ≠ some (2, 0) ∧ ((b Channel.free).panAt 2).elim true (fun q => !q.committed) = true := by
  repeat' apply And.intro
  all_goals decide +kernel

/-- Reservations: the cell that a returned credit is of, and an unused credit by its number. -/
theorem witness_credits :
    let e : Credit := ⟨1, 3, 0, some 7, (7, 0, 0), 2⟩
    let s : State := one (.creditIdleRelease 0 1) { k0 with credits := [e] } sl0
    s.coreOf (7, 0, 0) = some 0 ∧ (s.core 0).credits.find? (fun y => y.entry == 1) = some e ∧ e.credits ≠ 0 ∧ (∀ x ∈ s.pans, x.2.drainAsks = []) := by decide

/-- TrapDisposals: no kill waits for the strand. Preemption: the phases of a gang. -/
theorem witness_phases : sl0.killBy = none ∧ ({ Gang.waiting 0x11 with preempt := .saving } : Gang).preempt = .saving := by decide

/-- SignalPackets and TablePackets: a COPY of one line to a page that no strand waits for; ConfigPackets: no page of these states is being migrated, and a discard leaves the cache of control
blocks; QueueEvents: a fetch that finds every way pinned. -/
theorem witness_packet_pages :
    let p : Block := BitVec.ofNat 512 (bits [(128, 5)])
    let s := queued (.discard 5 p) 0xFFF [] (some p)
    let others := (List.range 8).map (fun n => 517 + 512 * n)
    let f := queued (.packetFetch 5) 0xFFF [(160, 1)] none
    let full : State := { f with blockCache := others, queues := f.queues ++ others.map (fun n => (n, { Queue.none with fetched := some 0 })) }
    s.heldRange 0x40000 64 = none ∧ (s.stack (stackOf 0x40000)).retry.entries = [] ∧ (∀ x ∈ (s.queueAt 5).issued, x.packet ≠ p ∧ x.index ≠ cbRdidx (s.queueAt 5).cb)
      ∧ s.migratingIn 0 (pk8 p 8) 5 = false ∧ (s.taken.discardPages 0 (0 + 2 ^ 16) 0 1 0 0).1.blockCache = s.blockCache
      ∧ cbState (full.queueAt 5).cb = 1 ∧ cbPending (full.queueAt 5).cb ≠ 0 ∧ full.blockCache.contains 5 = false ∧ 8 ≤ (full.blockCache.filter (sameSet 5)).length
      ∧ (∀ x ∈ full.blockCache, sameSet 5 x = true → full.blockPinned x = true) := by
  repeat' apply And.intro
  all_goals decide +kernel

/-- MemoryPatrol, Repairs and PagesRetired: no piece of an engine waits to go on, a row without a spare row, a bank with room for one more, and a resident page whose lines are clean. -/
theorem witness_repair_states :
    let k : Stack := { Stack.fresh with rowMap := (List.range 62).map (fun n => (1, 2, n)) }
    let u := paged pteHere { State.reset with event := some (.pageMadeNonResident 0 0) }
    State.reset.piecesDue = false ∧ k.rowMap.contains (1, 2, 63) = false ∧ (k.rowMap.filter (fun x => x.1 == 1 && x.2.1 == 2)).length < 63
      ∧ (State.reset.stack 0).active ≠ some (.row 0 0 0) ∧ Repair.row 0 0 0 ∉ (State.reset.stack 0).waiting
      ∧ (u.taken.cleanRange 0 0 (2 ^ 16)).writesDue 0 0 (2 ^ 16) = false
      ∧ (match (u.taken.cleanRange 0 0 (2 ^ 16)).walk 0 0 with | .leaf e _ _ => pteP e && !pteLost e | .invalid => false) = true := by
  repeat' apply And.intro
  all_goals decide +kernel

/-- Launches and Panoramas: the cache of control blocks is as it was; an answer to the first prepare and one to an earlier one, and channels for the domain. -/
theorem witness_admission :
    let q : Panorama := { Panorama.asked 5 0 0 0 0 [(0, 0, 0), (3, 0, 0)] with preparing := true, attempt := 1 }
    let a (n : Nat) : State := { State.reset with pans := [(2 ^ 17, q)], event := some (.panAdmissionPrepare (.answer (2 ^ 17) 3 n false [] [])) }
    let s := queued (.launch 5 0) 0xFFF [] (some 0)
    let w := queued (.panlaunch 5 0) 0xFFF [] (some 0)
    (match s.taken.readDesc 0 0 with | (u, .ok _) => u.blockCache.contains 5 && u.bells.isEmpty | _ => false) = true
      ∧ (w.taken.fwRead 0 0 64).1.blockCache.contains 5 = true ∧ ((w.taken.fwRead 0 0 64).1.fwRead 0 64 32).1.blockCache.contains 5 = true
      ∧ (a 1).panAt (2 ^ 17) = some q ∧ q.preparing = true ∧ q.attempt = 1 ∧ q.attempt ≠ 0 ∧ (a 1).pans = [(2 ^ 17, q)] ∧ (a 1).farDevices q = [3]
      ∧ ((a 1).pickDomain q.busy q.domch).isSome = true ∧ (∀ x, (State.reset.part x).bind = []) ∧ (∀ e ∈ (launch1 gang1).gangs, e.2.saved = []) := by
  refine ⟨?_, ?_, ?_, ?_, ?_, ?_, ?_, ?_, ?_, ?_, fun _ => rfl, ?_⟩
  all_goals decide +kernel

/-- HostLink: requests that wait for a gated front end, a doorbell on a pair in the error state among them; items that a debugger may read and write, and a cell item, which it may not
write. -/
theorem witness_held_requests :
    let d : DoorbellSend := ⟨3, BitVec.ofNat 512 (bits [(0, 5), (32, 1), (40, 15)]), [], 64, 0, .send⟩
    let host : HostPort := { State.reset.host with gated := true, held := [.send d, .debug 4 .attach], qpError := [3], qpPart := [(3, 0), (4, 0)], intakeBytes := 64 }
    let k := one (.debugRequest 4 (.read 0 0x1FE)) { k0 with slots := [(254, { sl0 with st := .stopped })] } sl0
    host.held = .send d :: [.debug 4 .attach] ∧ host.qpError.contains d.qp = true ∧ host.qpError.contains 4 = false ∧ (∀ h ∈ host.held, h.qp ≠ 5)
      ∧ k.debugItem 0 0 0x1FE false = true ∧ k.debugItem 0 0 0x1FE true = true ∧ k.debugItem 1 0 0x1FE false = false ∧ k.debugItem 0 0 0x400FF true = false := by
  repeat' apply And.intro
  all_goals decide +kernel

/-- SmallResets: a cluster with one resident launch, of one cell with one strand. -/
theorem witness_resident_reset :
    let ga : Gang := { gang1 with cluster := some 0, loaded := true, cores := [0] }
    let s (e : Event) : State := { one e k0 { sl0 with st := .ready } with launches := [(7, launch1 ga)] }
    let u := s (.clusterReset 0)
    u.launches = [(7, launch1 ga)] ∧ (launch1 ga).pan = none ∧ (launch1 ga).ending = none ∧ (∃ g ∈ (launch1 ga).gangs, g.2.cluster = some 0)
      ∧ (∀ g ∈ (launch1 ga).gangs, g.2.saved = []) ∧ (∀ e ∈ u.cores, e.1 = 0) ∧ clusterOf 0 = 0 ∧ (u.core 0).cell = some cell0 ∧ cell0.launch = 7 ∧ cell0.ended = false
      ∧ panValid cell0.paninfo = false ∧ (u.core 0).slots = [(0, { sl0 with st := .ready })] ∧ (u.core 0).cpy.cmds = [] ∧ (u.core 0).fab.cmds = [] ∧ (u.die (dieOf 0)).col.cmds = []
      ∧ (∀ e ∈ u.agenda, resetLevel e = 0) ∧ (s (.dieWarmReset (0 / 2))).pans = [] := by
  repeat' apply And.intro
  all_goals decide +kernel

/-- ConflictingMovesTrap: a call beside a write of x30. -/
theorem witness_call_conflict :
    ((lone 5 []).slot 0 0).live (DMove.ofMove ⟨0, 0x1E, true, 7⟩ false) = true ∧ ((lone 5 []).slot 0 0).live (DMove.ofMove ⟨0, 0x282, true, 64⟩ true) = true
      ∧ needsHandler 0x1E = false ∧ needsHandler 0x282 = false := by
  repeat' apply And.intro
  all_goals decide +kernel

/-! ## The assembly language (03) -/

section
open Asm

/-- The error of an outcome. -/
def errOf {α : Type} : Except Err α → Option Err
  | .ok _ => none
  | .error e => some e

/-- The program of the listing example of 03 R75. -/
def listing : List Item :=
  [.text, .entry "start", .label "start", .stmt (.mov none (.name "x3") (.imm (.num 40))),
   .stmt (.op none "add" (.name "x5") (.op (.name "x3")) (.imm (.num (-1)))),
   .stmt (.lone ⟨none, .imm (.num 0x0123456789ABCDEF), .name "x9"⟩)]

/-- Its words, the pad before the literal pair among them (03 R64, R70, R75). -/
theorem test_asm_listing :
    ((assembleObject [] listing).map (fun o => o.sections.map (fun s => (s.seg, s.start, s.data)))).toOption
      = some [(7, 0, [0x0000381400000000, 0x0004000180201FFF, 0x0000502000000000, 0x0000000000000000, 0x8000900000000000,
          0x0123456789ABCDEF].flatMap (numBytes 8))] := by decide +kernel

/-- Its listing: locations, words, statements and comments (03 R75). -/
theorem test_asm_listed :
    ((File.layout [] listing).bind (fun f => f.listed f.env)).toOption = some
      [⟨0, 0x0000381400000000, "#40 -> x3", none⟩, ⟨8, 0x0004000180201FFF, "x3 -> alu.o || #-1 -> alu.add", none⟩,
       ⟨16, 0x0000502000000000, "alu.res -> x5", none⟩, ⟨24, 0, "nop", some "pad"⟩,
       ⟨32, 0x8000900000000000, "#0x0123_4567_89AB_CDEF -> x9", none⟩, ⟨40, 0x0123456789ABCDEF, "", some "literal"⟩] := by decide +kernel

/-- One of its lines as text, and a raw address (03 R62, R75). -/
theorem test_asm_render :
    (⟨24, 0, "nop", some "pad"⟩ : Line).render = "0x0000_0018  0x0000_0000_0000_0000  nop // pad"
      ∧ ((Form.pair ⟨none, .op (.raw 0x3F), .name "x1"⟩ none).text [] ⟨7, true, 0⟩).toOption = some ("0x003F -> x1", some "raw") := by decide +kernel

/-- The example after 03 R65: a guarded lone move with a pair immediate. -/
theorem test_asm_guard :
    ((Form.pair ⟨some (false, 2), .imm (.num (-3)), .name "x7"⟩ none).encode [] ⟨7, true, 0⟩ |>.toOption) = some ⟨[0x08007FFE80000000], false, []⟩ := by decide +kernel

/-- The first listing of 04 R96. -/
theorem test_asm_adr :
    ((Form.pair ⟨none, .imm (.num (-1)), .name "adr.o"⟩ (some ⟨none, .imm (.num 0x100), .name "adr.tocw"⟩)).encode [] ⟨7, true, 0x100⟩).toOption
      = some ⟨[0x00046FFF80489100], false, []⟩ := by decide +kernel

/-- Two live moves to one register are an error; with opposite guards they are accepted (03 R65). -/
theorem test_asm_conflict :
    errOf ((Form.pair ⟨none, .op (.name "x3"), .name "x5"⟩ (some ⟨none, .op (.name "x6"), .name "x5"⟩)).encode [] ⟨7, true, 0⟩) = some .conflict
      ∧ ((Form.pair ⟨some (false, 2), .op (.name "x3"), .name "x5"⟩ (some ⟨some (true, 2), .op (.name "x6"), .name "x5"⟩)).encode [] ⟨7, true, 0⟩).isOk
        = true := by decide +kernel

/-- Operators of 00 R7: division rounds toward zero, a shift to the right toward minus infinity, and AND is exact on negative numbers (03 R66). -/
theorem test_asm_expr : (BinOp.div.eval (-7) 2).toOption = some (-3) ∧ (BinOp.mod.eval (-7) 2).toOption = some (-1) ∧ (BinOp.shr.eval (-7) 1).toOption = some (-4)
    ∧ (BinOp.and.eval (-4) 6).toOption = some 4 ∧ (BinOp.xor.eval (-1) 5).toOption = some (-6) := by decide +kernel

/-- An operand port is no source, and a result port no destination (03 R65). -/
theorem test_asm_names : errOf (Operand.name "alu.o").src = some (.notASource "alu.o") ∧ errOf (Operand.name "ALU.res").dst = some (.notADestination "ALU.res")
    ∧ (Operand.name "SEG3H").dst.toOption = some 0x827 := by decide +kernel

/-- The source of the same example, read from its text (03 R61, R75). -/
theorem test_asm_source :
    ((parse "        .text\n        .entry  start\nstart:  mov     x3, #40\n        add     x5, x3, #-1\n        #0x0123_4567_89AB_CDEF -> x9   // literal").bind
      (fun l => (assembleObject [] l).toOption.map (fun o => o.sections.map (fun s => s.data)))) =
      some [[0x0000381400000000, 0x0004000180201FFF, 0x0000502000000000, 0x0000000000000000, 0x8000900000000000,
          0x0123456789ABCDEF].flatMap (numBytes 8)] := by decide +kernel

/-- A call of another file's label, and a value that another file exports: one relocation each, resolved by the linker (03 R66, R67, R74). -/
def twoFiles : List (List ((Nat × Bool) × Nat) × List Item) :=
  [([], [.text, .entry "main", .label "main", .stmt (.call none "f"), .stmt (.lone ⟨none, .imm (.sym "k"), .name "x1"⟩)]),
   ([((7, true), 64)], [.text, .global "f", .global "k", .equ "base" (.num 5), .equ "k" (.bin .add (.sym "base") (.num 2)), .label "f", .stmt (.ret none)])]

theorem test_asm_link :
    ((twoFiles.mapM (fun f => assembleObject f.1 f.2)).bind (fun os => (link os).map (fun l => (os.map (fun o => o.fixups.length), (l.drop 128).take 16)))).toOption
      = some ([2, 0], [0x4028300000000040, 0x4000100000000007].flatMap (numBytes 8)) := by decide +kernel

/-- A cycle of .equ symbols that nothing uses is an error (03 R66). -/
theorem test_asm_cycle : errOf (assemble [] [.text, .entry "m", .label "m", .stmt (.nop none), .equ "a" (.sym "b"), .equ "b" (.sym "a")]) = some .cycle := by
  decide +kernel

/-- A guarded pair, and the levels of the operators (03 R63, R66). -/
theorem test_asm_levels :
    parse "?!g2 alu.res -> x5 || #1 << 2 + 3 & 7 -> g1" = some [.stmt (.pair ⟨some (true, 2), .op (.name "alu.res"), .name "x5"⟩
      ⟨none, .imm (.bin .and (.bin .shl (.num 1) (.bin .add (.num 2) (.num 3))) (.num 7)), .name "g1"⟩)] := by decide +kernel

end

end Sys2Proof.Tests
end

section
/-! SUPPORT. What a lone word of the units alu, sh, mul, div, cmp and adr leaves: one lemma for each unit (02 R50, 04 R82, R83, R90). -/

namespace Sys2Proof.Proofs.Scalar

open Sys2Proof Sys2Proof.Machine

theorem scalarBlock_isTrigger {d : BitVec 14} (h : 4 ≤ blockOf d ∧ blockOf d ≤ 9) : isTrigger d = true := by
  simp only [blockOf] at h
  simp only [isTrigger, Bool.and_eq_true, decide_eq_true_eq]
  omega

theorem scalarBlock_isImmediate {d : BitVec 14} (h : 4 ≤ blockOf d ∧ blockOf d ≤ 9) : isImmediate (blockOf d) = true := by
  simp only [isImmediate, Bool.or_eq_true, Bool.and_eq_true, decide_eq_true_eq]
  omega

theorem scalarBlock_needsHandler {d : BitVec 14} (h : 4 ≤ blockOf d ∧ blockOf d ≤ 9) : needsHandler d = false := by
  simp only [blockOf] at h
  simp only [needsHandler, Bool.or_eq_false_iff, Bool.and_eq_false_iff, decide_eq_false_iff_not]
  omega

/-- A result without flags is valid at once where it is due no later than the cycle after now, and pending otherwise (02 R54, 04 R90). -/
theorem later_eq (sl : Slot) (r : Nat) (v : Word) (due now : Nat) :
    sl.later r v 0 due now = if due ≤ now + 1 then sl.setRes r v else { sl with res := sl.res.set r ⟨v, true, due, 0⟩ } := by
  simp [Slot.later, Slot.deliver, Slot.port, Slot.setRes]

section
variable {s : State} {c i : Nat} {m : Lone} (h : LoneReady s c i m) (d : BitVec 14)
include h

/-- A lone word of an alu, sh, mul, div, cmp or adr operation retires with what the operation leaves: none of them faults (04 R83). -/
theorem runLone_scalar {sl : Slot} (hd : 4 ≤ blockOf d ∧ blockOf d ≤ 9)
    (hop : immOp (s.immCtx c i (s.slot c i).pc ((s.slot c i).pc + 8)) d (s.loneValue c i m) (s.stepped c i) = .ok sl)
    (hstop : sl.stopReq = (s.slot c i).stopReq) (hpark : sl.park = (s.slot c i).park) :
    runLone d m s = .next (s.retires c i sl) :=
  runLone_immediate d sl h (scalarBlock_isTrigger hd) (scalarBlock_isImmediate hd) (scalarBlock_needsHandler hd) hop
    (hstop.trans h.unstopped) (hpark.trans h.unparked)

theorem runLone_alu {v : Word} (hd : blockOf d = 4) (hv : aluOp (opOf d) ((s.slot c i).operand 0x40) (s.loneValue c i m) = v) :
    runLone d m s = .next (s.loneResult c i rAlu v) := by
  subst hv
  exact runLone_scalar h d (by omega) (by simp only [immOp, hd]; rfl) rfl rfl

theorem runLone_sh {v : Word} (hd : blockOf d = 5)
    (hv : shOp (opOf d) ((s.slot c i).operand 0x41) ((s.slot c i).operand 0x42) (s.loneValue c i m) = v) :
    runLone d m s = .next (s.loneResult c i rSh v) := by
  subst hv
  exact runLone_scalar h d (by omega) (by simp only [immOp, hd]; rfl) rfl rfl

theorem runLone_mul {v : Word} (hd : blockOf d = 6) (hv : mulOp (opOf d) ((s.slot c i).operand 0x43) (s.loneValue c i m) = v) :
    runLone d m s = .next (s.loneResult c i rMul v) := by
  subst hv
  exact runLone_scalar h d (by omega) (by simp only [immOp, hd]; rfl) rfl rfl

theorem runLone_div {v : Word} {l : Nat} (hd : blockOf d = 7)
    (hv : divOp (opOf d) ((s.slot c i).operand 0x44) (s.loneValue c i m) = v)
    (hl : divLatency (opOf d) ((s.slot c i).operand 0x44) (s.loneValue c i m) = l) :
    runLone d m s = .next (s.retires c i
      (if (s.slot c i).issuedAt + l ≤ (s.core c).cycles + 1 then (s.stepped c i).setRes rDiv v
        else { s.stepped c i with res := (s.slot c i).res.set rDiv ⟨v, true, (s.slot c i).issuedAt + l, 0⟩ })) := by
  subst hv hl
  refine runLone_scalar h d (by omega) ?_ ?_ ?_
  · simp only [immOp, hd, later_eq]; rfl
  · split <;> rfl
  · split <;> rfl

theorem runLone_cmp {p : Prop} [Decidable p] (hd : blockOf d = 8)
    (hp : cmpOp (opOf d) ((s.slot c i).operand 0x45) (s.loneValue c i m) = true ↔ p) :
    runLone d m s = .next (s.loneResult c i rCmp (if p then 1 else 0)) := by
  refine runLone_scalar h d (by omega) (sl := (s.stepped c i).setRes rCmp (if p then 1 else 0)) ?_ rfl rfl
  simp only [immOp, hd, boolWord, ← hp]; rfl

theorem runLone_adr {v : Word} (hd : blockOf d = 9)
    (hv : adrOp (s.immCtx c i (s.slot c i).pc ((s.slot c i).pc + 8)) (opOf d) ((s.slot c i).operand 0x46) (s.loneValue c i m)
      (s.stepped c i) = v) :
    runLone d m s = .next (s.loneResult c i rAdr v) := by
  subst hv
  exact runLone_scalar h d (by omega) (by simp only [immOp, hd]; rfl) rfl rfl

end

end Sys2Proof.Proofs.Scalar
end

section
/-! SUPPORT. The alu, mul and cmp units (04 R85, R88, R91). -/

namespace Sys2Proof.Proofs.Scalar

open Sys2Proof Sys2Proof.Machine

theorem aluOp_min (o t : Word) : aluOp 7 o t = if o.toInt ≤ t.toInt then o else t := by
  simp [aluOp, BitVec.sle_eq_decide]

theorem aluOp_max (o t : Word) : aluOp 8 o t = if o.toInt ≤ t.toInt then t else o := by
  simp only [aluOp, BitVec.sle_eq_decide, decide_eq_true_eq]
  split <;> split
  · exact BitVec.eq_of_toInt_eq (by omega)
  · rfl
  · rfl
  · omega

theorem aluOp_minz (o t : Word) : aluOp 9 o t = if o.toNat ≤ t.toNat then o else t := by
  simp [aluOp, BitVec.ule_eq_decide]

theorem aluOp_maxz (o t : Word) : aluOp 10 o t = if o.toNat ≤ t.toNat then t else o := by
  simp only [aluOp, BitVec.ule_eq_decide, decide_eq_true_eq]
  split <;> split
  · exact BitVec.eq_of_toNat_eq (by omega)
  · rfl
  · rfl
  · omega

theorem sext32_eq_extract (v : Word) : sext32 v = (v.extractLsb' 0 32).signExtend 64 := by
  rw [sext32, BitVec.setWidth_eq_extractLsb' (by decide)]

theorem aluOp_addz (o t : Word) : aluOp 14 o t = BitVec.ofNat 64 (min (2 ^ 64 - 1) (o.toNat + t.toNat)) := by
  simp only [aluOp]
  split
  next hover => rw [Nat.min_eq_left (by omega)]; rfl
  next hfits => rw [Nat.min_eq_right (by omega), BitVec.ofNat_add, BitVec.ofNat_toNat, BitVec.ofNat_toNat, BitVec.setWidth_eq,
      BitVec.setWidth_eq]

theorem mulOp_lo (o t : Word) : mulOp 0 o t = BitVec.ofNat 64 (o.toNat * t.toNat) := rfl

/-- The low half of a product depends on the low halves of its factors, signed or not. -/
theorem mulOp_w (o t : Word) :
    mulOp 4 o t = BitVec.ofInt 64 ((BitVec.ofInt 32 ((o.setWidth 32).toInt * (t.setWidth 32).toInt)).toInt) := by
  have low : (o * t).setWidth 32 = BitVec.ofInt 32 ((o.setWidth 32).toInt * (t.setWidth 32).toInt) := by
    rw [BitVec.ofInt_mul, BitVec.ofInt_toInt, BitVec.ofInt_toInt, BitVec.setWidth_mul _ _ (by decide)]
  rw [← low]; rfl

theorem cmpOp_eq (o t : Word) : cmpOp 0 o t = true ↔ o = t := by simp [cmpOp]
theorem cmpOp_ne (o t : Word) : cmpOp 1 o t = true ↔ o ≠ t := by simp [cmpOp]
theorem cmpOp_bclr (o t : Word) : cmpOp 7 o t = true ↔ o.getLsbD (t.toNat % 64) = false := by simp [cmpOp]

theorem aluResults : Parts.AluResults := by
  intro s c i m h
  exact ⟨runLone_alu h 0x100 rfl rfl, runLone_alu h 0x101 rfl rfl, runLone_alu h 0x102 rfl rfl, runLone_alu h 0x103 rfl rfl,
    runLone_alu h 0x104 rfl rfl, runLone_alu h 0x105 rfl rfl, runLone_alu h 0x106 rfl rfl, runLone_alu h 0x107 rfl (aluOp_min ..),
    runLone_alu h 0x108 rfl (aluOp_max ..), runLone_alu h 0x109 rfl (aluOp_minz ..), runLone_alu h 0x10A rfl (aluOp_maxz ..),
    runLone_alu h 0x10B rfl (sext32_eq_extract _), runLone_alu h 0x10C rfl (sext32_eq_extract _), runLone_alu h 0x10D rfl rfl,
    runLone_alu h 0x10E rfl (aluOp_addz ..)⟩

theorem mulResults : Parts.MulResults := by
  intro s c i m h
  exact ⟨runLone_mul h 0x180 rfl (mulOp_lo ..), runLone_mul h 0x181 rfl rfl, runLone_mul h 0x182 rfl rfl, runLone_mul h 0x183 rfl rfl,
    runLone_mul h 0x184 rfl (mulOp_w ..)⟩

theorem cmpResults : Parts.CmpResults := by
  intro s c i m h
  exact ⟨runLone_cmp h 0x200 rfl (cmpOp_eq ..), runLone_cmp h 0x201 rfl (cmpOp_ne ..), runLone_cmp h 0x202 rfl BitVec.slt_iff_toInt_lt,
    runLone_cmp h 0x203 rfl BitVec.ult_iff_toNat_lt, runLone_cmp h 0x204 rfl BitVec.sle_iff_toInt_le,
    runLone_cmp h 0x205 rfl BitVec.ule_iff_toNat_le, runLone_cmp h 0x206 rfl Iff.rfl, runLone_cmp h 0x207 rfl (cmpOp_bclr ..)⟩

/-- Settles O8, from the three units' results. -/
theorem integerResults : Obligations.IntegerResults := ⟨aluResults, mulResults, cmpResults⟩

end Sys2Proof.Proofs.Scalar
end

section
/-! SUPPORT. The adr unit (04 R93 to R97). -/

namespace Sys2Proof.Proofs.Scalar

open Sys2Proof Sys2Proof.Machine

theorem adrTocw_eq (core : Nat) (o t : Word) :
    adrTocw core o t = if t.toNat < 2 ^ 21 ∧ t.toNat % 2 ^ 21 < 0x180000 ∧ (if o.getLsbD 63 then core % 96 else o.toNat % 128) < 96 then
      BitVec.ofNat 64 ((if o.getLsbD 63 then core % 96 else o.toNat % 128) * 2 ^ 21 + t.toNat % 2 ^ 21) else -1 := by
  unfold adrTocw
  extract_lets k
  by_cases hgood : t.toNat < 2 ^ 21 ∧ t.toNat % 2 ^ 21 < 0x180000 ∧ k < 96
  · rw [if_pos hgood, if_neg (by omega)]
  · rw [if_neg hgood, if_pos (by omega)]
    rfl

theorem adrTopan_eq (o t : Word) :
    adrTopan o t = if t.toNat < 2 ^ 28 ∧ t.toNat / 2 ^ 21 < 96 ∧ t.toNat % 2 ^ 21 < 0x180000 ∧ o.toNat % 512 < 288 then
      BitVec.ofNat 64 (o.toNat % 512 * 2 ^ 28 + t.toNat) else -1 := by
  have hcore : bitsOf t.toNat 21 7 = t.toNat / 2 ^ 21 % 2 ^ 7 := rfl
  simp only [adrTopan]
  by_cases hgood : t.toNat < 2 ^ 28 ∧ t.toNat / 2 ^ 21 < 96 ∧ t.toNat % 2 ^ 21 < 0x180000 ∧ o.toNat % 512 < 288
  · rw [if_pos hgood, if_neg (by omega), Nat.mod_eq_of_lt hgood.1]
  · rw [if_neg hgood, if_pos (by omega)]
    rfl

theorem segNo_eq (t : Word) : segNo t = t.toNat / 2 ^ 61 := by
  simp only [segNo, bitsOf]
  omega

theorem offOf_eq (t : Word) : offOf t = t.toNat % 2 ^ 61 := by
  simp [offOf, bitsOf]

/-- The test of adr.inseg (04 R94), condition by condition. -/
theorem adrInseg_iff (sl : Slot) (members : Nat) (o t : Word) :
    adrInseg sl members o t = true ↔
      (1 ≤ (sl.seg (segNo o)).space ∧ (sl.seg (segNo o)).space ≤ 6) ∧ (t.getLsbD 41 → (sl.seg (segNo o)).rd)
        ∧ (t.getLsbD 42 → (sl.seg (segNo o)).wr) ∧ (t.getLsbD 43 → (sl.seg (segNo o)).ex) ∧ (t.getLsbD 44 → (sl.seg (segNo o)).at_)
        ∧ (t.getLsbD 42 ∨ t.getLsbD 44 → (sl.seg (segNo o)).cn = false) ∧ t.toNat % 2 ^ 41 ≤ 2 ^ 40
        ∧ (t.toNat % 2 ^ 41 = 0 ∨ (offOf o + t.toNat % 2 ^ 41 ≤ (sl.seg (segNo o)).limit
            ∧ (sl.seg (segNo o)).locate members (offOf o) (t.toNat % 2 ^ 41) ≠ none)) := by
  have right (a b : Bool) : (!a || b) = true ↔ (a → b) := by cases a <;> simp
  have noRight (a b g : Bool) : (!((a || b) && g)) = true ↔ (a ∨ b → g = false) := by cases a <;> cases b <;> simp
  have len : bitsOf t.toNat 0 41 = t.toNat % 2 ^ 41 := by simp [bitsOf]
  simp only [adrInseg, len, Bool.and_eq_true, Bool.or_eq_true (_ == _), decide_eq_true_eq, right, noRight, beq_iff_eq,
    Option.isSome_iff_ne_none, and_assoc]

/-- Settles O9. No operation of the unit reads anything that its word changes: the segments are those of the strand. -/
theorem adrResults : Obligations.AdrResults := by
  intro s c i m h
  exact ⟨runLone_adr h 0x240 rfl rfl, runLone_adr h 0x241 rfl (congrArg (BitVec.ofNat 64) (segNo_eq _)),
    runLone_adr h 0x242 rfl (congrArg (BitVec.ofNat 64) (offOf_eq _)),
    runLone_adr h 0x244 rfl (adrTocw_eq ..), runLone_adr h 0x245 rfl (adrTopan_eq ..), runLone_adr h 0x246 rfl rfl, _,
    runLone_adr h 0x243 rfl rfl, adrInseg_iff ..⟩

end Sys2Proof.Proofs.Scalar
end

section
/-! SUPPORT. The div unit (04 R89, R90). -/

namespace Sys2Proof.Proofs.Scalar

open Sys2Proof Sys2Proof.Machine

theorem signExt_eq_toInt (n v : Nat) : signExt n v = (BitVec.ofNat n v).toInt := by
  simp [signExt, BitVec.toInt_eq_toNat_cond]

theorem signExt_toNat_eq_toInt (n : Nat) (v : Word) : signExt n v.toNat = (v.setWidth n).toInt := by
  rw [signExt_eq_toInt, BitVec.ofNat_toNat]

/-- The one signed quotient that does not fit its width is that of the least number by -1. -/
theorem divSigned_cases {w : Nat} (a b : Int) (hb : b ≠ 0) :
    (b = -1 ∧ a = -(2 ^ (w - 1)) ∧ divSigned w a b = (a, 0)) ∨ (¬ (b = -1 ∧ a = -(2 ^ (w - 1))) ∧ divSigned w a b = (a.tdiv b, a.tmod b)) := by
  by_cases hmin : b = -1 ∧ a = -(2 ^ (w - 1))
  · exact .inl ⟨hmin.1, hmin.2, by rw [divSigned, if_neg hb, if_pos hmin]⟩
  · exact .inr ⟨hmin, by rw [divSigned, if_neg hb, if_neg hmin]⟩

theorem divSigned_zero (w : Nat) (a : Int) : divSigned w a 0 = (-1, a) := rfl

theorem divSigned_remainder (w : Nat) (a b : Int) (hb : b ≠ 0) : (divSigned w a b).2 = a.tmod b := by
  obtain ⟨rfl, -, hd⟩ | ⟨-, hd⟩ := divSigned_cases (w := w) a b hb <;> rw [hd]
  simp [Int.tmod_neg]

/-- The quotient that does not fit has the magnitude of the exact one, so that it takes as long (04 R90). -/
theorem divSigned_quotient_natAbs (w : Nat) (a b : Int) (hb : b ≠ 0) : (divSigned w a b).1.natAbs = (a.tdiv b).natAbs := by
  obtain ⟨rfl, -, hd⟩ | ⟨-, hd⟩ := divSigned_cases (w := w) a b hb <;> rw [hd]
  simp [Int.tdiv_neg]

theorem divSigned_quotient {w : Nat} (hw : 0 < w) (x y : BitVec w) (hy : y.toInt ≠ 0) :
    (divSigned w x.toInt y.toInt).1 = (x.sdiv y).toInt := by
  obtain ⟨hy1, hmin, hd⟩ | ⟨hfits, hd⟩ := divSigned_cases (w := w) x.toInt y.toInt hy <;> rw [hd]
  · have hwrap : ((2 ^ w : Nat) : Int) = 2 * 2 ^ (w - 1) := by rw [Int.natCast_pow, ← Int.pow_succ', Nat.sub_add_cancel hw]; rfl
    rw [BitVec.toInt_sdiv, hy1, hmin, Int.neg_tdiv_neg, Int.tdiv_one, Int.bmod_eq_neg (Int.pow_nonneg (by decide)) hwrap]
  · refine (BitVec.toInt_sdiv_of_ne_or_ne x y (Decidable.not_and_iff_not_or_not.mp fun ⟨hx, hy1⟩ => hfits ⟨?_, ?_⟩)).symm
    · rw [hy1, BitVec.neg_one_eq_allOnes, BitVec.toInt_allOnes, if_pos hw]
    · rw [hx, BitVec.toInt_intMin_of_pos hw]

/-- The quotient of two signed numbers of w bits is the exact one, wrapped to w bits. -/
theorem divSigned_quotient_wraps {w : Nat} (hw : 0 < w) (x y : BitVec w) (hy : y.toInt ≠ 0) :
    (divSigned w x.toInt y.toInt).1 = (BitVec.ofInt w (x.toInt.tdiv y.toInt)).toInt := by
  rw [divSigned_quotient hw x y hy, BitVec.toInt_sdiv, BitVec.toInt_ofInt]

/-- The latency of a division by no zero follows from the magnitude of its quotient (04 R90). -/
theorem divLatency_of_quotient {k : Nat} {o t : Word} {q : Nat} (hz : divByZero k t = false) (hq : (divPair k o t).1.natAbs = q) :
    divLatency k o t = if q = 0 then 18 else 18 + (Nat.log2 q + 1 + 3) / 4 := by
  subst hq
  rw [divLatency, hz]
  by_cases h0 : (divPair k o t).1.natAbs = 0 <;> simp [h0]

theorem divLatency_zero {k : Nat} {o t : Word} (hz : divByZero k t = true) : divLatency k o t = 18 := by
  rw [divLatency, hz]; rfl

theorem divPair_signed {k : Nat} (o t : Word) (hk : k = 0 ∨ k = 2) : divPair k o t = divSigned 64 o.toInt t.toInt := by
  obtain rfl | rfl := hk <;> rfl

theorem divPair_unsigned {k : Nat} (o t : Word) (hk : k = 1 ∨ k = 3) (ht : t ≠ 0) :
    divPair k o t = (((o.toNat / t.toNat : Nat) : Int), ((o.toNat % t.toNat : Nat) : Int)) := by
  have hne : t.toNat ≠ 0 := fun h => ht (BitVec.eq_of_toNat_eq h)
  simp only [divPair, if_pos hk, divUnsigned, if_neg hne]

theorem divPair_word {k : Nat} (o t : Word) (hk : k = 4 ∨ k = 5) :
    divPair k o t = divSigned 32 (o.setWidth 32).toInt (t.setWidth 32).toInt := by
  rw [← signExt_toNat_eq_toInt, ← signExt_toNat_eq_toInt]
  obtain rfl | rfl := hk <;> rfl

theorem toInt_ne_zero {w : Nat} {t : BitVec w} (ht : t ≠ 0) : t.toInt ≠ 0 := fun h => ht (BitVec.eq_of_toInt_eq (by simpa using h))

theorem divByZero_wide {k : Nat} (t : Word) (hk : k < 4) : divByZero k t = decide (t = 0) := by
  rw [divByZero, if_neg (by omega), decide_eq_decide.mpr (BitVec.toNat_inj (x := t) (y := 0)).symm]
  rfl

theorem divByZero_word {k : Nat} (t : Word) (hk : k = 4 ∨ k = 5) : divByZero k t = decide ((t.setWidth 32).toInt = 0) := by
  have hzero : (t.setWidth 32).toInt = 0 ↔ t.toNat % 2 ^ 32 = 0 := by
    rw [← BitVec.toInt_zero (w := 32), BitVec.toInt_inj, ← BitVec.toNat_inj, BitVec.toNat_setWidth]
    rfl
  rw [divByZero, if_pos hk, decide_eq_decide.mpr hzero]
  rfl

theorem divOp_quotient {k : Nat} (o t : Word) (hk : k = 0 ∨ k = 1 ∨ k = 4) : divOp k o t = BitVec.ofInt 64 (divPair k o t).1 := by
  rw [divOp, if_neg (by omega)]

theorem divOp_remainder {k : Nat} (o t : Word) (hk : k = 2 ∨ k = 3 ∨ k = 5) : divOp k o t = BitVec.ofInt 64 (divPair k o t).2 := by
  rw [divOp, if_pos hk]

/-- A zero divisor: an all-ones quotient and the dividend (04 R89). -/
theorem divOp_zero (o t : Word) (ht : t = 0) : divOp 0 o t = -1 ∧ divOp 1 o t = -1 ∧ divOp 2 o t = o ∧ divOp 3 o t = o := by
  subst ht
  exact ⟨rfl, rfl, (divOp_remainder o 0 (by decide)).trans BitVec.ofInt_toInt, (divOp_remainder o 0 (by decide)).trans (BitVec.ofNat_toNat 64 o)⟩

/-- A divisor whose low half is zero, in the w forms (04 R89). -/
theorem divOp_word_zero (o t : Word) (ht : (t.setWidth 32).toInt = 0) :
    divOp 4 o t = -1 ∧ divOp 5 o t = BitVec.ofInt 64 (o.setWidth 32).toInt := by
  rw [divOp_quotient o t (by decide), divOp_remainder o t (by decide), divPair_word o t (.inl rfl), divPair_word o t (.inr rfl), ht,
    divSigned_zero]
  exact ⟨rfl, rfl⟩

theorem divOp_signed (o t : Word) (ht : t ≠ 0) :
    divOp 0 o t = BitVec.ofInt 64 (o.toInt.tdiv t.toInt) ∧ divOp 2 o t = BitVec.ofInt 64 (o.toInt.tmod t.toInt) := by
  have hne := toInt_ne_zero ht
  rw [divOp_quotient o t (by decide), divOp_remainder o t (by decide), divPair_signed o t (.inl rfl), divPair_signed o t (.inr rfl),
    divSigned_quotient_wraps (by decide) o t hne, divSigned_remainder _ _ _ hne, BitVec.ofInt_toInt]
  exact ⟨rfl, rfl⟩

theorem divOp_unsigned (o t : Word) (ht : t ≠ 0) :
    divOp 1 o t = BitVec.ofNat 64 (o.toNat / t.toNat) ∧ divOp 3 o t = BitVec.ofNat 64 (o.toNat % t.toNat) := by
  rw [divOp_quotient o t (by decide), divOp_remainder o t (by decide), divPair_unsigned o t (.inl rfl) ht, divPair_unsigned o t (.inr rfl) ht,
    BitVec.ofInt_natCast, BitVec.ofInt_natCast]
  exact ⟨rfl, rfl⟩

theorem divOp_word (o t : Word) (ht : (t.setWidth 32).toInt ≠ 0) :
    divOp 4 o t = BitVec.ofInt 64 (BitVec.ofInt 32 ((o.setWidth 32).toInt.tdiv (t.setWidth 32).toInt)).toInt
      ∧ divOp 5 o t = BitVec.ofInt 64 ((o.setWidth 32).toInt.tmod (t.setWidth 32).toInt) := by
  rw [divOp_quotient o t (by decide), divOp_remainder o t (by decide), divPair_word o t (.inl rfl), divPair_word o t (.inr rfl),
    divSigned_quotient_wraps (by decide) _ _ ht, divSigned_remainder _ _ _ ht]
  exact ⟨rfl, rfl⟩

theorem divLatency_signed {k : Nat} (o t : Word) (hk : k = 0 ∨ k = 2) (ht : t ≠ 0) :
    divLatency k o t = if (o.toInt.tdiv t.toInt).natAbs = 0 then 18 else 18 + (Nat.log2 (o.toInt.tdiv t.toInt).natAbs + 1 + 3) / 4 :=
  divLatency_of_quotient ((divByZero_wide t (by omega)).trans (decide_eq_false ht))
    (by rw [divPair_signed o t hk, divSigned_quotient_natAbs _ _ _ (toInt_ne_zero ht)])

theorem divLatency_unsigned {k : Nat} (o t : Word) (hk : k = 1 ∨ k = 3) (ht : t ≠ 0) :
    divLatency k o t = if o.toNat / t.toNat = 0 then 18 else 18 + (Nat.log2 (o.toNat / t.toNat) + 1 + 3) / 4 :=
  divLatency_of_quotient ((divByZero_wide t (by omega)).trans (decide_eq_false ht))
    (by rw [divPair_unsigned o t hk ht, Int.natAbs_natCast])

theorem divLatency_word {k : Nat} (o t : Word) (hk : k = 4 ∨ k = 5) (ht : (t.setWidth 32).toInt ≠ 0) :
    divLatency k o t = if ((o.setWidth 32).toInt.tdiv (t.setWidth 32).toInt).natAbs = 0 then 18
      else 18 + (Nat.log2 ((o.setWidth 32).toInt.tdiv (t.setWidth 32).toInt).natAbs + 1 + 3) / 4 :=
  divLatency_of_quotient ((divByZero_word t hk).trans (decide_eq_false ht))
    (by rw [divPair_word o t hk, divSigned_quotient_natAbs _ _ _ ht])

/-- Settles O7: by cases on a zero divisor, in 64 bits and in 32. -/
theorem divResults : Obligations.DivResults := by
  intro s c i m h o t ow tw steps q qw res
  refine ⟨fun ht => ?zero, fun ht => ?wordZero, fun ht => ?wide, fun ht => ?word⟩
  case zero =>
    obtain ⟨hdiv, hdivz, hrem, hremz⟩ := divOp_zero o t ht
    have hz {k : Nat} (hk : k < 4) : divLatency k o t = 18 := divLatency_zero ((divByZero_wide t hk).trans (decide_eq_true ht))
    exact ⟨runLone_div h 0x1C0 rfl hdiv (hz (by decide)), runLone_div h 0x1C1 rfl hdivz (hz (by decide)),
      runLone_div h 0x1C2 rfl hrem (hz (by decide)), runLone_div h 0x1C3 rfl hremz (hz (by decide))⟩
  case wordZero =>
    obtain ⟨hdivw, hremw⟩ := divOp_word_zero o t ht
    have hz {k : Nat} (hk : k = 4 ∨ k = 5) : divLatency k o t = 18 := divLatency_zero ((divByZero_word t hk).trans (decide_eq_true ht))
    exact ⟨runLone_div h 0x1C4 rfl hdivw (hz (.inl rfl)), runLone_div h 0x1C5 rfl hremw (hz (.inr rfl))⟩
  case wide =>
    obtain ⟨hdiv, hrem⟩ := divOp_signed o t ht
    obtain ⟨hdivz, hremz⟩ := divOp_unsigned o t ht
    exact ⟨runLone_div h 0x1C0 rfl hdiv (divLatency_signed o t (.inl rfl) ht), runLone_div h 0x1C1 rfl hdivz (divLatency_unsigned o t (.inl rfl) ht),
      runLone_div h 0x1C2 rfl hrem (divLatency_signed o t (.inr rfl) ht), runLone_div h 0x1C3 rfl hremz (divLatency_unsigned o t (.inr rfl) ht)⟩
  case word =>
    obtain ⟨hdivw, hremw⟩ := divOp_word o t ht
    exact ⟨runLone_div h 0x1C4 rfl hdivw (divLatency_word o t (.inl rfl) ht), runLone_div h 0x1C5 rfl hremw (divLatency_word o t (.inr rfl) ht)⟩

end Sys2Proof.Proofs.Scalar
end

section
/-! SUPPORT. The sh unit (04 R86, R87). -/

namespace Sys2Proof.Proofs.Scalar

open Sys2Proof Sys2Proof.Machine

/-! ## Shifts and rotations -/

theorem shOp_sll (o p t : Word) : shOp 0 o p t = BitVec.ofNat 64 (o.toNat * 2 ^ (t.toNat % 64)) :=
  BitVec.eq_of_toNat_eq (by simp [shOp, Nat.shiftLeft_eq])

theorem shOp_srl (o p t : Word) : shOp 1 o p t = BitVec.ofNat 64 (o.toNat / 2 ^ (t.toNat % 64)) := by
  apply BitVec.eq_of_toNat_eq
  rw [BitVec.toNat_ofNat, Nat.mod_eq_of_lt (Nat.lt_of_le_of_lt (Nat.div_le_self ..) o.isLt), ← Nat.shiftRight_eq_div_pow]
  exact BitVec.toNat_ushiftRight ..

theorem toInt_sshiftRight_eq_div {w : Nat} (x : BitVec w) (n : Nat) : (x.sshiftRight n).toInt = x.toInt / 2 ^ n := by
  rw [BitVec.toInt_sshiftRight, Int.shiftRight_eq_div_pow]
  norm_cast

theorem shOp_sra (o p t : Word) : shOp 2 o p t = BitVec.ofInt 64 (o.toInt / 2 ^ (t.toNat % 64)) := by
  rw [← toInt_sshiftRight_eq_div, BitVec.ofInt_toInt]
  rfl

theorem shOp_rotl_getLsbD (o p t : Word) (k : Nat) (hk : k < 64) :
    (shOp 3 o p t).getLsbD ((k + t.toNat % 64) % 64) = o.getLsbD k := by
  simp only [shOp, BitVec.getLsbD_rotateLeft, Nat.mod_mod, Nat.mod_lt _ (by decide : 64 > 0), decide_true, Bool.true_and]
  by_cases hwrap : (k + t.toNat % 64) % 64 < t.toNat % 64
  · rw [decide_eq_true hwrap]
    exact congrArg o.getLsbD (by omega)
  · rw [decide_eq_false hwrap]
    exact congrArg o.getLsbD (by omega)

theorem shOp_rotr_getLsbD (o p t : Word) (k : Nat) (hk : k < 64) :
    (shOp 4 o p t).getLsbD k = o.getLsbD ((k + t.toNat % 64) % 64) := by
  simp only [shOp, BitVec.getLsbD_rotateRight, Nat.mod_mod, hk, decide_true, Bool.true_and]
  by_cases hwrap : k < 64 - t.toNat % 64
  · rw [decide_eq_true hwrap]
    exact congrArg o.getLsbD (by omega)
  · rw [decide_eq_false hwrap]
    exact congrArg o.getLsbD (by omega)

theorem shOp_sllw (o p t : Word) : shOp 13 o p t = (BitVec.ofNat 32 (o.toNat * 2 ^ (t.toNat % 32))).signExtend 64 := by
  have low : (o <<< (t.toNat % 32)).setWidth 32 = BitVec.ofNat 32 (o.toNat * 2 ^ (t.toNat % 32)) :=
    BitVec.eq_of_toNat_eq (by simp [Nat.shiftLeft_eq])
  rw [← low]; rfl

theorem shOp_srlw (o p t : Word) : shOp 14 o p t = (BitVec.ofNat 32 (o.toNat % 2 ^ 32 / 2 ^ (t.toNat % 32))).signExtend 64 := by
  have low : ((o.setWidth 32 >>> (t.toNat % 32)).setWidth 64).setWidth 32 = BitVec.ofNat 32 (o.toNat % 2 ^ 32 / 2 ^ (t.toNat % 32)) := by
    rw [BitVec.setWidth_setWidth_of_le _ (by decide), BitVec.setWidth_eq, ← Nat.shiftRight_eq_div_pow, ← BitVec.toNat_setWidth,
      ← BitVec.toNat_ushiftRight, BitVec.ofNat_toNat, BitVec.setWidth_eq]
  rw [← low]; rfl

theorem shOp_sraw (o p t : Word) : shOp 15 o p t = BitVec.ofInt 64 ((o.setWidth 32).toInt / 2 ^ (t.toNat % 32)) := by
  rw [← toInt_sshiftRight_eq_div]
  rfl

/-! ## Fields -/

theorem fieldLen_eq (t : Word) : fieldLen t = min (t.toNat / 256 % 128) (64 - t.toNat % 64) := by
  simp [fieldLen, bitsOf]

theorem bitsOf_lt (v lo w : Nat) : bitsOf v lo w < 2 ^ w := Nat.mod_lt _ (Nat.two_pow_pos w)

theorem signExt_of_lt {n v : Nat} (hv : v < 2 ^ n) : signExt n v = if 2 * v < 2 ^ n then (v : Int) else (v : Int) - 2 ^ n := by
  simp [signExt, Nat.mod_eq_of_lt hv]

theorem shOp_ext (o p t : Word) :
    shOp 5 o p t = BitVec.ofInt 64 (if 2 * bitsOf o.toNat (t.toNat % 64) (fieldLen t) < 2 ^ fieldLen t
      then (bitsOf o.toNat (t.toNat % 64) (fieldLen t) : Int) else (bitsOf o.toNat (t.toNat % 64) (fieldLen t) : Int) - 2 ^ fieldLen t) := by
  simp only [shOp, signExt_of_lt (bitsOf_lt ..)]
  split
  next hempty => simp [hempty, bitsOf, Nat.mod_one]
  next => rfl

theorem shOp_extz (o p t : Word) : shOp 6 o p t = BitVec.ofNat 64 (bitsOf o.toNat (t.toNat % 64) (fieldLen t)) := by
  simp only [shOp]
  split
  next hempty => simp [hempty, bitsOf, Nat.mod_one]
  next => rfl

/-- A number written as a low part, a field and a high part has the bits of each in its place. -/
theorem testBit_three_parts {hi field lo n pos : Nat} (hf : field < 2 ^ n) (hl : lo < 2 ^ pos) (k : Nat) :
    (2 ^ pos * (2 ^ n * hi + field) + lo).testBit k =
      if k < pos then lo.testBit k else if k < pos + n then field.testBit (k - pos) else hi.testBit (k - pos - n) := by
  rw [Nat.testBit_two_pow_mul_add _ hl, Nat.testBit_two_pow_mul_add _ hf]
  by_cases hlo : k < pos
  · rw [if_pos hlo, if_pos hlo]
  · have hin : (k - pos < n) = (k < pos + n) := propext (by omega)
    simp only [if_neg hlo, hin]

/-- The replacement of n bits from pos on, bit by bit. -/
theorem testBit_replaceField (v r pos n k : Nat) :
    (v - bitsOf v pos n * 2 ^ pos + r % 2 ^ n * 2 ^ pos).testBit k = if pos ≤ k ∧ k < pos + n then r.testBit (k - pos) else v.testBit k := by
  have hlow : v % 2 ^ pos < 2 ^ pos := Nat.mod_lt _ (Nat.two_pow_pos _)
  have hparts (field : Nat) (hf : field < 2 ^ n) := testBit_three_parts (hi := v / 2 ^ pos / 2 ^ n) hf hlow k
  have hv : v = 2 ^ pos * (2 ^ n * (v / 2 ^ pos / 2 ^ n) + bitsOf v pos n) + v % 2 ^ pos := by
    rw [bitsOf, Nat.div_add_mod, Nat.div_add_mod]
  have hnew : v - bitsOf v pos n * 2 ^ pos + r % 2 ^ n * 2 ^ pos = 2 ^ pos * (2 ^ n * (v / 2 ^ pos / 2 ^ n) + r % 2 ^ n) + v % 2 ^ pos := by
    rw [Nat.mul_add, Nat.mul_comm (r % 2 ^ n)]
    rw [Nat.mul_add, Nat.mul_comm (2 ^ pos) (bitsOf v pos n)] at hv
    omega
  have hold := hparts (bitsOf v pos n) (bitsOf_lt ..)
  rw [← hv] at hold
  rw [hnew, hparts _ (Nat.mod_lt _ (Nat.two_pow_pos _)), hold]
  by_cases hlo : k < pos
  · rw [if_pos hlo, if_pos hlo, if_neg (by omega)]
  · by_cases hin : k < pos + n
    · rw [if_neg hlo, if_pos hin, if_pos (by omega), Nat.testBit_mod_two_pow, decide_eq_true (by omega), Bool.true_and]
    · rw [if_neg hlo, if_neg hin, if_neg (by omega), if_neg hlo, if_neg hin]

theorem shOp_ins_getLsbD (o p t : Word) (k : Nat) (hk : k < 64) :
    (shOp 7 o p t).getLsbD k = if t.toNat % 64 ≤ k ∧ k < t.toNat % 64 + fieldLen t then p.getLsbD (k - t.toNat % 64) else o.getLsbD k := by
  simp only [shOp]
  split
  next hempty => rw [if_neg (by omega)]
  next =>
    rw [BitVec.getLsbD_ofNat, decide_eq_true hk, Bool.true_and, testBit_replaceField]
    rfl

/-! ## Counts -/

theorem leadingZeros_spec {n v : Nat} (hv : v < 2 ^ n) :
    leadingZeros n v ≤ n ∧ v < 2 ^ (n - leadingZeros n v) ∧ (leadingZeros n v < n → 2 ^ (n - 1 - leadingZeros n v) ≤ v) := by
  unfold leadingZeros
  split
  next hzero => simp [hzero]
  next hne =>
    have hlog : Nat.log2 v < n := (Nat.log2_lt hne).mpr hv
    refine ⟨by omega, ?_, fun _ => ?_⟩
    · rw [show n - (n - 1 - Nat.log2 v) = Nat.log2 v + 1 by omega]
      exact Nat.lt_log2_self
    · rw [show n - 1 - (n - 1 - Nat.log2 v) = Nat.log2 v by omega]
      exact Nat.log2_self_le hne

theorem trailingZeros_spec (n v : Nat) :
    trailingZeros n v ≤ n ∧ v % 2 ^ trailingZeros n v = 0 ∧ (trailingZeros n v < n → v.testBit (trailingZeros n v) = true) := by
  induction n generalizing v with
  | zero => simp [trailingZeros, Nat.mod_one]
  | succ n ih =>
    obtain ⟨hle, hmod, hbit⟩ := ih (v / 2)
    by_cases hodd : v % 2 = 1
    · simp [trailingZeros, hodd, Nat.mod_one]
    · rw [trailingZeros, if_neg hodd, Nat.add_comm 1]
      refine ⟨by omega, ?_, fun hlt => ?_⟩
      · rw [Nat.pow_succ', Nat.mod_mul, hmod]
        omega
      · rw [Nat.testBit_succ]
        exact hbit (by omega)

theorem onesIn_eq_count (n v : Nat) : onesIn n v = ((List.range n).filter (fun k => v.testBit k)).length := by
  induction n generalizing v with
  | zero => rfl
  | succ n ih =>
    have hshift : ((fun k => v.testBit k) ∘ Nat.succ) = fun k => (v / 2).testBit k := funext fun k => Nat.testBit_succ v k
    rw [onesIn, ih, List.range_succ_eq_map, List.filter_cons, List.filter_map, hshift]
    obtain heven | hodd := Nat.mod_two_eq_zero_or_one v
    · simp [heven]
    · simp [hodd, Nat.add_comm]

/-! ## Reversals -/

/-- The first n digits of v in base b in reverse order: sh.brev reverses 64 bits and sh.bswap 8 bytes. -/
def reverseDigits (b : Nat) : Nat → Nat → Nat
  | 0, _ => 0
  | n + 1, v => (v % b) * b ^ n + reverseDigits b n (v / b)

theorem reverseBits_eq (n v : Nat) : reverseBits n v = reverseDigits 2 n v := by
  induction n generalizing v with
  | zero => rfl
  | succ n ih => rw [reverseBits, reverseDigits, ih]

theorem reverseBytes_eq (n v : Nat) : reverseBytes n v = reverseDigits 256 n v := by
  induction n generalizing v with
  | zero => rfl
  | succ n ih => rw [reverseBytes, reverseDigits, ih]

theorem reverseDigits_lt {b : Nat} (hb : 0 < b) (n v : Nat) : reverseDigits b n v < b ^ n := by
  induction n generalizing v with
  | zero => simp [reverseDigits]
  | succ n ih =>
    calc (v % b) * b ^ n + reverseDigits b n (v / b) < (v % b) * b ^ n + b ^ n := Nat.add_lt_add_left (ih _) _
      _ = (v % b + 1) * b ^ n := (Nat.succ_mul ..).symm
      _ ≤ b * b ^ n := Nat.mul_le_mul_right _ (Nat.mod_lt v hb)
      _ = b ^ (n + 1) := Nat.pow_succ'.symm

theorem reverseDigits_digit {b : Nat} (hb : 0 < b) {n k : Nat} (v : Nat) (hk : k < n) :
    reverseDigits b n v / b ^ k % b = v / b ^ (n - 1 - k) % b := by
  induction n generalizing v with
  | zero => omega
  | succ n ih =>
    rw [reverseDigits]
    obtain rfl | hlt : k = n ∨ k < n := by omega
    · rw [Nat.mul_comm, Nat.mul_add_div (Nat.pow_pos hb), Nat.div_eq_of_lt (reverseDigits_lt hb ..)]
      simp
    · obtain ⟨j, rfl⟩ : ∃ j, n = k + (j + 1) := ⟨n - k - 1, by omega⟩
      have hsplit : v % b * b ^ (k + (j + 1)) = b ^ k * (b * (v % b * b ^ j)) := by
        rw [Nat.pow_add, Nat.pow_succ', Nat.mul_left_comm, Nat.mul_left_comm (v % b)]
      rw [hsplit, Nat.mul_add_div (Nat.pow_pos hb), Nat.mul_add_mod, ih _ hlt, Nat.div_div_eq_div_mul, ← Nat.pow_succ']
      congr 3
      omega

theorem reverseBits_testBit {n k : Nat} (v : Nat) (hk : k < n) : (reverseBits n v).testBit k = v.testBit (n - 1 - k) := by
  rw [Nat.testBit_eq_decide_div_mod_eq, Nat.testBit_eq_decide_div_mod_eq, reverseBits_eq, reverseDigits_digit (by decide) v hk]

theorem shOp_brev_getLsbD (o p t : Word) (k : Nat) (hk : k < 64) : (shOp 11 o p t).getLsbD k = t.getLsbD (63 - k) := by
  simp only [shOp]
  rw [BitVec.getLsbD_ofNat, decide_eq_true hk, Bool.true_and, reverseBits_testBit _ hk]
  rfl

theorem reverseBytes_lt (n v : Nat) : reverseBytes n v < 2 ^ (8 * n) := by
  rw [reverseBytes_eq, Nat.pow_mul]
  exact reverseDigits_lt (by decide) n v

theorem reverseBytes_byte {n k : Nat} (v : Nat) (hk : k < n) :
    reverseBytes n v / 2 ^ (8 * k) % 2 ^ 8 = v / 2 ^ (8 * (n - 1 - k)) % 2 ^ 8 := by
  rw [reverseBytes_eq, Nat.pow_mul, Nat.pow_mul]
  exact reverseDigits_digit (by decide) v hk

theorem shOp_bswap_byte (o p t : Word) (k : Nat) (hk : k < 8) :
    (shOp 12 o p t).extractLsb' (8 * k) 8 = t.extractLsb' (8 * (7 - k)) 8 := by
  apply BitVec.eq_of_toNat_eq
  simp only [shOp]
  rw [BitVec.extractLsb'_toNat, BitVec.extractLsb'_toNat, BitVec.toNat_ofNat, Nat.mod_eq_of_lt (reverseBytes_lt 8 _),
    Nat.shiftRight_eq_div_pow, Nat.shiftRight_eq_div_pow, reverseBytes_byte _ hk]

/-- Settles O6: each operation's value, by its bits where the rule gives bits. -/
theorem shiftResults : Obligations.ShiftResults := by
  intro s c i m h o p t a aw pos len field res
  have hlen : fieldLen t = len := fieldLen_eq t
  have hext := shOp_ext o p t
  have hextz := shOp_extz o p t
  have hins := shOp_ins_getLsbD o p t
  rw [hlen] at hext hextz hins
  exact ⟨runLone_sh h 0x140 rfl (shOp_sll ..), runLone_sh h 0x141 rfl (shOp_srl ..), runLone_sh h 0x142 rfl (shOp_sra ..),
    ⟨_, runLone_sh h 0x143 rfl rfl, shOp_rotl_getLsbD o p t⟩, ⟨_, runLone_sh h 0x144 rfl rfl, shOp_rotr_getLsbD o p t⟩,
    runLone_sh h 0x145 rfl hext, runLone_sh h 0x146 rfl hextz, ⟨_, runLone_sh h 0x147 rfl rfl, hins⟩,
    ⟨_, runLone_sh h 0x148 rfl rfl, leadingZeros_spec t.isLt⟩, ⟨_, runLone_sh h 0x149 rfl rfl, trailingZeros_spec 64 t.toNat⟩,
    runLone_sh h 0x14A rfl (congrArg (BitVec.ofNat 64) (onesIn_eq_count 64 t.toNat)),
    ⟨_, runLone_sh h 0x14B rfl rfl, shOp_brev_getLsbD o p t⟩, ⟨_, runLone_sh h 0x14C rfl rfl, shOp_bswap_byte o p t⟩,
    runLone_sh h 0x14D rfl (shOp_sllw ..), runLone_sh h 0x14E rfl (shOp_srlw ..), runLone_sh h 0x14F rfl (shOp_sraw ..)⟩

end Sys2Proof.Proofs.Scalar
end

section
/-! SUPPORT. The br unit (05 R98, R99). -/

namespace Sys2Proof.Proofs.Control

open Sys2Proof Sys2Proof.Machine

/-- The trap of a lone word's fault: INFO names the trigger, but for the fault that sys.trap raises (14 R353). -/
theorem trap_withInfo (s : State) (c i : Nat) (m : Lone) (d : BitVec 14) {code : Nat} {addr : Option Word} (hcode : code ≠ cSoftware) :
    s.trap c i (withInfo ⟨code, 0, addr, 0⟩ (loneMove s c i m d)) false (s.slot c i).pc (pairWord (m.to d) Move.nop)
      = s.loneTrap c i m d code addr := by
  rw [withInfo, if_neg hcode]
  rfl

/-! ## What brOp leaves -/

section
variable {cx : ImmCtx} {k : Nat} {o t : Word} (sl : Slot)

theorem brOp_taken (htaken : brTaken k t = true) {v : Int} (hv : brTarget k cx.here o t = v) (hok : 0 ≤ v ∧ v < 2 ^ 40 ∧ v % 8 = 0) :
    brOp cx k o t sl =
      .ok ({ (if k = 2 ∨ k = 3 then sl.writeX 30 cx.next else sl) with pc := BitVec.ofInt 64 v }.setRes rBr (brResult k cx.next t)) := by
  subst hv
  obtain ⟨hlow, hhigh, haligned⟩ := hok
  simp only [brOp, htaken, if_true]
  rw [if_neg (by omega), if_neg (not_not_intro haligned)]

theorem brOp_not_taken (htaken : brTaken k t = false) : brOp cx k o t sl = .ok (sl.setRes rBr (brResult k cx.next t)) := by
  simp only [brOp, htaken, Bool.false_eq_true, if_false]

/-- The range of a target is checked before its alignment. -/
theorem brOp_fault (htaken : brTaken k t = true) {v : Int} (hv : brTarget k cx.here o t = v) (hbad : v < 0 ∨ 2 ^ 40 ≤ v ∨ v % 8 ≠ 0) :
    brOp cx k o t sl = .error (faultAt (if v < 0 ∨ 2 ^ 40 ≤ v then cSegLimit else cMisaligned) (BitVec.ofInt 64 v)) := by
  subst hv
  simp only [brOp, htaken, if_true]
  by_cases hrange : brTarget k cx.here o t < 0 ∨ 2 ^ 40 ≤ brTarget k cx.here o t
  · rw [if_pos hrange, if_pos hrange]
  · rw [if_neg hrange, if_neg hrange, if_pos (by omega)]

end

/-! ## Lone words of the unit -/

theorem isTrigger_of_block {d : BitVec 14} (hd : 4 ≤ blockOf d ∧ blockOf d < 0x20) : isTrigger d = true := by
  simp only [blockOf] at hd
  simp only [isTrigger, Bool.and_eq_true, decide_eq_true_eq]
  omega

/-- The units before sys have no operation for handlers alone. -/
theorem needsHandler_of_block {d : BitVec 14} (hd : 4 ≤ blockOf d ∧ blockOf d < 0x13) : needsHandler d = false := by
  simp only [blockOf] at hd
  simp only [needsHandler, Bool.or_eq_false_iff, Bool.and_eq_false_iff, decide_eq_false_iff_not]
  omega

theorem isImmediate_br {d : BitVec 14} (hd : blockOf d = 0xA) : isImmediate (blockOf d) = true := by
  rw [hd]; rfl

theorem immOp_br {d : BitVec 14} (hd : blockOf d = 0xA) (cx : ImmCtx) (t : Word) (sl : Slot) :
    immOp cx d t sl = brOp cx (opOf d) (sl.operand 0x47) t sl := by
  simp only [immOp, hd]

section
variable {s : State} {c i : Nat} {m : Lone} (h : LoneReady s c i m) (d : BitVec 14) (hd : blockOf d = 0xA)
include h hd

/-- A taken branch retires at its target, with the link in x30 where it is a call. -/
theorem runLone_br_taken (htaken : brTaken (opOf d) (s.loneValue c i m) = true) {v : Int}
    (hv : brTarget (opOf d) (s.slot c i).pc ((s.slot c i).operand 0x47) (s.loneValue c i m) = v) (hok : 0 ≤ v ∧ v < 2 ^ 40 ∧ v % 8 = 0) :
    runLone d m s = .next (s.retires c i
      ({ (if opOf d = 2 ∨ opOf d = 3 then (s.slot c i).writeX 30 ((s.slot c i).pc + 8) else s.slot c i) with pc := BitVec.ofInt 64 v }.setRes rBr
        (brResult (opOf d) ((s.slot c i).pc + 8) (s.loneValue c i m)))) := by
  have hop := (immOp_br hd (s.immCtx c i (s.slot c i).pc ((s.slot c i).pc + 8)) (s.loneValue c i m) (s.stepped c i)).trans
    (brOp_taken (s.stepped c i) htaken hv hok)
  by_cases hcall : opOf d = 2 ∨ opOf d = 3
  · rw [if_pos hcall] at hop ⊢
    exact runLone_immediate d _ h (isTrigger_of_block (by omega)) (isImmediate_br hd) (needsHandler_of_block (by omega)) hop h.unstopped h.unparked
  · rw [if_neg hcall] at hop ⊢
    exact runLone_immediate d _ h (isTrigger_of_block (by omega)) (isImmediate_br hd) (needsHandler_of_block (by omega)) hop h.unstopped h.unparked

theorem runLone_br_not_taken (htaken : brTaken (opOf d) (s.loneValue c i m) = false) :
    runLone d m s = .next (s.loneResult c i rBr (brResult (opOf d) ((s.slot c i).pc + 8) (s.loneValue c i m))) :=
  runLone_immediate d _ h (isTrigger_of_block (by omega)) (isImmediate_br hd) (needsHandler_of_block (by omega))
    ((immOp_br hd ..).trans (brOp_not_taken (s.stepped c i) htaken)) h.unstopped h.unparked

/-- A taken branch to a bad target traps on the state as it was, with the target in ADDR (02 R59). -/
theorem runLone_br_fault (htaken : brTaken (opOf d) (s.loneValue c i m) = true) {v : Int}
    (hv : brTarget (opOf d) (s.slot c i).pc ((s.slot c i).operand 0x47) (s.loneValue c i m) = v) (hbad : v < 0 ∨ 2 ^ 40 ≤ v ∨ v % 8 ≠ 0) :
    runLone d m s = .next (s.loneTrap c i m d (if v < 0 ∨ 2 ^ 40 ≤ v then cSegLimit else cMisaligned) (some (BitVec.ofInt 64 v))) := by
  have hop := (immOp_br hd (s.immCtx c i (s.slot c i).pc ((s.slot c i).pc + 8)) (s.loneValue c i m) (s.stepped c i)).trans
    (brOp_fault (s.stepped c i) htaken hv hbad)
  have hcode : (if v < 0 ∨ 2 ^ 40 ≤ v then cSegLimit else cMisaligned) ≠ cSoftware := by split <;> decide
  exact (runLone_immediate_fault d _ h (isTrigger_of_block (by omega)) (isImmediate_br hd) (needsHandler_of_block (by omega)) hop).trans
    (congrArg Host.Outcome.next (trap_withInfo s c i m d hcode))

end

theorem brLoop_taken {t : Word} (ht : t ≠ 0) : brTaken 4 t = true := bne_iff_ne.mpr ht

theorem branchResults : Parts.BranchResults := by
  intro s c i m h o t here next ok rel go
  refine ⟨fun hok => ⟨?_, ?_⟩, fun hok => ⟨?_, ?_⟩, fun ht hok => ?_, fun ht => ?_⟩
  · exact runLone_br_taken h 0x280 rfl rfl rfl hok
  · exact runLone_br_taken h 0x282 rfl rfl rfl hok
  · exact runLone_br_taken h 0x281 rfl rfl rfl hok
  · exact runLone_br_taken h 0x283 rfl rfl rfl hok
  · exact runLone_br_taken h 0x284 rfl (brLoop_taken ht) rfl hok
  · have hresult : brResult 4 next t = -1 := by rw [ht]; rfl
    rw [← hresult]
    exact runLone_br_not_taken h 0x284 rfl (bne_eq_false_iff_eq.mpr ht)

theorem branchFaults : Parts.BranchFaults := by
  intro s c i m h o t here rel code bad trap
  exact ⟨fun hbad => ⟨runLone_br_fault h 0x280 rfl rfl rfl hbad, runLone_br_fault h 0x282 rfl rfl rfl hbad⟩,
    fun hbad => ⟨runLone_br_fault h 0x281 rfl rfl rfl hbad, runLone_br_fault h 0x283 rfl rfl rfl hbad⟩,
    fun ht hbad => runLone_br_fault h 0x284 rfl (brLoop_taken ht) rfl hbad⟩

/-- Settles O10: a branch ends in one of three ways, each a lemma about a lone word of the unit. -/
theorem branches : Obligations.Branches := ⟨branchResults, branchFaults⟩

end Sys2Proof.Proofs.Control
end

section
/-! SUPPORT. A word in flight while other strands' words retire: a write to memory can serve accesses that wait, and their strands go on (07 R156, R175), but
the strand in the pipeline keeps its slot. -/

namespace Sys2Proof.Proofs.Control

open Sys2Proof Sys2Proof.Machine

/-! ## Operations that change no strand -/

/-- The word in the pipeline and the slots of every core are the same. -/
structure SameStrands (s t : State) : Prop where
  current : t.current = s.current
  slot : ∀ c i, t.slot c i = s.slot c i

namespace SameStrands

theorem refl (s : State) : SameStrands s s := ⟨rfl, fun _ _ => rfl⟩

theorem trans {s t u : State} (h : SameStrands s t) (h' : SameStrands t u) : SameStrands s u :=
  ⟨h'.current.trans h.current, fun c i => (h'.slot c i).trans (h.slot c i)⟩

/-- The slots depend on nothing but the cores. -/
theorem of_cores {s t : State} (hcurrent : t.current = s.current) (hcores : t.cores = s.cores) : SameStrands s t :=
  ⟨hcurrent, fun c i => by simp only [State.slot, State.core, hcores]⟩

theorem ite {s t u : State} {p : Prop} [Decidable p] (ht : SameStrands s t) (hu : SameStrands s u) : SameStrands s (if p then t else u) := by
  split
  · exact ht
  · exact hu

theorem foldl {α : Type} {f : State → α → State} (hf : ∀ s x, SameStrands s (f s x)) (l : List α) (s : State) : SameStrands s (l.foldl f s) :=
  List.foldlRecOn l f (refl s) fun _ h x _ => h.trans (hf _ x)

theorem setCore (s : State) (c : Nat) {k : Core} (hk : k.slots = (s.core c).slots) : SameStrands s (s.setCore c k) := by
  refine ⟨rfl, fun d i => ?_⟩
  by_cases hd : d = c
  · subst hd
    simp only [State.slot, State.setCore_core, Core.slot, hk]
  · simp only [State.slot, State.setCore_core_ne _ _ _ _ hd]

theorem push (s : State) (e : Event) : SameStrands s (s.push e) := of_cores rfl rfl

theorem setStack (s : State) (n : Nat) (k : Stack) : SameStrands s (s.setStack n k) := of_cores rfl rfl

theorem emit (s : State) (o : Output) : SameStrands s (s.emit o) := of_cores rfl rfl

theorem setBacks (s : State) (l : List LateWrite) : SameStrands s { s with backs := l } := of_cores rfl rfl

theorem setMemory (s : State) (m : Mem) : SameStrands s { s with memory := m } := of_cores rfl rfl

theorem pushOnce (s : State) (e : Event) : SameStrands s (s.pushOnce e) := ite (refl s) (push s e)

theorem delay (s : State) (n : Nat) (d : Delayed) : SameStrands s (s.delay n d) := of_cores rfl rfl

theorem noteActivity (s : State) (l : Nat) : SameStrands s (s.noteActivity l) := of_cores rfl rfl

theorem leaving (s : State) (c i : Nat) : SameStrands s (s.leaving c i) := ite (noteActivity s _) (refl s)

theorem answerStops (s : State) (c i : Nat) : SameStrands s (s.answerStops c i) :=
  (ite (pushOnce s _) (refl s)).trans (foldl (fun s _ => push s _) _ _)

theorem checkSaved (s : State) (c : Nat) : SameStrands s (s.checkSaved c) := ite (push s _) (refl s)

theorem leaveLine (s : State) (c i : Nat) : SameStrands s (s.leaveLine c i) := setCore s c rfl

theorem trace (s : State) (cl kind part : Nat) (ws : List Word) : SameStrands s (s.trace cl kind part ws).1 := by
  simp only [State.trace]
  split
  · exact refl s
  · split <;> exact of_cores rfl rfl

theorem traceStrand (s : State) (c i kind len : Nat) (ws : List Word) : SameStrands s (s.traceStrand c i kind len ws).1 := trace ..

theorem holdAgain (s : State) (ctrl : Ctrl) (r : Retry) : SameStrands s (s.holdAgain ctrl r) := of_cores rfl rfl

theorem noteFreed (s : State) (ctrl : Ctrl) (r r' : Retry) : SameStrands s (s.noteFreed ctrl r r') := ite (refl s) (holdAgain ..)

theorem detect (s : State) (n : Nat) (r : Repair) : SameStrands s (s.detect n r) :=
  ite (refl s) ((setStack s n _).trans (pushOnce _ _))

theorem countStack (s : State) (p n : Nat) : SameStrands s (s.countStack p n) :=
  (of_cores rfl rfl : SameStrands s (s.countOnly p n)).trans (foldl (fun s _ => detect s _ _) _ _)

theorem countAt (s : State) (ctrl : Ctrl) (a : Access) : SameStrands s (s.countAt ctrl a) := by
  cases ctrl with
  | core c => exact setCore s c rfl
  | _ => exact countStack ..

theorem acquire (s : State) (c scope : Nat) : SameStrands s (s.acquire c scope) := ite (refl s) (setCore s c rfl)

theorem acquireAfter (s : State) (c : Nat) (m : Word) (space : Nat) : SameStrands s (s.acquireAfter c m space) :=
  (ite (acquire ..) (refl s)).trans (ite (acquire ..) (refl _))

theorem dropWords (s : State) (c part va : Nat) (mask : BitVec 8) : SameStrands s (s.dropWords c part va mask) := setCore s c rfl

theorem logWrite (s : State) (c part va : Nat) : SameStrands s (s.logWrite c part va) := by
  refine ite (refl s) (ite ((setCore s c ?_).trans (push ..)) (setCore s c ?_)) <;> rfl

end SameStrands

/-- What a function keeps of every entry of a table, it keeps of what the table gives. -/
theorem table_get_map {α β : Type} (d : α) {f : α → α} {g : α → β} (hf : ∀ v, g (f v) = g v) (t : Table α) (k : Nat) :
    g (Table.get d (t.map (fun e => (e.1, f e.2))) k) = g (Table.get d t k) := by
  induction t with
  | nil => rfl
  | cons e t ih =>
    simp only [List.map_cons, Table.get]
    split
    · exact hf _
    · exact ih

namespace SameStrands

theorem flushTlb (s : State) (part va size : Nat) : SameStrands s (s.flushTlb part va size) :=
  ⟨rfl, fun c i => congrArg (Table.get Slot.free · i) (table_get_map Core.idle (g := Core.slots) (f := fun k => { k with lines := k.lines.map (fun l =>
    if l.part = part ∧ va ≤ l.va ∧ l.va < va + size then { l with wok := false } else l) }) (fun _ => rfl) s.cores c)⟩

theorem updateLeaf (s : State) (part va : Nat) (f : Word → Word) : SameStrands s (s.updateLeaf part va f) := by
  simp only [State.updateLeaf]
  split
  · exact refl s
  · exact (setMemory s _).trans (flushTlb ..)

theorem setDirtyBit (s : State) (part va : Nat) : SameStrands s (s.setDirtyBit part va) := updateLeaf ..

end SameStrands

/-! ## The commit of a word enters no wait by itself -/

theorem writeSpecial_park (sl : Slot) (n : Nat) (v : Word) : (sl.writeSpecial n v).park = sl.park := by
  simp only [Slot.writeSpecial]
  repeat' split
  all_goals rfl

theorem writeX_park (sl : Slot) (n : Nat) (v : Word) : (sl.writeX n v).park = sl.park := by
  unfold Slot.writeX
  split <;> rfl

theorem writeG_park (sl : Slot) (n : Nat) (v : Word) : (sl.writeG n v).park = sl.park := by
  unfold Slot.writeG
  split <;> rfl

theorem writeDst_park (sl : Slot) (d : BitVec 14) (v : Word) : (sl.writeDst d v).park = sl.park := by
  simp only [Slot.writeDst]
  split
  · exact writeX_park ..
  · split
    · exact writeG_park ..
    · split
      · rfl
      · split
        · exact writeSpecial_park ..
        · rfl

theorem writeMoves_park (sl : Slot) (ms : List MoveVal) : (sl.writeMoves ms).park = sl.park := by
  simp only [Slot.writeMoves]
  generalize List.filter _ _ ++ List.filter _ _ = l
  induction l generalizing sl with
  | nil => rfl
  | cons m l ih => exact (ih _).trans (writeDst_park ..)

theorem later_park (sl : Slot) (r : Nat) (v : Word) (fl : BitVec 5) (due now : Nat) : (sl.later r v fl due now).park = sl.park := by
  simp only [Slot.later, Slot.deliver]
  repeat' split
  all_goals rfl

theorem brOp_park {cx : ImmCtx} {k : Nat} {o t : Word} {sl sl' : Slot} (hop : brOp cx k o t sl = .ok sl') : sl'.park = sl.park := by
  cases htaken : brTaken k t with
  | false =>
    rw [brOp_not_taken sl htaken] at hop
    exact (Except.ok.inj hop) ▸ rfl
  | true =>
    by_cases hok : 0 ≤ brTarget k cx.here o t ∧ brTarget k cx.here o t < 2 ^ 40 ∧ brTarget k cx.here o t % 8 = 0
    · rw [brOp_taken sl htaken rfl hok] at hop
      rw [← Except.ok.inj hop]
      simp only [Slot.setRes_park_eq]
      split
      · exact writeX_park ..
      · rfl
    · rw [brOp_fault sl htaken rfl (by omega)] at hop
      cases hop

theorem fltOp_park {cx : ImmCtx} {k : Nat} {t : Word} {sl sl' : Slot} (hop : fltOp cx k t sl = .ok sl') : sl'.park = sl.park := by
  simp only [fltOp] at hop
  split at hop
  · cases hop
  · split at hop
    · exact Except.ok.inj hop ▸ later_park ..
    · exact Except.ok.inj hop ▸ rfl

theorem immOp_park {cx : ImmCtx} {d : BitVec 14} {t : Word} {sl sl' : Slot} (hop : immOp cx d t sl = .ok sl') : sl'.park = sl.park := by
  simp only [immOp] at hop
  split at hop
  case h_4 => exact Except.ok.inj hop ▸ later_park ..
  case h_7 => exact brOp_park hop
  case h_8 => exact fltOp_park hop
  all_goals exact Except.ok.inj hop ▸ rfl

theorem immMoves_park {cx : ImmCtx} {ms : List MoveVal} {sl sl' : Slot} (hop : immMoves cx ms sl = .ok sl') : sl'.park = sl.park := by
  induction ms generalizing sl with
  | nil => exact Except.ok.inj hop ▸ rfl
  | cons m ms ih =>
    simp only [immMoves] at hop
    split at hop
    next h => exact (ih hop).trans (immOp_park h)
    next => cases hop

theorem commitSlot_park {s : State} {c i : Nat} {ms : List MoveVal} {here next : Word} {sl : Slot} (hcommit : s.commitSlot c i ms here next = .ok sl) :
    sl.park = (s.slot c i).park := (immMoves_park hcommit).trans (writeMoves_park ..)

theorem deliverAccess_park (d : BitVec 14) (sl : Slot) (v : Nat) (fl : FFlags) : (deliverAccess d sl v fl).park = sl.park := by
  simp only [deliverAccess]
  repeat' split
  all_goals rfl

/-! ## The strand in flight -/

/-- The strand of slot i of core c is in the pipeline with slot sl, its word is not held, and no strand whose word is held is in a wait. -/
structure InFlight (c i : Nat) (sl : Slot) (s : State) : Prop where
  current : s.current = some (c, i)
  slot : s.slot c i = sl
  unheld : sl.held = none
  apart : heldApart s

theorem setSlot_slot_other (s : State) {c i d j : Nat} (v : Slot) (hne : (d, j) ≠ (c, i)) : (s.setSlot d j v).slot c i = s.slot c i := by
  by_cases hc : c = d
  · subst hc
    exact State.setSlot_slot_ne _ _ _ _ _ fun hi => hne (by rw [hi])
  · exact State.setSlot_slot_core _ _ _ _ _ _ hc

theorem heldApart_setSlot {s : State} (h : heldApart s) (c i : Nat) {v : Slot} (hv : v.held ≠ none → v.park = none) : heldApart (s.setSlot c i v) := by
  intro d j
  by_cases heq : (c, i) = (d, j)
  · obtain ⟨rfl, rfl⟩ := Prod.mk.inj heq
    rw [State.setSlot_slot]
    exact hv
  · rw [setSlot_slot_other s v heq]
    exact h d j

namespace InFlight

variable {c i d j : Nat} {sl : Slot} {s t : State}

theorem same (h : InFlight c i sl s) (hst : SameStrands s t) : InFlight c i sl t :=
  ⟨hst.current.trans h.current, (hst.slot c i).trans h.slot, h.unheld, fun d j => by rw [hst.slot d j]; exact h.apart d j⟩

theorem foldl {α : Type} {f : State → α → State} (hf : ∀ s x, InFlight c i sl s → InFlight c i sl (f s x)) (l : List α) (h : InFlight c i sl s) :
    InFlight c i sl (l.foldl f s) :=
  List.foldlRecOn l f h fun s h x _ => hf s x h

theorem setSlot (h : InFlight c i sl s) (hne : (d, j) ≠ (c, i)) {v : Slot} (hv : v.held ≠ none → v.park = none) :
    InFlight c i sl (s.setSlot d j v) :=
  ⟨h.current, (setSlot_slot_other s v hne).trans h.slot, h.unheld, heldApart_setSlot h.apart d j hv⟩

/-- A strand whose word is held is another one. -/
theorem ne_of_held (h : InFlight c i sl s) {w : HeldWord} (hw : (s.slot d j).held = some w) : (d, j) ≠ (c, i) := by
  intro heq
  obtain ⟨rfl, rfl⟩ := Prod.mk.inj heq
  rw [h.slot, h.unheld] at hw
  cases hw

/-- The retirement of another strand's word leaves the one in flight current. -/
theorem clearCurrent (h : InFlight c i sl s) (hne : (d, j) ≠ (c, i)) :
    InFlight c i sl { s with current := if s.current = some (d, j) then none else s.current } := by
  have hcur : ¬ s.current = some (d, j) := by rw [h.current]; exact fun e => hne (Option.some.inj e).symm
  rw [if_neg hcur]
  exact h

theorem leavePipe (h : InFlight c i sl s) (hne : (d, j) ≠ (c, i)) {v : Slot} (hv : v.held = none) :
    InFlight c i sl { s.setSlot d j v with current := if s.current = some (d, j) then none else s.current } :=
  (h.setSlot hne fun hheld => absurd hv hheld).clearCurrent hne

theorem enterTrap (h : InFlight c i sl s) (hne : (d, j) ≠ (c, i)) (f : FaultInfo) (b : Bool) (pc word : Word) :
    InFlight c i sl (s.enterTrap d j f b pc word) := by
  have hleft := h.same (.leaving s d j)
  exact (hleft.leavePipe hne rfl).same (.traceStrand ..)

theorem trap (h : InFlight c i sl s) (hne : (d, j) ≠ (c, i)) (f : FaultInfo) (b : Bool) (pc word : Word) :
    InFlight c i sl (s.trap d j f b pc word) := by
  have hin := h.enterTrap hne f b pc word
  simp only [State.trap]
  split
  · refine ((hin.setSlot hne ?_).same (.answerStops ..)).same (.checkSaved ..)
    exact hin.apart d j
  · refine ((hin.same (.setCore _ d ?_)).same (.push ..)).same (.answerStops ..)
    rfl

theorem leaveWait_of_unparked (hp : (s.slot d j).park = none) : s.leaveWait d j = s := by
  simp only [State.leaveWait, hp]

theorem toStopped (h : InFlight c i sl s) (hne : (d, j) ≠ (c, i)) (hp : (s.slot d j).park = none) : InFlight c i sl (s.toStopped d j) := by
  have hleft : SameStrands s (s.leaving d j) := .leaving s d j
  simp only [State.toStopped]
  rw [leaveWait_of_unparked ((congrArg Slot.park (hleft.slot d j)).trans hp)]
  exact ((((h.same hleft).leavePipe hne rfl).same (.leaveLine ..)).same (.answerStops ..)).same (.checkSaved ..)

theorem settle (h : InFlight c i sl s) (hne : (d, j) ≠ (c, i)) (hp : (s.slot d j).park = none) (here word : Word) (stepped : Bool) :
    InFlight c i sl (s.settle d j here word stepped) := by
  unfold State.settle
  extract_lets v u _ _ noted _ stopped
  have hleft : InFlight c i sl u := h.clearCurrent hne
  split
  · have hnoted : InFlight c i sl noted := by
      simp only [noted]
      rw [leaveWait_of_unparked (by rw [State.setSlot_slot]; exact hp)]
      exact InFlight.setSlot hleft hne fun _ => hp
    have hstopped : InFlight c i sl stopped := InFlight.setSlot hnoted hne fun _ => rfl
    exact hstopped.trap hne ..
  · split
    · exact hleft.toStopped hne hp
    · simp only [v, hp]
      refine hleft.setSlot hne ?_
      exact fun hv => absurd rfl hv

/-- The held word of another strand retires. -/
theorem finishHeld (h : InFlight c i sl s) (hne : (d, j) ≠ (c, i)) (w : HeldWord) {f : MoveVal → Slot → Slot} (hf : ∀ m v, (f m v).park = v.park)
    (hp : (s.slot d j).park = none) : InFlight c i sl (s.finishHeld d j w f) := by
  simp only [State.finishHeld]
  split
  next m v _ hcommit =>
    have hpark : (f m v).park = none := (hf m v).trans ((commitSlot_park hcommit).trans hp)
    refine (h.setSlot hne ?_).settle hne ?_ ..
    · exact fun hv => absurd rfl hv
    · rw [State.setSlot_slot]
      exact hpark
  next => exact h

theorem faultHeld (h : InFlight c i sl s) (hne : (d, j) ≠ (c, i)) (w : HeldWord) (f : FaultInfo) : InFlight c i sl (s.faultHeld d j w f) := by
  simp only [State.faultHeld]
  split
  · exact h.trap hne ..
  · exact h

/-- The waiting access of a strand has been performed: its strand is another one, or has none. -/
theorem finishAccess (h : InFlight c i sl s) (d j : Nat) (r : Option (Nat × FFlags)) : InFlight c i sl (s.finishAccess d j r) := by
  unfold State.finishAccess
  split
  next => exact h
  next w hw =>
    have hne := h.ne_of_held hw
    have hp := h.apart d j (by rw [hw]; exact Option.some_ne_none w)
    split
    next => exact h
    next =>
      split
      next => exact h.faultHeld hne ..
      next =>
        extract_lets _ _ _ _ _ _ _ _ s₁ s₂ s₃ s₄
        split
        next => exact h.setSlot hne fun _ => hp
        next =>
          have h₁ : SameStrands s s₁ := .ite (.logWrite ..) (.refl s)
          have h₂ : SameStrands s₁ s₂ := by
            simp only [s₂]
            split
            · exact .ite (.setDirtyBit ..) (.refl _)
            · exact .refl _
          have h₃ : SameStrands s₂ s₃ := .ite (.dropWords ..) (.refl _)
          have hsame : SameStrands s s₄ := ((h₁.trans h₂).trans h₃).trans (.acquireAfter ..)
          refine ((h.same hsame).finishHeld hne w ?_ ?_).same (.noteActivity ..)
          · exact fun m v => deliverAccess_park ..
          · rw [hsame.slot d j]
            exact hp

/-! ### Writes of the line cache -/

theorem answerServed (h : InFlight c i sl s) (ctrl : Ctrl) (l : List Served) : InFlight c i sl (s.answerServed ctrl l) := by
  refine foldl (fun s x h => ?_) l h
  have hcounted : SameStrands s (if x.2.isNone then s.countAt ctrl x.1.acc else s) := .ite (.countAt ..) (.refl s)
  simp only
  split
  · exact (h.same hcounted).finishAccess ..
  · exact ((h.same hcounted).same (.ite (.setDirtyBit ..) (.refl _))).same (.emit ..)

theorem serveStack (h : InFlight c i sl s) (n : Nat) (r : Retry) : InFlight c i sl (s.serveStack n r) :=
  (answerServed (h.same ((SameStrands.setStack s n _).trans (.setMemory _ _))) _ _).same (.noteFreed ..)

theorem cancelDiscard (h : InFlight c i sl s) (part va : Nat) : InFlight c i sl (s.cancelDiscard part va) := by
  simp only [State.cancelDiscard]
  split
  · exact h
  · split
    · exact foldl (fun s e h => h.serveStack ..) _ ((h.same (.setMemory ..)).same (.updateLeaf ..))
    · exact h

theorem lateWrite (h : InFlight c i sl s) (w : LateWrite) : InFlight c i sl (s.lateWrite w) := by
  simp only [State.lateWrite]
  split
  · exact h
  · split
    · exact h
    · split
      · exact (h.same (.setBacks ..)).same (.pushOnce ..)
      · split
        · exact h.same (.delay ..)
        · exact (h.cancelDiscard ..).same (.setMemory ..)

theorem writeBack (h : InFlight c i sl s) (l : CacheLine) : InFlight c i sl (s.writeBack l) := by
  unfold State.writeBack
  split
  · exact h
  · exact h.lateWrite _

theorem cleanLines (h : InFlight c i sl s) (d : Nat) (p : CacheLine → Bool) : InFlight c i sl (s.cleanLines d p) :=
  (foldl (fun _ l h => h.writeBack l) _ h).same (.setCore _ d rfl)

theorem release (h : InFlight c i sl s) (d scope : Nat) : InFlight c i sl (s.release d scope) := by
  unfold State.release
  split
  · exact h
  · exact h.cleanLines ..

end InFlight

end Sys2Proof.Proofs.Control
end

section
/-! SUPPORT. The ord unit (05 R110, 08 R192 to R195). -/

namespace Sys2Proof.Proofs.Control

open Sys2Proof Sys2Proof.Machine

/-! ## A word about to retire -/

/-- The strand of slot i of core c has run its word, which may retire: it goes on at pc, and neither stops nor waits. -/
structure AtRetirement (c i : Nat) (pc : Word) (s : State) : Prop where
  current : s.current = some (c, i)
  issued : (s.slot c i).st = .issued
  pc_eq : (s.slot c i).pc = pc
  unstopped : (s.slot c i).stopReq = false
  unparked : (s.slot c i).park = none

/-- A strand whose word has moved on is in flight with its new slot. -/
theorem inFlight_stepped {s : State} {c i : Nat} {m : Lone} (h : LoneReady s c i m) (hapart : heldApart s) :
    InFlight c i (s.stepped c i) (s.setSlot c i (s.stepped c i)) :=
  ⟨h.current, State.setSlot_slot .., h.unheld, heldApart_setSlot hapart c i (hapart c i)⟩

theorem InFlight.atRetirement {s u : State} {c i : Nat} {m : Lone} (h : LoneReady s c i m) (hu : InFlight c i (s.stepped c i) u) :
    AtRetirement c i ((s.slot c i).pc + 8) u := by
  obtain ⟨hcurrent, hslot, -, -⟩ := hu
  exact ⟨hcurrent, hslot ▸ h.issued, hslot ▸ rfl, hslot ▸ h.unstopped, hslot ▸ h.unparked⟩

theorem retires_pc (s : State) (c i : Nat) (sl : Slot) : ((s.retires c i sl).slot c i).pc = sl.pc := by
  change ((s.setSlot c i _).slot c i).pc = sl.pc
  rw [State.setSlot_slot]

theorem retires_code (s : State) (c i : Nat) (sl : Slot) : ((s.retires c i sl).core c).code = (s.core c).code := by
  change ((s.setSlot c i _).core c).code = (s.core c).code
  rw [State.setSlot_core, Core.setSlot_code_eq]

theorem retires_lines (s : State) (c i : Nat) (sl : Slot) : ((s.retires c i sl).core c).lines = (s.core c).lines := by
  change ((s.setSlot c i _).core c).lines = (s.core c).lines
  rw [State.setSlot_core, Core.setSlot_lines_eq]

/-! ## How a lone word of the unit ends -/

theorem isImmediate_ord {d : BitVec 14} (hd : blockOf d = 0x12) : isImmediate (blockOf d) = false := by
  rw [hd]; rfl

/-- The context of a lone word's resolving operation. -/
def loneCtx (s : State) (c i : Nat) (m : Lone) (d : BitVec 14) : Ctx :=
  ⟨c, i, loneMove s c i m d, (s.slot c i).pc, (s.slot c i).pc + 8, pairWord (m.to d) Move.nop⟩

/-- What the unit's operation of a lone word comes to. -/
def loneOrd (s : State) (c i : Nat) (m : Lone) (d : BitVec 14) : Trig := ordOp (loneCtx s c i m d) (s.stepped c i) s

theorem resolve_ord {d : BitVec 14} (hd : blockOf d = 0x12) (s : State) (c i : Nat) (m : Lone) :
    resolve (loneCtx s c i m d) (s.stepped c i) s none = loneOrd s c i m d := by
  have hblock : blockOf (loneCtx s c i m d).m.dst = 0x12 := hd
  simp only [resolve, hblock, loneOrd]

section
variable {s : State} {c i : Nat} {m : Lone} (h : LoneReady s c i m) (d : BitVec 14) (hd : blockOf d = 0x12)
include h hd

theorem runLone_ord :
    runLone d m s = .next (s.conclude c i [loneMove s c i m d] (loneMove s c i m d) (s.slot c i).pc ((s.slot c i).pc + 8)
      (pairWord (m.to d) Move.nop) (loneOrd s c i m d)) := by
  rw [← resolve_ord hd]
  exact runLone_resolving d h (fun hn => absurd hn (by rw [needsHandler_of_block (by omega)]; decide)) (isTrigger_of_block (by omega))
    (isImmediate_ord hd)

theorem runLone_ord_done {u : State} {pc : Word} (hop : loneOrd s c i m d = .done u) (hu : AtRetirement c i pc u) :
    runLone d m s = .next (u.retires c i (u.slot c i)) := by
  rw [runLone_ord h d hd, hop, conclude_done _ _ _ _ _ _ _ _ _ hu.issued h.unstepped hu.unstopped hu.unparked hu.current]

/-- An operation that leaves the strand in flight. -/
theorem runLone_ord_effect (hapart : heldApart s) (effect : State → State)
    (hop : loneOrd s c i m d = .done (effect (s.setSlot c i (s.stepped c i))))
    (heffect : ∀ u, InFlight c i (s.stepped c i) u → InFlight c i (s.stepped c i) (effect u)) :
    runLone d m s = .next (s.loneDone c i effect) :=
  runLone_ord_done h d hd hop ((heffect _ (inFlight_stepped h hapart)).atRetirement h)

theorem runLone_ord_hold (hop : loneOrd s c i m d = .hold s .fence .issued none) :
    ∃ u, runLone d m s = .next u ∧ u.isHeld c i .fence .issued := by
  refine ⟨_, (runLone_ord h d hd).trans (by rw [hop]), ?_, ?_, ?_⟩
  · show (if s.current = some (c, i) then none else s.current) = none
    rw [if_pos h.current]
  · exact congrArg Slot.st (State.setSlot_slot ..)
  · exact ⟨_, congrArg Slot.held (State.setSlot_slot ..), rfl⟩

theorem runLone_ord_illegal (hop : loneOrd s c i m d = .fault (bare cIllegalWord)) :
    runLone d m s = .next (s.loneTrap c i m d cIllegalWord none) := by
  rw [runLone_ord h d hd, hop, conclude_fault (h := show (bare cIllegalWord).code ≠ cDataLost by decide)]
  exact congrArg Host.Outcome.next (trap_withInfo s c i m d (by decide))

end

/-! ## Which operation a trigger names -/

section
variable {cx : Ctx} {sl : Slot} (s : State)

theorem ordOp_illegal (hk : opOf cx.m.dst ≤ 3) (hscope : 5 ≤ (sl.operand 0x57).toNat % 8) : ordOp cx sl s = .fault (bare cIllegalWord) :=
  if_pos ⟨hk, hscope⟩

theorem ordOp_cinv (hk : opOf cx.m.dst = 4) : ordOp cx sl s = cacheOp cx sl s true (bitsOf (sl.operand 0x57).toNat 8 24) := by
  simp only [ordOp, hk]
  rw [if_neg (by omega)]

theorem ordOp_cwb (hk : opOf cx.m.dst = 5) : ordOp cx sl s = cacheOp cx sl s false (bitsOf (sl.operand 0x57).toNat 8 24) := by
  simp only [ordOp, hk]
  rw [if_neg (by omega)]

variable (hscope : (sl.operand 0x57).toNat % 8 < 5)
include hscope

theorem ordOp_fence (hk : opOf cx.m.dst = 0) :
    ordOp cx sl s = fenceOp cx sl s ((sl.operand 0x57).toNat % 8) (cx.m.val.toNat % 256) (cx.m.val.toNat / 256 % 256) := by
  have hpred : bitsOf cx.m.val.toNat 0 8 = cx.m.val.toNat % 256 := by simp [bitsOf]
  simp only [ordOp, hk, hpred]
  exact if_neg (by omega)

theorem ordOp_acq (hk : opOf cx.m.dst = 1) : ordOp cx sl s = fenceOp cx sl s ((sl.operand 0x57).toNat % 8) 0x01 0xFF := by
  simp only [ordOp, hk]
  rw [if_neg (by omega)]

theorem ordOp_rel (hk : opOf cx.m.dst = 2) : ordOp cx sl s = fenceOp cx sl s ((sl.operand 0x57).toNat % 8) 0x03 0xAA := by
  simp only [ordOp, hk]
  rw [if_neg (by omega)]

theorem ordOp_icsync (hk : opOf cx.m.dst = 3) :
    ordOp cx sl s = icsyncOp cx sl s ((sl.operand 0x57).toNat % 8) (bitsOf (sl.operand 0x57).toNat 8 24) := by
  simp only [ordOp, hk]
  rw [if_neg (by omega)]

end

/-! ## Fences -/

/-- The cache actions of a fence (08 R193). -/
def fenceEffect (c scope pred succ : Nat) (u : State) : State :=
  let u := if pred / 2 % 2 = 1 then u.release c scope else u
  if succ % 2 = 1 then u.acquire c scope else u

theorem InFlight.fenceEffect {c i : Nat} {sl : Slot} {s : State} (h : InFlight c i sl s) (d scope pred succ : Nat) :
    InFlight c i sl (Control.fenceEffect d scope pred succ s) := by
  have hreleased : InFlight c i sl (if pred / 2 % 2 = 1 then s.release d scope else s) := by
    split
    · exact h.release ..
    · exact h
  exact hreleased.same (.ite (.acquire ..) (.refl _))

section
variable (cx : Ctx) (sl : Slot) (s : State) (scope : Nat) {pred succ : Nat}

theorem fenceOp_empty (hempty : pred = 0 ∨ succ = 0) : fenceOp cx sl s scope pred succ = .done (cx.commit s sl) := if_pos hempty

theorem fenceOp_busy (hp : pred ≠ 0) (hs : succ ≠ 0) (hdone : s.predDone cx.core cx.slot pred = false) :
    fenceOp cx sl s scope pred succ = .hold s .fence .issued none := by
  simp [fenceOp, hp, hs, hdone]

theorem fenceOp_performed (hp : pred ≠ 0) (hs : succ ≠ 0) (hdone : s.predDone cx.core cx.slot pred = true) :
    fenceOp cx sl s scope pred succ = .done (fenceEffect cx.core scope pred succ (cx.commit s sl)) := by
  simp [fenceOp, hp, hs, hdone, fenceEffect, bitsOf]

/-- No access of an engine is named by the masks of ord.acq and ord.rel (08 R194). -/
theorem predDone_of_lt {c i pred : Nat} (hlt : pred < 4) : s.predDone c i pred = true := by
  have hbit (b : Nat) (hb : 2 ≤ b) : bitsOf pred b 1 = 0 := by
    have hdiv : pred / 2 ^ b = 0 := Nat.div_eq_of_lt (Nat.lt_of_lt_of_le hlt (Nat.pow_le_pow_right (by decide) hb : 2 ^ 2 ≤ 2 ^ b))
    simp only [bitsOf, hdiv, Nat.zero_mod]
  simp [State.predDone, hbit]

end

section
variable {s : State} {c i : Nat} {m : Lone} (h : LoneReady s c i m) (hapart : heldApart s) {d : BitVec 14} (hd : blockOf d = 0x12)
  {scope pred succ : Nat} (hop : loneOrd s c i m d = fenceOp (loneCtx s c i m d) (s.stepped c i) s scope pred succ)
include h hapart hd hop

theorem runLone_fence_empty (hempty : pred = 0 ∨ succ = 0) : runLone d m s = .next (s.loneDone c i id) :=
  runLone_ord_effect h d hd hapart id (hop.trans (fenceOp_empty _ _ _ _ hempty)) fun _ hu => hu

theorem runLone_fence_performed (hp : pred ≠ 0) (hs : succ ≠ 0) (hdone : s.predDone c i pred = true) :
    runLone d m s = .next (s.loneDone c i (fenceEffect c scope pred succ)) :=
  runLone_ord_effect h d hd hapart _ (hop.trans (fenceOp_performed _ _ _ _ hp hs hdone)) fun _ hu => hu.fenceEffect ..

end

/-! ## Cache maintenance -/

/-- The effect of ord.cinv on every line (08 R195). -/
def expelLines (c : Nat) (u : State) : State :=
  let u := u.cleanLines c (fun _ => true)
  u.setCore c { u.core c with lines := (u.core c).lines.filter (fun _ => !true) }

theorem InFlight.expelLines {c i : Nat} {sl : Slot} {s : State} (h : InFlight c i sl s) (d : Nat) : InFlight c i sl (Control.expelLines d s) :=
  (h.cleanLines d _).same (.setCore _ d rfl)

theorem expelLines_lines (c : Nat) (s : State) : ((expelLines c s).core c).lines = [] := by
  rw [expelLines, State.setCore_core]
  exact List.filter_eq_nil_iff.mpr fun _ _ => Bool.false_ne_true

theorem cacheOp_cwb (cx : Ctx) (sl : Slot) (s : State) :
    cacheOp cx sl s false 0 = .done ((cx.commit s sl).cleanLines cx.core (fun _ => true)) := rfl

theorem cacheOp_cinv (cx : Ctx) (sl : Slot) (s : State) : cacheOp cx sl s true 0 = .done (expelLines cx.core (cx.commit s sl)) := rfl

/-! ## Code -/

/-- Dropping code lines and what was fetched of them touches nothing that decides how a word retires. -/
theorem dropCode_slot {α : Type} {g : Slot → α} (hg : ∀ (sl : Slot) u f, g { sl with units := u, fetch := f } = g sl) (k : Core) (p : CodeLine → Bool)
    (i : Nat) : g ((k.dropCode p).slot i) = g (k.slot i) :=
  table_get_map Slot.free (f := fun sl => { sl with units := [], fetch := if sl.inPipe then sl.fetch else none }) (fun _ => hg ..) k.slots i

theorem AtRetirement.dropCode {c i : Nat} {pc : Word} {s : State} (h : AtRetirement c i pc s) (d : Nat) (p : CodeLine → Bool) :
    AtRetirement c i pc (s.setCore d ((s.core d).dropCode p)) := by
  have hslot {α : Type} {g : Slot → α} (hg : ∀ (sl : Slot) u f, g { sl with units := u, fetch := f } = g sl) :
      g ((s.setCore d ((s.core d).dropCode p)).slot c i) = g (s.slot c i) := by
    by_cases hc : c = d
    · subst hc
      rw [State.slot, State.setCore_core]
      exact dropCode_slot hg ..
    · rw [State.slot, State.setCore_core_ne _ _ _ _ hc]
      rfl
  obtain ⟨hcurrent, hissued, hpc, hstop, hpark⟩ := h
  exact ⟨hcurrent, (hslot fun _ _ _ => rfl).trans hissued, (hslot fun _ _ _ => rfl).trans hpc, (hslot fun _ _ _ => rfl).trans hstop,
    (hslot fun _ _ _ => rfl).trans hpark⟩

theorem AtRetirement.setCluster {c i : Nat} {pc : Word} {s : State} (h : AtRetirement c i pc s) (n : Nat) (k : Cluster) :
    AtRetirement c i pc (s.setCluster n k) :=
  ⟨h.current, h.issued, h.pc_eq, h.unstopped, h.unparked⟩

/-- ord.icsync of every line (05 R110). -/
theorem icsyncOp_all (cx : Ctx) (sl : Slot) (s : State) (scope : Nat) {pc : Word}
    (hreleased : AtRetirement cx.core cx.slot pc ((cx.commit s sl).release cx.core (max scope 2))) :
    ∃ u, icsyncOp cx sl s scope 0 = .done u ∧ AtRetirement cx.core cx.slot pc u ∧ (scope < 2 → (u.core cx.core).code = []) := by
  refine ⟨_, rfl, ?_, fun hcell => ?_⟩
  · exact List.foldlRecOn _ _ (List.foldlRecOn _ _ hreleased fun u hu d _ => hu.dropCode ..) fun u hu n _ => hu.setCluster ..
  · refine List.foldlRecOn (motive := fun u : State => (u.core cx.core).code = []) _ _ ?_ fun u hu n _ => hu
    have hreach (u : State) : u.icReach cx.core scope = [cx.core] := if_pos hcell
    simp only [hreach, List.foldl_cons, List.foldl_nil, State.setCore_core]
    exact List.filter_eq_nil_iff.mpr fun _ _ => Bool.false_ne_true

/-! ## The results of the unit -/

/-- Settles O30: each operation is one of the ways that a lone word of the unit ends. -/
theorem orderingResults : Obligations.OrderingResults := by
  intro s c i m h hapart sl o scope t pred succ
  have hstart := inFlight_stepped h hapart
  refine ⟨fun hscope => ?legal, fun hlines => ⟨?cwb, ?cinv⟩, fun hscope => ?illegal⟩
  case legal =>
    have hfence : loneOrd s c i m 0x480 = fenceOp (loneCtx s c i m 0x480) (s.stepped c i) s scope pred succ :=
      ordOp_fence s hscope (by decide : opOf 0x480 = 0)
    have hacq : loneOrd s c i m 0x481 = fenceOp (loneCtx s c i m 0x481) (s.stepped c i) s scope 0x01 0xFF :=
      ordOp_acq s hscope (by decide : opOf 0x481 = 1)
    have hrel : loneOrd s c i m 0x482 = fenceOp (loneCtx s c i m 0x482) (s.stepped c i) s scope 0x03 0xAA :=
      ordOp_rel s hscope (by decide : opOf 0x482 = 2)
    refine ⟨runLone_fence_empty h hapart rfl hfence, fun hp hs hbusy => ?_, runLone_fence_performed h hapart rfl hfence,
      runLone_fence_performed h hapart rfl hacq (by decide) (by decide) (predDone_of_lt s (by decide)),
      runLone_fence_performed h hapart rfl hrel (by decide) (by decide) (predDone_of_lt s (by decide)), fun hlines => ?_⟩
    · exact runLone_ord_hold h 0x480 rfl (hfence.trans (fenceOp_busy _ _ _ _ hp hs hbusy))
    · have hicsync : loneOrd s c i m 0x483 = icsyncOp (loneCtx s c i m 0x483) (s.stepped c i) s scope (bitsOf o.toNat 8 24) :=
        ordOp_icsync s hscope (by decide : opOf 0x483 = 3)
      obtain ⟨u, hdone, hu, hcode⟩ := icsyncOp_all (loneCtx s c i m 0x483) (s.stepped c i) s scope ((hstart.release ..).atRetirement h)
      have hop : loneOrd s c i m 0x483 = .done u := hicsync.trans ((congrArg _ hlines).trans hdone)
      exact ⟨_, runLone_ord_done h 0x483 rfl hop hu, rfl, (retires_pc ..).trans hu.pc_eq, fun hcell => (retires_code ..).trans (hcode hcell)⟩
  case cwb =>
    have hcwb : loneOrd s c i m 0x485 = cacheOp (loneCtx s c i m 0x485) (s.stepped c i) s false 0 :=
      (ordOp_cwb s (by decide : opOf 0x485 = 5)).trans (congrArg _ hlines)
    exact runLone_ord_effect h 0x485 rfl hapart _ (hcwb.trans (cacheOp_cwb ..)) fun _ hu => hu.cleanLines ..
  case cinv =>
    have hcinv : loneOrd s c i m 0x484 = cacheOp (loneCtx s c i m 0x484) (s.stepped c i) s true 0 :=
      (ordOp_cinv s (by decide : opOf 0x484 = 4)).trans (congrArg _ hlines)
    have hu := (hstart.expelLines c).atRetirement h
    exact ⟨_, runLone_ord_done h 0x484 rfl (hcinv.trans (cacheOp_cinv ..)) hu, rfl, (retires_pc ..).trans hu.pc_eq,
      (retires_lines ..).trans (expelLines_lines ..)⟩
  case illegal =>
    have hillegal (d : BitVec 14) (hk : opOf d ≤ 3) : loneOrd s c i m d = .fault (bare cIllegalWord) := ordOp_illegal s hk hscope
    exact ⟨runLone_ord_illegal h 0x480 rfl (hillegal _ (by decide)), runLone_ord_illegal h 0x481 rfl (hillegal _ (by decide)),
      runLone_ord_illegal h 0x482 rfl (hillegal _ (by decide)), runLone_ord_illegal h 0x483 rfl (hillegal _ (by decide))⟩

end Sys2Proof.Proofs.Control
end
